-- ==== Sys2Proof/Word.lean ====
section
/-! DEFINITION. The word types, the bit fields of words, and the plain data that commands carry as operands. -/

namespace Sys2Proof

/-- A lane-byte: P [12], CP [11], ST [10:8], D [7:0] (R145). -/
abbrev LaneByte := BitVec 13

/-- Bits [hi:lo] of a word, as a number. -/
def bits {w : Nat} (x : BitVec w) (hi lo : Nat) : Nat := (x.extractLsb' lo (hi + 1 - lo)).toNat

/-- Bit i of a word. -/
def bit {w : Nat} (x : BitVec w) (i : Nat) : Bool := x.getLsbD i

/-- The mask of bits [hi:lo]. -/
def fieldMask (w hi lo : Nat) : BitVec w := BitVec.ofNat w ((2 ^ (hi + 1 - lo) - 1) * 2 ^ lo)

/-- The word with bits [hi:lo] replaced by v. -/
def setBits {w : Nat} (x : BitVec w) (hi lo v : Nat) : BitVec w :=
  (x &&& ~~~ fieldMask w hi lo) ||| (BitVec.ofNat w (v * 2 ^ lo) &&& fieldMask w hi lo)

/-- The word with bit i set to b. -/
def setBit {w : Nat} (x : BitVec w) (i : Nat) (b : Bool) : BitVec w := setBits x i i (if b then 1 else 0)

/-- Number of ones in a word. -/
def onesUpTo {w : Nat} (x : BitVec w) : Nat → Nat
  | 0 => 0
  | n + 1 => onesUpTo x n + (if x.getLsbD n then 1 else 0)

def ones {w : Nat} (x : BitVec w) : Nat := onesUpTo x w

/-- Odd parity: the number of ones is odd (R56, R72, R105, R145, R151). -/
def oddOk {w : Nat} (x : BitVec w) : Bool := ones x % 2 == 1

/-- 1 for true. -/
def b2n (b : Bool) : Nat := if b then 1 else 0

/-- What the check bits say of a 64-bit word read from a memory: no error, one that the stack itself corrected (HBM only), a
corrected single-bit error, or an
uncorrected error whose word as read differs from the stored one in the given bits (R221, R250). -/
inductive Ecc where
  | ok | onDie | corrected | uncorrected (flip : BitVec 64)
deriving DecidableEq, Repr

/-- What the check bits say of the word with the given index among the words a command reads. -/
structure EccAt where
  word : Nat
  ecc : Ecc
deriving DecidableEq, Repr

/-- How a page read of the loader ends (R368, R370): whether the controller reports a read error, and what the check bits say of the
words read from HBM. -/
structure ReadEnd where
  err : Bool
  ecc : List EccAt
deriving DecidableEq, Repr

/-- What an operation of the store met before it ended (R383, R388, R389): the blocks that failed, the frames whose reads had to be
repeated and how often, and what the check bits say of the words read from HBM. -/
structure StoreEnd where
  bad : List Nat
  retries : List (Nat × Nat)
  ecc : List EccAt
deriving DecidableEq, Repr

/-- A stimulus port whose value is delivered (R465), and what the check bits say of the burst read for it (R245). -/
structure StimPut where
  port : Nat
  ecc : List EccAt
deriving DecidableEq, Repr

/-- How a ring or remote write of trace words ends (R470), and what the check bits say of the ring's words read for it. -/
structure RingEnd where
  ok : Bool
  ecc : List EccAt
deriving DecidableEq, Repr

/-- A read of TT_S_FIFO (R471): whether it is a peek, and what the check bits say of the ring's word. -/
structure FifoTake where
  peek : Bool
  ecc : List EccAt
deriving DecidableEq, Repr

/-- A sample instant (R516): its time in units of 4 ps, and what the check bits say of the words the recorder reads. -/
structure SampleAt where
  now : Nat
  ecc : List EccAt
deriving DecidableEq, Repr

/-- The course of an awl request (R486): what the check bits say of the words it reads, and the access that ends with an error,
with its code. -/
structure AwlCourse where
  ecc : List EccAt
  stop : Option (Nat × Nat)
deriving DecidableEq, Repr

/-- A request that reaches an HBM controller (R242, R243): its place among those waiting at the node, and the ns since the last
choice of its pseudo-channel. -/
structure ReqEntry where
  idx : Nat
  dt : Nat
deriving DecidableEq, Repr

/-- The far end of a port leaves UP (R333, R334): the port, and whether the far port stops its lanes since it powers off. -/
structure FarLeave where
  port : Nat
  stop : Bool
deriving DecidableEq, Repr

/-- A soft error of the stacked SRAM met by a fetch (R83): the store, coded as CLU_ACC_CTRL.STORE, the physical unit
and the entry, the bits that differ, and whether SECDED reports it. -/
structure SramErr where
  store : Nat
  unit : Nat
  entry : Nat
  flip : BitVec 128
  reported : Bool
deriving DecidableEq, Repr

/-- What a flit meets on a router link (R268). -/
inductive FlitErr where
  | ok | corrected | uncorrected
deriving DecidableEq, Repr

/-- Who writes a register, where the spec lets the outcome depend on it (R85, R141, R220, R299). -/
inductive Who where
  | host | debug | engine (e : Nat) | ce | pm | trace | other
deriving DecidableEq, Repr

/-- An output lane with its chain of places (R148, R155, R158). kind 0: outbound position of a cluster; 1: router output;
2: gateway output; 3: receiving port side; 4: outbound welt. tile is the domain index; row and col the physical router;
out the group of R152 and lane the lane within it. -/
structure LaneId where
  kind : Nat
  tile : Nat
  row : Nat
  col : Nat
  out : Nat
  lane : Nat
deriving DecidableEq, Repr

/-- A packet of the network: the header fields of R272 and its data flits. -/
structure Packet where
  dx : Nat
  dy : Nat
  sx : Nat
  sy : Nat
  mid : Nat
  ctx : Nat
  cmd : Nat
  cls : Nat
  len : Nat
  slot : Nat
  gen : Nat
  addr : BitVec 48
  resp : Nat
  peek : Bool
  q : Bool
  be : BitVec 8
  data : List (BitVec 256)
deriving DecidableEq, Repr

/-- What the decoder finds of a codeword (R304). -/
inductive CwOutcome where
  | ok | corrected | uncorrectable
deriving DecidableEq, Repr

/-- A flit of the Etvel link: the 1,024 bits of R305. -/
abbrev Flit := BitVec 1024

/-- The regions of the store that stand in two copies (R350, R351). -/
inductive StoreRegion where
  | directory | record | repairMap
deriving DecidableEq, Repr

/-- A copy of such a region whose CRC-32 does not hold when the CE reads it at a start (R351): the one in force, or the
other. -/
structure LostCopy where
  region : StoreRegion
  inForce : Bool
deriving DecidableEq, Repr

/-- A hard repair of an HBM row that a cobbler pass makes (R253, R548): stack, physical pseudo-channel, bank, row, and whether
the stack takes it. -/
structure RowRepair where
  stack : Nat
  pch : Nat
  bank : Nat
  row : Nat
  ok : Bool
deriving DecidableEq, Repr

/-- A write of CE_CTRL that starts a load (R351, R369): its data, and the copies of the store's regions whose CRC-32 does not
hold. -/
structure LoadWrite where
  v : BitVec 32
  lost : List LostCopy
deriving DecidableEq, Repr

/-- The end of a power-on reset (R351, R573): which regulators acknowledge, and the copies of the store's regions whose CRC-32
does not hold. -/
structure PorEnd where
  acks : BitVec 4
  lost : List LostCopy
deriving DecidableEq, Repr

/-- What a cobbler pass finds beside failing units (R390, R546, R548, R549): speed losses by tile, failing blocks of the store,
and the hard repairs made. -/
structure PassFinds where
  ages : List (Nat × Nat)
  blocks : List Nat
  rows : List RowRepair
deriving DecidableEq, Repr

/-- A unit named for the repair map, in the layout of SPR_MARK (R563). -/
structure MarkUnit where
  kind : Nat
  idx : Nat
  prow : Nat
  pcol : Nat
  unit : Nat
deriving DecidableEq, Repr

end Sys2Proof
end

