-- ==== Sys2Proof/Syntax.lean ====
section
/-! DEFINITION. The commands of the block: one constructor for each row of spec/opcode_table.json, in its order.
Operands name what the command acts on and what the world outside the model supplies with it (log 3). -/

namespace Sys2Proof

/-- The 199 commands. Each docstring names the rule that governs the row. -/
inductive Instr where
  /-- CLUSTER_STEP (R21). -/
  | clusterStep (t : Nat) (row : Nat) (col : Nat) (ue : List SramErr)
  /-- TURN_TO_STEP (R82). -/
  | turnToStep (t : Nat) (row : Nat) (col : Nat) (ue : List SramErr)
  /-- LANE_BYTE_ARRIVAL (R20). -/
  | laneByteArrival (t : Nat) (row : Nat) (col : Nat) (pos : Nat) (err : LaneByte)
  /-- LANE_STAGE_PASS (R146). -/
  | laneStagePass (lane : LaneId) (stage : Nat) (err : LaneByte)
  /-- MERGE_TAKE (R150). -/
  | mergeTake (lane : LaneId) (err : LaneByte) (flip : BitVec 16)
  /-- LOCAL_MIDNIGHT (R27). -/
  | localMidnight
  /-- MIDNIGHT_RELEASE (R27). -/
  | midnightRelease (waitNs : Nat)
  /-- SEQ_FAULT_WRITE (R48). -/
  | seqFaultWrite (v : BitVec 32)
  /-- SEQ_RATE_WINDOW (R36). -/
  | seqRateWindow (whole : Bool)
  /-- SEQ_CYCLE_LO_READ (R45). -/
  | seqCycleLoRead (peek : Bool)
  /-- RC_FIELD_READ (R9). -/
  | rcFieldRead (key : Nat) (peek : Bool)
  /-- REGISTER_WRITE (R9). -/
  | registerWrite (who : Who) (key : Nat) (v : BitVec 32)
  /-- CLU_ACCESS_START (R95). -/
  | cluAccessStart (who : Who) (t : Nat) (row : Nat) (col : Nat) (v : BitVec 32)
  /-- CLU_ACCESS_COMPLETE (R97). -/
  | cluAccessComplete (t : Nat) (row : Nat) (col : Nat)
  /-- WU_ACCESS_START (R139). -/
  | wuAccessStart (who : Who) (t : Nat) (row : Nat) (col : Nat) (pw : Nat) (v : BitVec 32)
  /-- WU_ACCESS_COMPLETE (R141). -/
  | wuAccessComplete (t : Nat) (row : Nat) (col : Nat) (pw : Nat)
  /-- BANK_GRANT (R122). -/
  | bankGrant (t : Nat) (bank : Nat) (ecc : Ecc)
  /-- HBM_RESPONSE_ARRIVAL (R129). -/
  | hbmResponseArrival (idx : Nat)
  /-- PORT_SIDE_DELIVER (R162). -/
  | portSideDeliver (port : Nat) (lane : Nat)
  /-- MERGE_ACCESS_START (R173). -/
  | mergeAccessStart (who : Who) (t : Nat) (v : BitVec 32)
  /-- MERGE_ACCESS_COMPLETE (R174). -/
  | mergeAccessComplete (t : Nat)
  /-- BANK_HANDOVER_START (R217). -/
  | bankHandoverStart (who : Who) (t : Nat) (bank : Nat) (v : BitVec 32)
  /-- BANK_HANDOVER_FENCE (R217). -/
  | bankHandoverFence (t : Nat) (bank : Nat)
  /-- BANK_HANDOVER_DRAINED (R217). -/
  | bankHandoverDrained (t : Nat) (bank : Nat)
  /-- BANK_HANDOVER_CLEARED (R217). -/
  | bankHandoverCleared (t : Nat) (bank : Nat)
  /-- SCRATCHPAD_NOC_ACCESS (R215). -/
  | scratchpadNocAccess (node : Nat) (idx : Nat) (ecc : List EccAt)
  /-- BANK_SCRUB_READ (R223). -/
  | bankScrubRead (t : Nat) (bank : Nat) (ecc : Ecc)
  /-- HBM_REQUEST_ARRIVAL (R242). -/
  | hbmRequestArrival (mc : Nat) (r : ReqEntry)
  /-- HBM_COMMAND_SELECT (R243). -/
  | hbmCommandSelect (mc : Nat) (pch : Nat) (dt : Nat)
  /-- PAGE_IDLE_EXPIRY (R244). -/
  | pageIdleExpiry (mc : Nat) (pch : Nat) (bank : Nat)
  /-- PER_BANK_REFRESH_DUE (R246). -/
  | perBankRefreshDue (mc : Nat) (pch : Nat) (bank : Nat) (trate : Nat)
  /-- REFRESH_WINDOW_END (R247). -/
  | refreshWindowEnd (mc : Nat) (pch : Nat) (bank : Nat)
  /-- HBM_PARITY_RETRY (R251). -/
  | hbmParityRetry (mc : Nat) (idx : Nat)
  /-- HBM_SCRUB_READ (R252). -/
  | hbmScrubRead (mc : Nat) (pch : Nat) (ecc : List EccAt)
  /-- MIGRATION_START (R240). -/
  | migrationStart (mc : Nat) (v : BitVec 32)
  /-- MIGRATION_ABORT (R241). -/
  | migrationAbort (mc : Nat) (v : BitVec 32)
  /-- MIGRATION_BLOCK_COPY (R240). -/
  | migrationBlockCopy (mc : Nat) (ecc : List EccAt)
  /-- MC_INIT_DONE (R257). -/
  | mcInitDone (mc : Nat) (geom : BitVec 32) (ok : Bool) (lrep : Nat)
  /-- MC_WAKE (R256). -/
  | mcWake (mc : Nat)
  /-- MC_WAKE_READY (R256). -/
  | mcWakeReady (mc : Nat)
  /-- MC_WAKE_TIMEOUT (R256). -/
  | mcWakeTimeout (mc : Nat)
  /-- ROUTER_FORWARD (R265). -/
  | routerForward (idx : Nat) (err : FlitErr)
  /-- NOC_REQUEST_SEND (R276). -/
  | nocRequestSend (node : Nat) (mid : Nat) (req : Option Packet)
  /-- RD (R273). -/
  | rd (node : Nat) (idx : Nat) (ecc : List EccAt)
  /-- WR (R273). -/
  | wr (node : Nat) (idx : Nat) (ecc : List EccAt)
  /-- RDW (R273). -/
  | rdw (node : Nat) (idx : Nat) (ecc : List EccAt)
  /-- WRW (R273). -/
  | wrw (node : Nat) (idx : Nat) (ecc : List EccAt)
  /-- LRD (R277). -/
  | lrd (node : Nat) (idx : Nat) (ecc : List EccAt)
  /-- LWR (R277). -/
  | lwr (node : Nat) (idx : Nat) (ecc : List EccAt)
  /-- UNLK (R278). -/
  | unlk (node : Nat) (idx : Nat)
  /-- RESP (R280). -/
  | resp (idx : Nat)
  /-- EVT (R291). -/
  | evt (idx : Nat)
  /-- NOC_REQUEST_TIMEOUT (R280). -/
  | nocRequestTimeout (node : Nat) (mid : Nat) (slot : Nat)
  /-- SLOT_REUSE_TIMEOUT (R281). -/
  | slotReuseTimeout (node : Nat) (mid : Nat) (slot : Nat)
  /-- LOCK_IDLE_EXPIRY (R278). -/
  | lockIdleExpiry (node : Nat)
  /-- NOC_UNFREEZE_MASTER (R284). -/
  | nocUnfreezeMaster (v : BitVec 32)
  /-- NOC_UNFREEZE_ALL (R284). -/
  | nocUnfreezeAll (v : BitVec 32)
  /-- PWR_DOWN_REQUEST (R299). -/
  | pwrDownRequest (who : Who) (dom : Nat) (v : BitVec 32)
  /-- PWR_ON_REQUEST (R299). -/
  | pwrOnRequest (who : Who) (dom : Nat) (v : BitVec 32)
  /-- POINT_OF_NO_RETURN (R287). -/
  | pointOfNoReturn (dom : Nat)
  /-- DOMAIN_OFF (R287). -/
  | domainOff (dom : Nat)
  /-- DOMAIN_WAKE (R287). -/
  | domainWake (dom : Nat)
  /-- DOMAIN_ON (R287). -/
  | domainOn (dom : Nat)
  /-- DOMAIN_WAKE_TIMEOUT (R287). -/
  | domainWakeTimeout (dom : Nat)
  /-- DUSK_FENCE (R289). -/
  | duskFence (dom : Nat)
  /-- DUSK_DRAIN_COMPLETE (R254). -/
  | duskDrainComplete (dom : Nat)
  /-- SELF_REFRESH_ENTRY (R254). -/
  | selfRefreshEntry (mc : Nat)
  /-- DUSK_OFF (R289). -/
  | duskOff (dom : Nat)
  /-- PORT_SIGNAL_DETECT (R332). -/
  | portSignalDetect (p : Nat)
  /-- PORT_TRAIN_COMPLETE (R332). -/
  | portTrainComplete (p : Nat) (pass : BitVec 18)
  /-- PORT_TRAIN_TIMEOUT (R332). -/
  | portTrainTimeout (p : Nat) (pass : BitVec 18)
  /-- LANE_LOSS_OF_LOCK (R333). -/
  | laneLossOfLock (p : Nat) (lane : Nat)
  /-- FAR_END_RETRAIN (R333). -/
  | farEndRetrain (e : FarLeave)
  /-- LNK_RETRAIN (R345). -/
  | lnkRetrain (p : Nat) (v : BitVec 32)
  /-- CODEWORD_RECEIVE (R304). -/
  | codewordReceive (p : Nat) (outcome : CwOutcome) (flits : List Flit)
  /-- FLIT_SEND (R308). -/
  | flitSend (p : Nat)
  /-- REPLAY_TIMEOUT (R306). -/
  | replayTimeout (p : Nat)
  /-- TOKEN (R338). -/
  | token (p : Nat)
  /-- HALT (R339). -/
  | halt (p : Nat)
  /-- RESUME (R339). -/
  | resume (p : Nat)
  /-- CREDIT (R307). -/
  | credit (p : Nat)
  /-- NAK (R306). -/
  | nak (p : Nat)
  /-- PROBE (R321). -/
  | probe (p : Nat)
  /-- PREPLY (R346). -/
  | preply (p : Nat)
  /-- CLAIM (R322). -/
  | claim (p : Nat)
  /-- EXPLORE (R321). -/
  | explore (p : Nat)
  /-- REPORT (R321). -/
  | report (p : Nat)
  /-- UNCLAIM (R324). -/
  | unclaim (p : Nat)
  /-- PROBE_TIMEOUT (R321). -/
  | probeTimeout (p : Nat)
  /-- DISCOVERY_START (R324). -/
  | discoveryStart (v : BitVec 32)
  /-- EPOCH_SWITCH (R330). -/
  | epochSwitch (v : BitVec 32)
  /-- FABRIC_PACKET_ROUTE (R329). -/
  | fabricPacketRoute (p : Nat) (idx : Nat)
  /-- HOLD_NACK (R335). -/
  | holdNack (p : Nat) (idx : Nat)
  /-- REMOTE_REQUEST (R325). -/
  | remoteRequest (p : Nat) (idx : Nat)
  /-- REMOTE_REQUEST_ARRIVE (R327). -/
  | remoteRequestArrive (p : Nat)
  /-- LOAD_START (R369). -/
  | loadStart (w : LoadWrite)
  /-- LOAD_HEADER (R370). -/
  | loadHeader (r : ReadEnd)
  /-- FRAME_READ (R370). -/
  | frameRead (r : ReadEnd)
  /-- LOAD_CLEAN_DONE (R376). -/
  | loadCleanDone
  /-- LOAD_ABORT (R378). -/
  | loadAbort (v : BitVec 32)
  /-- ERASE (R383). -/
  | erase (v : BitVec 32)
  /-- WRITE (R383). -/
  | write (v : BitVec 32)
  /-- COMMIT (R383). -/
  | commit (v : BitVec 32)
  /-- VERIFY (R383). -/
  | verify (v : BitVec 32)
  /-- IDENT (R383). -/
  | ident (v : BitVec 32)
  /-- STORE_OPERATION_DONE (R395). -/
  | storeOperationDone (ok : Bool) (e : StoreEnd)
  /-- BOOT_SELECT_WRITE (R386). -/
  | bootSelectWrite (v : BitVec 32)
  /-- STORE_PATROL_READ (R387). -/
  | storePatrolRead (slot : Nat) (block : Nat) (relocate : Bool)
  /-- DAWN_LOCK_WAIT_END (R399). -/
  | dawnLockWaitEnd
  /-- DAWN_LOCK_TIMEOUT (R399). -/
  | dawnLockTimeout (pcie : Bool) (ports : BitVec 8)
  /-- DAWN_RELEASE (R401). -/
  | dawnRelease
  /-- DAWN_GO (R403). -/
  | dawnGo (v : BitVec 32)
  /-- DAWN_RETRY (R400). -/
  | dawnRetry (v : BitVec 32)
  /-- REGION_DRAIN_DONE (R406). -/
  | regionDrainDone (t : Nat)
  /-- REGION_SWAP (R406). -/
  | regionSwap (t : Nat)
  /-- WELT_EMIT (R413). -/
  | weltEmit (t : Nat) (lane : Nat)
  /-- WELT_DISCARD (R413). -/
  | weltDiscard (t : Nat) (lane : Nat)
  /-- WELT_RECORD_READ (R422). -/
  | weltRecordRead (t : Nat) (v : BitVec 32)
  /-- TASK_SUBMIT (R428). -/
  | taskSubmit (who : Who) (v : BitVec 32)
  /-- TASK_CANCEL (R431). -/
  | taskCancel (v : BitVec 32)
  /-- TASK_ACK (R434). -/
  | taskAck (v : BitVec 32)
  /-- TASK_DUE_TICK (R430). -/
  | taskDueTick (us : Nat)
  /-- TASK_START (R433). -/
  | taskStart (e : Nat)
  /-- COPY (R424). -/
  | copy (e : Nat) (ecc : List EccAt) (stop : Option (Nat × Nat))
  /-- FILL (R424). -/
  | fill (e : Nat) (stop : Option (Nat × Nat))
  /-- FORCE (R427). -/
  | force (e : Nat) (stop : Option (Nat × Nat))
  /-- PEEK (R426). -/
  | peek (e : Nat) (stop : Option (Nat × Nat))
  /-- CHECKPOINT (R442). -/
  | checkpoint (e : Nat) (ecc : List EccAt) (stop : Option (Nat × Nat))
  /-- RESTORE (R443). -/
  | restore (e : Nat) (ecc : List EccAt) (stop : Option (Nat × Nat))
  /-- REGION_LOAD (R406). -/
  | regionLoad (e : Nat)
  /-- TRIGGER_ARM (R461). -/
  | triggerArm (e : Nat)
  /-- HOST_NOTIFY (R424). -/
  | hostNotify (e : Nat)
  /-- TASK_END (R435). -/
  | taskEnd (e : Nat)
  /-- TT_CYCLE_EVALUATE (R455). -/
  | ttCycleEvaluate
  /-- STIMULUS_WRITE (R464). -/
  | stimulusWrite (who : Who) (v : BitVec 32)
  /-- STIMULUS_DELIVERY (R465). -/
  | stimulusDelivery (p : StimPut)
  /-- STREAM_ENABLE (R466). -/
  | streamEnable (n : Nat) (v : BitVec 32)
  /-- STREAM_DISABLE (R466). -/
  | streamDisable (n : Nat) (v : BitVec 32)
  /-- RING_WRITE (R470). -/
  | ringWrite (n : Nat) (e : RingEnd)
  /-- RING_WRITE_REPEAT (R472). -/
  | ringWriteRepeat (n : Nat)
  /-- TRACE_FIFO_READ (R471). -/
  | traceFifoRead (n : Nat) (r : FifoTake)
  /-- TRACE_RD_WRITE (R471). -/
  | traceRdWrite (n : Nat) (v : BitVec 32)
  /-- AWL_RESET (R483). -/
  | awlReset
  /-- AWL_READ (R486). -/
  | awlRead (frame : List (BitVec 8)) (rate : Nat) (ecc : List EccAt) (stop : Option (Nat × Nat))
  /-- AWL_WRITE (R486). -/
  | awlWrite (frame : List (BitVec 8)) (rate : Nat) (c : AwlCourse)
  /-- AUTH_NEW_CHALLENGE (R490). -/
  | authNewChallenge (rnd : BitVec 256)
  /-- AUTH_CHECK (R490). -/
  | authCheck
  /-- FUSE_PROGRAM (R491). -/
  | fuseProgram (who : Who) (v : BitVec 32)
  /-- FUSE_PROGRAM_DONE (R491). -/
  | fuseProgramDone
  /-- DM_UNFREEZE (R492). -/
  | dmUnfreeze (v : BitVec 32)
  /-- DBG_HALT (R493). -/
  | dbgHalt (v : BitVec 32)
  /-- DBG_HALTNOW (R495). -/
  | dbgHaltnow (v : BitVec 32)
  /-- DBG_RESUME (R500). -/
  | dbgResume (v : BitVec 32)
  /-- DBG_STEP (R500). -/
  | dbgStep (v : BitVec 32)
  /-- DBG_CYCLE (R500). -/
  | dbgCycle (v : BitVec 32)
  /-- DBG_CANCEL (R500). -/
  | dbgCancel (v : BitVec 32)
  /-- HALT_POINT_REACHED (R494). -/
  | haltPointReached
  /-- HALT_LOCK_BREAK (R497). -/
  | haltLockBreak
  /-- HALT_COMPLETE (R497). -/
  | haltComplete
  /-- STALL_WATCHDOG_EXPIRY (R503). -/
  | stallWatchdogExpiry
  /-- WDG_KICK (R504). -/
  | wdgKick (v : BitVec 32)
  /-- HEARTBEAT_EXPIRY (R504). -/
  | heartbeatExpiry
  /-- SAMPLE_INSTANT (R516). -/
  | sampleInstant (e : SampleAt)
  /-- CADENCE_TICK (R519). -/
  | cadenceTick
  /-- CADENCE_LOCK_LOSS (R521). -/
  | cadenceLockLoss
  /-- CADENCE_RELOCK (R521). -/
  | cadenceRelock
  /-- VCCO_OUT_OF_WINDOW (R515). -/
  | vccoOutOfWindow (bank : Nat) (vsense : Nat)
  /-- VCCO_RETURN (R515). -/
  | vccoReturn (bank : Nat) (vsense : Nat)
  /-- REC_DIR_WRITE (R524). -/
  | recDirWrite (v : BitVec 32)
  /-- MODE_APPLY (R537). -/
  | modeApply (v : BitVec 32) (acks : BitVec 4)
  /-- PM_LIMIT_CHECK (R539). -/
  | pmLimitCheck (power : Nat) (temp : Int) (acks : BitVec 4)
  /-- ECONOMY_CHECK (R540). -/
  | economyCheck
  /-- IDLE_PASS_DUE (R547). -/
  | idlePassDue
  /-- HOST_PASS (R547). -/
  | hostPass (v : BitVec 32)
  /-- COBBLER_PASS_DONE (R549). -/
  | cobblerPassDone (failing : List MarkUnit) (f : PassFinds)
  /-- SPR_MARK (R549). -/
  | sprMark (v : BitVec 32)
  /-- LEDGER_READ_MARK (R559). -/
  | ledgerReadMark (v : BitVec 32)
  /-- POWER_ON_RESET (R575). -/
  | powerOnReset
  /-- POWER_ON_RESET_END (R575). -/
  | powerOnResetEnd (e : PorEnd)
  /-- UNDERVOLTAGE (R575). -/
  | undervoltage (rail : Nat)
  /-- OVER_TEMPERATURE (R581). -/
  | overTemperature (sensor : Nat) (reading : Int)
  /-- PERST (R579). -/
  | perst
  /-- SMB_STATUS (R580). -/
  | smbStatus (link : Bool)
  /-- SMB_RESET_CAUSE (R580). -/
  | smbResetCause
  /-- SMB_FUSES (R580). -/
  | smbFuses
  /-- SMB_GRADE (R580). -/
  | smbGrade
  /-- SMB_VCORE_VOLTAGE (R580). -/
  | smbVcoreVoltage (rail : Nat) (mv : Nat)
  /-- SMB_VCORE_CURRENT (R580). -/
  | smbVcoreCurrent (rail : Nat) (amps : Nat)
  /-- SMB_DIE_TEMP (R580). -/
  | smbDieTemp (temp : Int)
  /-- SMB_HBM_TEMP (R580). -/
  | smbHbmTemp (temp : Int)
  /-- SMB_POWER (R580). -/
  | smbPower (watts : Nat)
  /-- AWL_RESET_END (R369). -/
  | awlResetEnd
  /-- SS_TICK_LO_READ (R446). -/
  | ssTickLoRead (peek : Bool)
  /-- STACK_RAIL_LOSS (R257). -/
  | stackRailLoss (mc : Nat)
  /-- INPUT_EDGE (R522). -/
  | inputEdge (pin : Nat) (level : Bool) (time : Nat)
  /-- CADENCE_CLOCK_FALL (R517). -/
  | cadenceClockFall
  /-- VCORE_RAMP_DONE (R538). -/
  | vcoreRampDone (rail : Nat)
  /-- VAON_RISE (R580). -/
  | vaonRise (straps : Nat)
  /-- VAON_LOSS (R575). -/
  | vaonLoss
deriving DecidableEq, Repr

end Sys2Proof
end

