-- ==== Sys2Proof/Config.lean ====
section
/-! DEFINITION. What the spec leaves to another standard, to the device or to chance: constants and functions without a
body. Nothing in Lean can evaluate them, so a claim holds whatever they are. -/

namespace Sys2Proof.Config

/-- The n-th free 64-bit value: data the spec leaves undefined (R257). -/
opaque freeValue : Nat → BitVec 64

/-- What a port record says (R181, R316): the lane-bytes that each receiving port-side lane delivers in a cycle, those that each
sending one carries, the merge
sequences of the port gateway as (output group, lane, entries), the far end's fabric address, and the midnight neighbours
it names. -/
structure PortRecord where
  rx : List Nat
  tx : List Nat
  merges : List (Nat × Nat × List (BitVec 16))
  far : Option Nat
  neigh : List Nat
deriving DecidableEq, Repr, Inhabited

/-- What the body of a port record spells: the spec names its content and gives no layout (R181, R360; log 22). -/
opaque portRecord : List (BitVec 8) → PortRecord

/-- How many hard repairs a stack reports for a bank group (R253): by 64 * stack + physical pseudo-channel and bank group. -/
opaque rowRepairs : Nat → Nat → Nat

/-- How many per-bank refreshes the HBM standard lets a controller postpone (R246). -/
opaque refreshPostpone : Nat

/-- The words that the fuses of key slots 0 hold as delivered: Synwizen's hash in group 0 and the first device key in group 1,
keyed 64 * GROUP + WORD (R363, R364, R491; log 9). -/
opaque factoryFuse : Nat → BitVec 32

/-- The device's fabric identity, held in the configuration store (R341). -/
opaque fabIdentity : BitVec 64

end Sys2Proof.Config
end

