-- ==== Sys2Proof/Machine/RegMap.lean ====
section
/-! DEFINITION. The register map: where each register of the spec lies and which of its bits have which access code
(R8 to R11 and the register tables of every chapter). A register is named by its BAR0 offset (R271):
(10 * y + x) MiB for the node at phys(x,y), plus its offset in that node's window. -/

namespace Sys2Proof.Machine

/-- One row of the register map: the register's offset in its node's window, its index dimensions as
(count, stride), the masks of its RW, W1C, RC, RWL and WO fields, the mask of its fields that an image loads, its word
at reset, and the lock of its RWL fields as (offset of the register, bit) in the same node. -/
structure RegRow where
  base : Nat
  dims : List (Nat × Nat)
  rw : Nat
  w1c : Nat
  rc : Nat
  rwl : Nat
  wo : Nat
  img : Nat
  rst : Nat
  lock : Option (Nat × Nat)
deriving DecidableEq, Repr

/-- Node number 10 * y + x of the tile with domain index t (R264, R285). -/
def tileNode (t : Nat) : Nat := 10 * (t / 8 + 1) + (t % 8 + 1)

/-- Node number of MCm (R264). -/
def mcNode (m : Nat) : Nat := if m < 3 then 10 * (2 * m + 2) else 10 * (2 * (m - 3) + 2) + 9

/-- Node number of port Pp (R264). -/
def portNode (p : Nat) : Nat :=
  (if p < 4 then 0 else 90) + (match p % 4 with | 0 => 2 | 1 => 3 | 2 => 6 | _ => 7)

/-- Node numbers of HP, CE, DM, TT, SS, PM and TIO (R264). -/
def hpNode : Nat := 0
def ceNode : Nat := 9
def dmNode : Nat := 90
def ttNode : Nat := 99
def ssNode : Nat := 5
def pmNode : Nat := 94
def tioNode : Nat := 50

/-- What kind of node stands at a network position (R264). -/
inductive NodeKind where
  | tile (t : Nat) | mc (m : Nat) | port (p : Nat) | hp | ce | dm | tt | ss | pm | tio | empty
deriving DecidableEq, Repr

/-- The node at number n = 10 * y + x (R264). -/
def nodeKind (n : Nat) : NodeKind :=
  let x := n % 10
  let y := n / 10
  if n ≥ 100 then .empty
  else if 1 ≤ x ∧ x ≤ 8 ∧ 1 ≤ y ∧ y ≤ 8 then .tile (8 * (y - 1) + (x - 1))
  else match n with
    | 0 => .hp | 9 => .ce | 90 => .dm | 99 => .tt | 5 => .ss | 94 => .pm | 50 => .tio
    | 20 => .mc 0 | 40 => .mc 1 | 60 => .mc 2 | 29 => .mc 3 | 49 => .mc 4 | 69 => .mc 5
    | 2 => .port 0 | 3 => .port 1 | 6 => .port 2 | 7 => .port 3
    | 92 => .port 4 | 93 => .port 5 | 96 => .port 6 | 97 => .port 7
    | _ => .empty

namespace Reg

/-- SEQ_CTRL (R43). -/
def seqCtrl : Nat := 9 * 0x100000 + 0x40000
/-- SEQ_STAT (R44). -/
def seqStat : Nat := 9 * 0x100000 + 0x40004
/-- SEQ_CYCLE_LO (R45). -/
def seqCycleLo : Nat := 9 * 0x100000 + 0x40008
/-- SEQ_CYCLE_HI (R45). -/
def seqCycleHi : Nat := 9 * 0x100000 + 0x4000C
/-- SEQ_HOLD (R46). -/
def seqHold : Nat := 9 * 0x100000 + 0x40010
/-- SEQ_RATE (R47). -/
def seqRate : Nat := 9 * 0x100000 + 0x40014
/-- SEQ_WAIT (R47). -/
def seqWait : Nat := 9 * 0x100000 + 0x40018
/-- SEQ_NBR (R47). -/
def seqNbr : Nat := 9 * 0x100000 + 0x4001C
/-- SEQ_FAULT (R48). -/
def seqFault : Nat := 9 * 0x100000 + 0x40020
/-- SEQ_IRQ (R49). -/
def seqIrq : Nat := 9 * 0x100000 + 0x40024
/-- SEQ_LOSS (R49). -/
def seqLoss : Nat := 9 * 0x100000 + 0x40028
/-- SEQ_TSTEP (R50). -/
def seqTstep (t : Nat) : Nat := tileNode t * 0x100000 + 0x40000
/-- CLU_ID (R90). -/
def cluId (t i : Nat) : Nat := tileNode t * 0x100000 + 0x80000 + 0x800 * i
/-- CLU_MAP (R91). -/
def cluMap (t i : Nat) : Nat := tileNode t * 0x100000 + 0x80004 + 0x800 * i
/-- CLU_STAT (R92). -/
def cluStat (t i : Nat) : Nat := tileNode t * 0x100000 + 0x80008 + 0x800 * i
/-- CLU_FAULT (R93). -/
def cluFault (t i : Nat) : Nat := tileNode t * 0x100000 + 0x8000C + 0x800 * i
/-- CLU_WAITS (R94). -/
def cluWaits (t i : Nat) : Nat := tileNode t * 0x100000 + 0x80010 + 0x800 * i
/-- CLU_ACC_CTRL (R95). -/
def cluAccCtrl (t i : Nat) : Nat := tileNode t * 0x100000 + 0x80020 + 0x800 * i
/-- CLU_ACC_D0 (R96). -/
def cluAccD0 (t i : Nat) : Nat := tileNode t * 0x100000 + 0x80024 + 0x800 * i
/-- CLU_ACC_D1 (R96). -/
def cluAccD1 (t i : Nat) : Nat := tileNode t * 0x100000 + 0x80028 + 0x800 * i
/-- CLU_ACC_D2 (R96). -/
def cluAccD2 (t i : Nat) : Nat := tileNode t * 0x100000 + 0x8002C + 0x800 * i
/-- CLU_ACC_STAT (R97). -/
def cluAccStat (t i : Nat) : Nat := tileNode t * 0x100000 + 0x80030 + 0x800 * i
/-- CLU_CMP_c_CTRL (R509). -/
def cluCmpCtrl (t i j : Nat) : Nat := tileNode t * 0x100000 + 0x80100 + 0x800 * i + 0x10 * j
/-- CLU_CMP_c_VAL (R509). -/
def cluCmpVal (t i j : Nat) : Nat := tileNode t * 0x100000 + 0x80104 + 0x800 * i + 0x10 * j
/-- CLU_CMP_c_MSK (R509). -/
def cluCmpMsk (t i j : Nat) : Nat := tileNode t * 0x100000 + 0x80108 + 0x800 * i + 0x10 * j
/-- CLU_CMP_c_HCYC (R509). -/
def cluCmpHcyc (t i j : Nat) : Nat := tileNode t * 0x100000 + 0x8010C + 0x800 * i + 0x10 * j
/-- CLU_WSTAT (R136). -/
def cluWstat (t i j : Nat) : Nat := tileNode t * 0x100000 + 0x80200 + 0x800 * i + 0x40 * j
/-- CLU_WERR (R137). -/
def cluWerr (t i j : Nat) : Nat := tileNode t * 0x100000 + 0x80204 + 0x800 * i + 0x40 * j
/-- CLU_WCFG (R138). -/
def cluWcfg (t i j : Nat) : Nat := tileNode t * 0x100000 + 0x80208 + 0x800 * i + 0x40 * j
/-- CLU_WACC_CTRL (R139). -/
def cluWaccCtrl (t i j : Nat) : Nat := tileNode t * 0x100000 + 0x80210 + 0x800 * i + 0x40 * j
/-- CLU_WACC_D0 (R140). -/
def cluWaccD0 (t i j : Nat) : Nat := tileNode t * 0x100000 + 0x80214 + 0x800 * i + 0x40 * j
/-- CLU_WACC_D1 (R140). -/
def cluWaccD1 (t i j : Nat) : Nat := tileNode t * 0x100000 + 0x80218 + 0x800 * i + 0x40 * j
/-- CLU_WACC_D2 (R140). -/
def cluWaccD2 (t i j : Nat) : Nat := tileNode t * 0x100000 + 0x8021C + 0x800 * i + 0x40 * j
/-- CLU_WACC_D3 (R140). -/
def cluWaccD3 (t i j : Nat) : Nat := tileNode t * 0x100000 + 0x80220 + 0x800 * i + 0x40 * j
/-- CLU_WACC_STAT (R141). -/
def cluWaccStat (t i j : Nat) : Nat := tileNode t * 0x100000 + 0x80224 + 0x800 * i + 0x40 * j
/-- TILE_LFAULT (R171). -/
def tileLfault (t : Nat) : Nat := tileNode t * 0x100000 + 0x50000
/-- TILE_LFCYC (R172). -/
def tileLfcyc (t : Nat) : Nat := tileNode t * 0x100000 + 0x50004
/-- TILE_GWWAIT (R172). -/
def tileGwwait (t : Nat) : Nat := tileNode t * 0x100000 + 0x50008
/-- TILE_RACC_CTRL (R173). -/
def tileRaccCtrl (t : Nat) : Nat := tileNode t * 0x100000 + 0x50010
/-- TILE_RACC_DATA (R174). -/
def tileRaccData (t : Nat) : Nat := tileNode t * 0x100000 + 0x50014
/-- TILE_RACC_STAT (R174). -/
def tileRaccStat (t : Nat) : Nat := tileNode t * 0x100000 + 0x50018
/-- TILE_PLACE (R202). -/
def tilePlace (t : Nat) : Nat := tileNode t * 0x100000 + 0x50020
/-- TILE_PAD (R203). -/
def tilePad (t : Nat) : Nat := tileNode t * 0x100000 + 0x50024
/-- BNK_OWNER (R225). -/
def bnkOwner (t i : Nat) : Nat := tileNode t * 0x100000 + 0x60000 + 0x40 * i
/-- BNK_STAT (R226). -/
def bnkStat (t i : Nat) : Nat := tileNode t * 0x100000 + 0x60004 + 0x40 * i
/-- BNK_USERS_LO (R227). -/
def bnkUsersLo (t i : Nat) : Nat := tileNode t * 0x100000 + 0x60008 + 0x40 * i
/-- BNK_USERS_HI (R227). -/
def bnkUsersHi (t i : Nat) : Nat := tileNode t * 0x100000 + 0x6000C + 0x40 * i
/-- BNK_ECC (R228). -/
def bnkEcc (t i : Nat) : Nat := tileNode t * 0x100000 + 0x60010 + 0x40 * i
/-- BNK_UEADDR (R228). -/
def bnkUeaddr (t i : Nat) : Nat := tileNode t * 0x100000 + 0x60014 + 0x40 * i
/-- BNK_UECYC (R228). -/
def bnkUecyc (t i : Nat) : Nat := tileNode t * 0x100000 + 0x60018 + 0x40 * i
/-- BNK_WAIT (R226). -/
def bnkWait (t i : Nat) : Nat := tileNode t * 0x100000 + 0x6001C + 0x40 * i
/-- BNK_CTRL (R229). -/
def bnkCtrl (t : Nat) : Nat := tileNode t * 0x100000 + 0x60400
/-- MC_CTRL (R260). -/
def mcCtrl (m : Nat) : Nat := mcNode m * 0x100000 + 0x0
/-- MC_STAT (R260). -/
def mcStat (m : Nat) : Nat := mcNode m * 0x100000 + 0x4
/-- MC_GEOM (R260). -/
def mcGeom (m : Nat) : Nat := mcNode m * 0x100000 + 0x8
/-- MC_PAGE (R261). -/
def mcPage (m : Nat) : Nat := mcNode m * 0x100000 + 0xC
/-- MC_SCHED (R261). -/
def mcSched (m : Nat) : Nat := mcNode m * 0x100000 + 0x10
/-- MC_REF (R261). -/
def mcRef (m : Nat) : Nat := mcNode m * 0x100000 + 0x14
/-- MC_RDP (R261). -/
def mcRdp (m : Nat) : Nat := mcNode m * 0x100000 + 0x18
/-- MC_RDPCNT (R261). -/
def mcRdpcnt (m : Nat) : Nat := mcNode m * 0x100000 + 0x1C
/-- MC_SCRUB (R262). -/
def mcScrub (m : Nat) : Nat := mcNode m * 0x100000 + 0x20
/-- MC_ECC (R262). -/
def mcEcc (m : Nat) : Nat := mcNode m * 0x100000 + 0x24
/-- MC_UEADDR_LO (R262). -/
def mcUeaddrLo (m : Nat) : Nat := mcNode m * 0x100000 + 0x28
/-- MC_UEADDR_HI (R262). -/
def mcUeaddrHi (m : Nat) : Nat := mcNode m * 0x100000 + 0x2C
/-- MC_UECYC (R262). -/
def mcUecyc (m : Nat) : Nat := mcNode m * 0x100000 + 0x30
/-- MC_LINK (R262). -/
def mcLink (m : Nat) : Nat := mcNode m * 0x100000 + 0x34
/-- MC_MIGRATE (R263). -/
def mcMigrate (m : Nat) : Nat := mcNode m * 0x100000 + 0x38
/-- MC_MIGSTAT (R263). -/
def mcMigstat (m : Nat) : Nat := mcNode m * 0x100000 + 0x3C
/-- MC_IRQ (R263). -/
def mcIrq (m : Nat) : Nat := mcNode m * 0x100000 + 0x40
/-- MC_PCMAP_k (R263). -/
def mcPcmap (m i : Nat) : Nat := mcNode m * 0x100000 + 0x100 + 0x4 * i
/-- NOC_CTRL (R293). -/
def nocCtrl : Nat := 9 * 0x100000 + 0x60000
/-- NOC_VREC0 (R293). -/
def nocVrec0 : Nat := 9 * 0x100000 + 0x60004
/-- NOC_VREC1 (R293). -/
def nocVrec1 : Nat := 9 * 0x100000 + 0x60008
/-- NOC_VREC2 (R293). -/
def nocVrec2 : Nat := 9 * 0x100000 + 0x6000C
/-- NOC_UNFREEZE (R294). -/
def nocUnfreeze : Nat := 9 * 0x100000 + 0x60010
/-- NOC_FROZEN (R294). -/
def nocFrozen : Nat := 9 * 0x100000 + 0x60014
/-- NOC_LINK (R294). -/
def nocLink : Nat := 9 * 0x100000 + 0x60018
/-- NOC_CTX_HBM_k (R295). -/
def nocCtxHbm (i : Nat) : Nat := 9 * 0x100000 + 0x61000 + 0x8 * i
/-- NOC_CTX_PERM_k (R295). -/
def nocCtxPerm (i : Nat) : Nat := 9 * 0x100000 + 0x61004 + 0x8 * i
/-- NOC_NODE (R296). -/
def nocNode (n : Nat) : Nat := n * 0x100000 + 0xFF000
/-- NOC_NCNT (R296). -/
def nocNcnt (n : Nat) : Nat := n * 0x100000 + 0xFF004
/-- NOC_LOCK (R296). -/
def nocLock (n : Nat) : Nat := n * 0x100000 + 0xFF008
/-- NOC_MCTX (R296). -/
def nocMctx (t : Nat) : Nat := tileNode t * 0x100000 + 0xFF00C
/-- HP_AP_n (R296). -/
def hpAp (i : Nat) : Nat := 0 * 0x100000 + 0x100 + 0x4 * i
/-- PWR_CTRL (R298). -/
def pwrCtrl : Nat := 94 * 0x100000 + 0x0
/-- PWR_DOM_k (R298). -/
def pwrDom (i : Nat) : Nat := 94 * 0x100000 + 0x100 + 0x8 * i
/-- PWR_CNT_k (R298). -/
def pwrCnt (i : Nat) : Nat := 94 * 0x100000 + 0x104 + 0x8 * i
/-- FAB_CTRL (R341). -/
def fabCtrl : Nat := 9 * 0x100000 + 0x70000
/-- FAB_ID_LO (R341). -/
def fabIdLo : Nat := 9 * 0x100000 + 0x70004
/-- FAB_ID_HI (R341). -/
def fabIdHi : Nat := 9 * 0x100000 + 0x70008
/-- FAB_DSTAT (R342). -/
def fabDstat : Nat := 9 * 0x100000 + 0x7000C
/-- FAB_RT_CTRL (R342). -/
def fabRtCtrl : Nat := 9 * 0x100000 + 0x70010
/-- FAB_TOK (R342). -/
def fabTok : Nat := 9 * 0x100000 + 0x70014
/-- FAB_TOPO_SEL (R343). -/
def fabTopoSel : Nat := 9 * 0x100000 + 0x70020
/-- FAB_TOPO_IDLO (R343). -/
def fabTopoIdlo : Nat := 9 * 0x100000 + 0x70024
/-- FAB_TOPO_IDHI (R343). -/
def fabTopoIdhi : Nat := 9 * 0x100000 + 0x70028
/-- FAB_TOPO_PORT_k (R343). -/
def fabTopoPort (i : Nat) : Nat := 9 * 0x100000 + 0x70040 + 0x4 * i
/-- FAB_RT0_a (R343). -/
def fabRt0 (i : Nat) : Nat := 9 * 0x100000 + 0x72000 + 0x4 * i
/-- FAB_RT1_a (R343). -/
def fabRt1 (i : Nat) : Nat := 9 * 0x100000 + 0x74000 + 0x4 * i
/-- LNK_CTRL (R345). -/
def lnkCtrl (p : Nat) : Nat := portNode p * 0x100000 + 0x0
/-- LNK_STAT (R345). -/
def lnkStat (p : Nat) : Nat := portNode p * 0x100000 + 0x4
/-- LNK_FEC (R345). -/
def lnkFec (p : Nat) : Nat := portNode p * 0x100000 + 0x8
/-- LNK_REPLAY (R345). -/
def lnkReplay (p : Nat) : Nat := portNode p * 0x100000 + 0xC
/-- LNK_HOLD (R345). -/
def lnkHold (p : Nat) : Nat := portNode p * 0x100000 + 0x10
/-- LNK_PEER (R346). -/
def lnkPeer (p : Nat) : Nat := portNode p * 0x100000 + 0x14
/-- LNK_ERR (R346). -/
def lnkErr (p : Nat) : Nat := portNode p * 0x100000 + 0x18
/-- LNK_IRQ (R346). -/
def lnkIrq (p : Nat) : Nat := portNode p * 0x100000 + 0x1C
/-- FAB_RWIN_n_LO (R347). -/
def fabRwinLo (p i : Nat) : Nat := portNode p * 0x100000 + 0x100 + 0x8 * i
/-- FAB_RWIN_n_HI (R347). -/
def fabRwinHi (p i : Nat) : Nat := portNode p * 0x100000 + 0x104 + 0x8 * i
/-- LNK_CHRX_j (R347). -/
def lnkChrx (p i : Nat) : Nat := portNode p * 0x100000 + 0x400 + 0x4 * i
/-- CE_CTRL (R392). -/
def ceCtrl : Nat := 9 * 0x100000 + 0x0
/-- CE_STAT (R392). -/
def ceStat : Nat := 9 * 0x100000 + 0x4
/-- CE_LERR (R393). -/
def ceLerr : Nat := 9 * 0x100000 + 0x8
/-- CE_LFRAME (R393). -/
def ceLframe : Nat := 9 * 0x100000 + 0xC
/-- CE_PROG (R393). -/
def ceProg : Nat := 9 * 0x100000 + 0x10
/-- CE_RETRY (R393). -/
def ceRetry : Nat := 9 * 0x100000 + 0x14
/-- CE_RFRAME (R393). -/
def ceRframe : Nat := 9 * 0x100000 + 0x18
/-- CE_BOOT (R394). -/
def ceBoot : Nat := 9 * 0x100000 + 0x1C
/-- CE_SLOT_s (R394). -/
def ceSlot (i : Nat) : Nat := 9 * 0x100000 + 0x20 + 0x4 * i
/-- CE_IMGID_LO (R394). -/
def ceImgidLo : Nat := 9 * 0x100000 + 0x30
/-- CE_IMGID_HI (R394). -/
def ceImgidHi : Nat := 9 * 0x100000 + 0x34
/-- CE_PGM_CTRL (R395). -/
def cePgmCtrl : Nat := 9 * 0x100000 + 0x40
/-- CE_PGM_SRC_LO (R395). -/
def cePgmSrcLo : Nat := 9 * 0x100000 + 0x44
/-- CE_PGM_SRC_HI (R395). -/
def cePgmSrcHi : Nat := 9 * 0x100000 + 0x48
/-- CE_PGM_CNT (R395). -/
def cePgmCnt : Nat := 9 * 0x100000 + 0x4C
/-- CE_PGM_STAT (R395). -/
def cePgmStat : Nat := 9 * 0x100000 + 0x50
/-- CE_STORE (R396). -/
def ceStore : Nat := 9 * 0x100000 + 0x60
/-- CE_PATROL (R396). -/
def cePatrol : Nat := 9 * 0x100000 + 0x64
/-- CE_KEYSTAT (R396). -/
def ceKeystat : Nat := 9 * 0x100000 + 0x68
/-- DWN_CTRL (R419). -/
def dwnCtrl : Nat := 9 * 0x100000 + 0x90000
/-- DWN_GAP (R419). -/
def dwnGap : Nat := 9 * 0x100000 + 0x90004
/-- DWN_LTMO (R419). -/
def dwnLtmo : Nat := 9 * 0x100000 + 0x90008
/-- DWN_STAT (R419). -/
def dwnStat : Nat := 9 * 0x100000 + 0x9000C
/-- DWN_TIME (R419). -/
def dwnTime : Nat := 9 * 0x100000 + 0x90010
/-- RGN_STAT (R421). -/
def rgnStat (t : Nat) : Nat := tileNode t * 0x100000 + 0x70000
/-- RGN_LEAVE (R421). -/
def rgnLeave (t : Nat) : Nat := tileNode t * 0x100000 + 0x70004
/-- RGN_JOIN (R421). -/
def rgnJoin (t : Nat) : Nat := tileNode t * 0x100000 + 0x70008
/-- RGN_CNT (R421). -/
def rgnCnt (t : Nat) : Nat := tileNode t * 0x100000 + 0x7000C
/-- WLT_STAT (R422). -/
def wltStat (t : Nat) : Nat := tileNode t * 0x100000 + 0x70010
/-- WLT_RACC_CTRL (R422). -/
def wltRaccCtrl (t : Nat) : Nat := tileNode t * 0x100000 + 0x70014
/-- WLT_RDATA (R422). -/
def wltRdata (t : Nat) : Nat := tileNode t * 0x100000 + 0x70018
/-- WLT_LANE_i (R422). -/
def wltLane (t i : Nat) : Nat := tileNode t * 0x100000 + 0x70400 + 0x4 * i
/-- SS_CTRL (R445). -/
def ssCtrl : Nat := 5 * 0x100000 + 0x0
/-- SS_STAT (R445). -/
def ssStat : Nat := 5 * 0x100000 + 0x4
/-- SS_SUBMIT (R445). -/
def ssSubmit : Nat := 5 * 0x100000 + 0x8
/-- SS_CANCEL (R445). -/
def ssCancel : Nat := 5 * 0x100000 + 0xC
/-- SS_ACK (R445). -/
def ssAck : Nat := 5 * 0x100000 + 0x10
/-- SS_ERR (R445). -/
def ssErr : Nat := 5 * 0x100000 + 0x14
/-- SS_TICK_LO (R446). -/
def ssTickLo : Nat := 5 * 0x100000 + 0x18
/-- SS_TICK_HI (R446). -/
def ssTickHi : Nat := 5 * 0x100000 + 0x1C
/-- SS_CNT (R446). -/
def ssCnt : Nat := 5 * 0x100000 + 0x20
/-- SS_ENG_e (R446). -/
def ssEng (i : Nat) : Nat := 5 * 0x100000 + 0x100 + 0x4 * i
/-- SS_DESC_d_w (R446). -/
def ssDesc (i j : Nat) : Nat := 5 * 0x100000 + 0x10000 + 0x40 * i + 0x4 * j
/-- SS_DSTAT_d (R446). -/
def ssDstat (i : Nat) : Nat := 5 * 0x100000 + 0x20000 + 0x4 * i
/-- TT_CTRL (R476). -/
def ttCtrl : Nat := 99 * 0x100000 + 0x0
/-- TT_STAT (R476). -/
def ttStat : Nat := 99 * 0x100000 + 0x4
/-- TT_ERR (R476). -/
def ttErr : Nat := 99 * 0x100000 + 0x8
/-- TT_EQg_CTRL (R477). -/
def ttEqCtrl (i : Nat) : Nat := 99 * 0x100000 + 0x200 + 0x10 * i
/-- TT_EQg_HALT (R477). -/
def ttEqHalt (i : Nat) : Nat := 99 * 0x100000 + 0x204 + 0x10 * i
/-- TT_EQg_FCYC_LO (R477). -/
def ttEqFcycLo (i : Nat) : Nat := 99 * 0x100000 + 0x208 + 0x10 * i
/-- TT_EQg_FCYC_HI (R477). -/
def ttEqFcycHi (i : Nat) : Nat := 99 * 0x100000 + 0x20C + 0x10 * i
/-- TT_STIM_DLO (R479). -/
def ttStimDlo : Nat := 99 * 0x100000 + 0x300
/-- TT_STIM_DHI (R479). -/
def ttStimDhi : Nat := 99 * 0x100000 + 0x304
/-- TT_STIM_KLO (R479). -/
def ttStimKlo : Nat := 99 * 0x100000 + 0x308
/-- TT_STIM_KHI (R479). -/
def ttStimKhi : Nat := 99 * 0x100000 + 0x30C
/-- TT_STIM_CMD (R479). -/
def ttStimCmd : Nat := 99 * 0x100000 + 0x310
/-- TT_Uu_CTRL (R477). -/
def ttUCtrl (i : Nat) : Nat := 99 * 0x100000 + 0x1000 + 0x100 * i
/-- TT_Uu_CNT (R477). -/
def ttUCnt (i : Nat) : Nat := 99 * 0x100000 + 0x1004 + 0x100 * i
/-- TT_Uu_VAL_LO (R477). -/
def ttUValLo (i : Nat) : Nat := 99 * 0x100000 + 0x1008 + 0x100 * i
/-- TT_Uu_VAL_HI (R477). -/
def ttUValHi (i : Nat) : Nat := 99 * 0x100000 + 0x100C + 0x100 * i
/-- TT_Uu_MSK_LO (R477). -/
def ttUMskLo (i : Nat) : Nat := 99 * 0x100000 + 0x1010 + 0x100 * i
/-- TT_Uu_MSK_HI (R477). -/
def ttUMskHi (i : Nat) : Nat := 99 * 0x100000 + 0x1014 + 0x100 * i
/-- TT_Uu_FCYC_LO (R477). -/
def ttUFcycLo (i : Nat) : Nat := 99 * 0x100000 + 0x1018 + 0x100 * i
/-- TT_Uu_FCYC_HI (R477). -/
def ttUFcycHi (i : Nat) : Nat := 99 * 0x100000 + 0x101C + 0x100 * i
/-- TT_Uu_SEL_i (R477). -/
def ttUSel (i j : Nat) : Nat := 99 * 0x100000 + 0x1040 + 0x100 * i + 0x4 * j
/-- TT_Sn_CTRL (R478). -/
def ttSCtrl (i : Nat) : Nat := 99 * 0x100000 + 0x2000 + 0x100 * i
/-- TT_Sn_CH (R478). -/
def ttSCh (i : Nat) : Nat := 99 * 0x100000 + 0x2004 + 0x100 * i
/-- TT_Sn_RB_LO (R478). -/
def ttSRbLo (i : Nat) : Nat := 99 * 0x100000 + 0x2008 + 0x100 * i
/-- TT_Sn_RB_HI (R478). -/
def ttSRbHi (i : Nat) : Nat := 99 * 0x100000 + 0x200C + 0x100 * i
/-- TT_Sn_RSIZE (R478). -/
def ttSRsize (i : Nat) : Nat := 99 * 0x100000 + 0x2010 + 0x100 * i
/-- TT_Sn_WR (R478). -/
def ttSWr (i : Nat) : Nat := 99 * 0x100000 + 0x2014 + 0x100 * i
/-- TT_Sn_RD (R478). -/
def ttSRd (i : Nat) : Nat := 99 * 0x100000 + 0x2018 + 0x100 * i
/-- TT_Sn_KEY_LO (R478). -/
def ttSKeyLo (i : Nat) : Nat := 99 * 0x100000 + 0x201C + 0x100 * i
/-- TT_Sn_KEY_HI (R478). -/
def ttSKeyHi (i : Nat) : Nat := 99 * 0x100000 + 0x2020 + 0x100 * i
/-- TT_Sn_CMD (R478). -/
def ttSCmd (i : Nat) : Nat := 99 * 0x100000 + 0x2024 + 0x100 * i
/-- TT_Sn_CNT (R478). -/
def ttSCnt (i : Nat) : Nat := 99 * 0x100000 + 0x2028 + 0x100 * i
/-- TT_Sn_FIFO (R478). -/
def ttSFifo (i : Nat) : Nat := 99 * 0x100000 + 0x202C + 0x100 * i
/-- TT_Sn_FSINK (R478). -/
def ttSFsink (i : Nat) : Nat := 99 * 0x100000 + 0x2030 + 0x100 * i
/-- TT_Pp_CFG (R479). -/
def ttPCfg (i : Nat) : Nat := 99 * 0x100000 + 0x3000 + 0x10 * i
/-- TT_Pp_DBASE (R479). -/
def ttPDbase (i : Nat) : Nat := 99 * 0x100000 + 0x3004 + 0x10 * i
/-- TT_Pp_DADDR_LO (R479). -/
def ttPDaddrLo (i : Nat) : Nat := 99 * 0x100000 + 0x3008 + 0x10 * i
/-- TT_Pp_DADDR_HI (R479). -/
def ttPDaddrHi (i : Nat) : Nat := 99 * 0x100000 + 0x300C + 0x10 * i
/-- TT_TCH_j (R479). -/
def ttTch (i : Nat) : Nat := 99 * 0x100000 + 0x10000 + 0x4 * i
/-- TT_PRB_k_LO (R479). -/
def ttPrbLo (t i : Nat) : Nat := tileNode t * 0x100000 + 0xE0000 + 0x8 * i
/-- TT_PRB_k_HI (R479). -/
def ttPrbHi (t i : Nat) : Nat := tileNode t * 0x100000 + 0xE0004 + 0x8 * i
/-- DBG_CTRL (R508). -/
def dbgCtrl : Nat := 90 * 0x100000 + 0x0
/-- DBG_STAT (R508). -/
def dbgStat : Nat := 90 * 0x100000 + 0x4
/-- DBG_RUN (R508). -/
def dbgRun : Nat := 90 * 0x100000 + 0x8
/-- DBG_HPT_LO (R508). -/
def dbgHptLo : Nat := 90 * 0x100000 + 0xC
/-- DBG_HPT_HI (R508). -/
def dbgHptHi : Nat := 90 * 0x100000 + 0x10
/-- DBG_HCYC_LO (R508). -/
def dbgHcycLo : Nat := 90 * 0x100000 + 0x14
/-- DBG_HCYC_HI (R508). -/
def dbgHcycHi : Nat := 90 * 0x100000 + 0x18
/-- DBG_LKBRK (R508). -/
def dbgLkbrk : Nat := 90 * 0x100000 + 0x1C
/-- DBG_AWL (R508). -/
def dbgAwl : Nat := 90 * 0x100000 + 0x20
/-- DBG_AUTH (R508). -/
def dbgAuth : Nat := 90 * 0x100000 + 0x80
/-- DBG_FUSE_CTRL (R508). -/
def dbgFuseCtrl : Nat := 90 * 0x100000 + 0xA0
/-- DBG_FUSE_DATA (R508). -/
def dbgFuseData : Nat := 90 * 0x100000 + 0xA4
/-- DBG_CHAL_i (R508). -/
def dbgChal (i : Nat) : Nat := 90 * 0x100000 + 0x40 + 0x4 * i
/-- DBG_RESP_i (R508). -/
def dbgResp (i : Nat) : Nat := 90 * 0x100000 + 0x60 + 0x4 * i
/-- DBG_RU_r_CTRL (R510). -/
def dbgRuCtrl (t i : Nat) : Nat := tileNode t * 0x100000 + 0xD0000 + 0x20 * i
/-- DBG_RU_r_LO_L (R510). -/
def dbgRuLoL (t i : Nat) : Nat := tileNode t * 0x100000 + 0xD0004 + 0x20 * i
/-- DBG_RU_r_LO_H (R510). -/
def dbgRuLoH (t i : Nat) : Nat := tileNode t * 0x100000 + 0xD0008 + 0x20 * i
/-- DBG_RU_r_HI_L (R510). -/
def dbgRuHiL (t i : Nat) : Nat := tileNode t * 0x100000 + 0xD000C + 0x20 * i
/-- DBG_RU_r_HI_H (R510). -/
def dbgRuHiH (t i : Nat) : Nat := tileNode t * 0x100000 + 0xD0010 + 0x20 * i
/-- DBG_RU_r_HINFO (R510). -/
def dbgRuHinfo (t i : Nat) : Nat := tileNode t * 0x100000 + 0xD0014 + 0x20 * i
/-- DBG_RU_r_HADDR (R510). -/
def dbgRuHaddr (t i : Nat) : Nat := tileNode t * 0x100000 + 0xD0018 + 0x20 * i
/-- DBG_RU_r_HCYC (R510). -/
def dbgRuHcyc (t i : Nat) : Nat := tileNode t * 0x100000 + 0xD001C + 0x20 * i
/-- WDG_CTRL (R511). -/
def wdgCtrl : Nat := 90 * 0x100000 + 0x100
/-- WDG_STALL (R511). -/
def wdgStall : Nat := 90 * 0x100000 + 0x104
/-- WDG_HB (R511). -/
def wdgHb : Nat := 90 * 0x100000 + 0x108
/-- WDG_KICK (R511). -/
def wdgKick : Nat := 90 * 0x100000 + 0x10C
/-- WDG_STAT (R511). -/
def wdgStat : Nat := 90 * 0x100000 + 0x110
/-- WDG_STREM (R511). -/
def wdgStrem : Nat := 90 * 0x100000 + 0x114
/-- TIO_CTRL (R531). -/
def tioCtrl : Nat := 50 * 0x100000 + 0x0
/-- TIO_STAT (R531). -/
def tioStat : Nat := 50 * 0x100000 + 0x4
/-- TIO_CAD_CTRL (R533). -/
def tioCadCtrl : Nat := 50 * 0x100000 + 0x10
/-- TIO_CAD_PER (R533). -/
def tioCadPer : Nat := 50 * 0x100000 + 0x14
/-- TIO_CAD_STAT (R533). -/
def tioCadStat : Nat := 50 * 0x100000 + 0x18
/-- TIO_REC_RB_LO (R530). -/
def tioRecRbLo : Nat := 50 * 0x100000 + 0x20
/-- TIO_REC_RB_HI (R530). -/
def tioRecRbHi : Nat := 50 * 0x100000 + 0x24
/-- TIO_REC_RSIZE (R530). -/
def tioRecRsize : Nat := 50 * 0x100000 + 0x28
/-- TIO_REC_WR (R530). -/
def tioRecWr : Nat := 50 * 0x100000 + 0x2C
/-- TIO_REC_RD (R530). -/
def tioRecRd : Nat := 50 * 0x100000 + 0x30
/-- TIO_REC_CTRL (R533). -/
def tioRecCtrl : Nat := 50 * 0x100000 + 0x34
/-- TIO_REC_STAT (R533). -/
def tioRecStat : Nat := 50 * 0x100000 + 0x38
/-- TIO_BANK_b (R531). -/
def tioBank (i : Nat) : Nat := 50 * 0x100000 + 0x100 + 0x4 * i
/-- TIO_PIN_p (R532). -/
def tioPin (i : Nat) : Nat := 50 * 0x100000 + 0x1000 + 0x10 * i
/-- TIO_PSRC_p (R532). -/
def tioPsrc (i : Nat) : Nat := 50 * 0x100000 + 0x1004 + 0x10 * i
/-- TIO_PDST_p (R532). -/
def tioPdst (i : Nat) : Nat := 50 * 0x100000 + 0x1008 + 0x10 * i
/-- TIO_TDC_p (R532). -/
def tioTdc (i : Nat) : Nat := 50 * 0x100000 + 0x100C + 0x10 * i
/-- MODE_CTRL (R561). -/
def modeCtrl : Nat := 94 * 0x100000 + 0x10000
/-- MODE_STAT (R561). -/
def modeStat : Nat := 94 * 0x100000 + 0x10004
/-- MODE_PLIM (R561). -/
def modePlim : Nat := 94 * 0x100000 + 0x10008
/-- MODE_TLIM (R561). -/
def modeTlim : Nat := 94 * 0x100000 + 0x1000C
/-- MODE_ECOMASK (R561). -/
def modeEcomask : Nat := 94 * 0x100000 + 0x10010
/-- MODE_CKB0_LO (R561). -/
def modeCkb0Lo : Nat := 94 * 0x100000 + 0x10020
/-- MODE_CKB0_HI (R561). -/
def modeCkb0Hi : Nat := 94 * 0x100000 + 0x10024
/-- MODE_CKB1_LO (R561). -/
def modeCkb1Lo : Nat := 94 * 0x100000 + 0x10028
/-- MODE_CKB1_HI (R561). -/
def modeCkb1Hi : Nat := 94 * 0x100000 + 0x1002C
/-- MODE_CKLAST_LO (R561). -/
def modeCklastLo : Nat := 94 * 0x100000 + 0x10030
/-- MODE_CKLAST_HI (R561). -/
def modeCklastHi : Nat := 94 * 0x100000 + 0x10034
/-- MODE_FRB_LO (R561). -/
def modeFrbLo : Nat := 94 * 0x100000 + 0x10040
/-- MODE_FRB_HI (R561). -/
def modeFrbHi : Nat := 94 * 0x100000 + 0x10044
/-- MODE_FRSIZE (R561). -/
def modeFrsize : Nat := 94 * 0x100000 + 0x10048
/-- SPR_CTRL (R563). -/
def sprCtrl : Nat := 94 * 0x100000 + 0x20000
/-- SPR_STAT (R563). -/
def sprStat : Nat := 94 * 0x100000 + 0x20004
/-- SPR_GRADE (R563). -/
def sprGrade : Nat := 94 * 0x100000 + 0x20008
/-- SPR_MAPGEN (R563). -/
def sprMapgen : Nat := 94 * 0x100000 + 0x2000C
/-- SPR_MARK (R563). -/
def sprMark : Nat := 94 * 0x100000 + 0x20010
/-- SPR_USED0 (R563). -/
def sprUsed0 : Nat := 94 * 0x100000 + 0x20014
/-- SPR_USED1 (R563). -/
def sprUsed1 : Nat := 94 * 0x100000 + 0x20018
/-- SPR_LG_WR (R563). -/
def sprLgWr : Nat := 94 * 0x100000 + 0x20020
/-- SPR_LG_RD (R563). -/
def sprLgRd : Nat := 94 * 0x100000 + 0x20024
/-- SPR_LG_LOST (R563). -/
def sprLgLost : Nat := 94 * 0x100000 + 0x20028
/-- SPR_AGE_k (R563). -/
def sprAge (i : Nat) : Nat := 94 * 0x100000 + 0x20100 + 0x4 * i
/-- SPR_LG_e_w (R562). -/
def sprLg (i j : Nat) : Nat := 94 * 0x100000 + 0x40000 + 0x20 * i + 0x4 * j

end Reg

def rowsCe0 : List RegRow := [
  ⟨0x40000, [], 0x0, 0x0, 0x0, 0x12, 0x0, 0x1F00, 0x10, some (0x40000, 1)⟩,  -- SEQ_CTRL
  ⟨0x40004, [], 0x0, 0x0, 0x0, 0x0, 0x0, 0x0, 0x0, none⟩,  -- SEQ_STAT
  ⟨0x40008, [], 0x0, 0x0, 0x0, 0x0, 0x0, 0x0, 0x0, none⟩,  -- SEQ_CYCLE_LO
  ⟨0x4000C, [], 0x0, 0x0, 0x0, 0x0, 0x0, 0x0, 0x0, none⟩,  -- SEQ_CYCLE_HI
  ⟨0x40010, [], 0x0, 0x0, 0x0, 0x0, 0x0, 0x0, 0x0, none⟩,  -- SEQ_HOLD
  ⟨0x40014, [], 0x0, 0x0, 0x0, 0x0, 0x0, 0x0, 0x0, none⟩,  -- SEQ_RATE
  ⟨0x40018, [], 0x0, 0x0, 0xFFFFFFFF, 0x0, 0x0, 0x0, 0x0, none⟩,  -- SEQ_WAIT
  ⟨0x4001C, [], 0x0, 0x0, 0x0, 0x0, 0x0, 0xFFF, 0x0, none⟩,  -- SEQ_NBR
  ⟨0x40020, [], 0x0, 0x3F, 0x0, 0x0, 0x0, 0x0, 0x0, none⟩,  -- SEQ_FAULT
  ⟨0x40024, [], 0x3F, 0x0, 0x0, 0x0, 0x0, 0x0, 0x0, none⟩,  -- SEQ_IRQ
  ⟨0x40028, [], 0x0, 0x3F, 0x0, 0x0, 0x0, 0x0, 0x0, none⟩,  -- SEQ_LOSS
  ⟨0x60000, [], 0x0, 0x0, 0x0, 0x1FFFF, 0x0, 0x0, 0x40, some (0x60000, 16)⟩,  -- NOC_CTRL
  ⟨0x60004, [], 0x0, 0x80000000, 0x0, 0x0, 0x0, 0x0, 0x0, none⟩,  -- NOC_VREC0
  ⟨0x60008, [], 0x0, 0x0, 0x0, 0x0, 0x0, 0x0, 0x0, none⟩,  -- NOC_VREC1
  ⟨0x6000C, [], 0x0, 0x0, 0x0, 0x0, 0x0, 0x0, 0x0, none⟩,  -- NOC_VREC2
  ⟨0x60010, [], 0x7FFFE000, 0x0, 0x0, 0x0, 0x80001000, 0x0, 0x0, none⟩  -- NOC_UNFREEZE
]
def rowsCe1 : List RegRow := [
  ⟨0x60014, [], 0x0, 0x0, 0x0, 0x0, 0x0, 0x0, 0x0, none⟩,  -- NOC_FROZEN
  ⟨0x60018, [], 0x0, 0x0, 0xFFFFFFFF, 0x0, 0x0, 0x0, 0x0, none⟩,  -- NOC_LINK
  ⟨0x61000, [(64, 0x8)], 0x0, 0x0, 0x0, 0x1FFF1FFF, 0x0, 0x0, 0x0, some (0x60000, 16)⟩,  -- NOC_CTX_HBM_k
  ⟨0x61004, [(64, 0x8)], 0x0, 0x0, 0x0, 0x80000007, 0x0, 0x0, 0x0, some (0x60000, 16)⟩,  -- NOC_CTX_PERM_k
  ⟨0x70000, [], 0x18000000, 0x0, 0x0, 0x603F0000, 0x80000000, 0x0, 0x0, some (0x70000, 29)⟩,  -- FAB_CTRL
  ⟨0x70004, [], 0x0, 0x0, 0x0, 0x0, 0x0, 0x0, 0x0, none⟩,  -- FAB_ID_LO
  ⟨0x70008, [], 0x0, 0x0, 0x0, 0x0, 0x0, 0x0, 0x0, none⟩,  -- FAB_ID_HI
  ⟨0x7000C, [], 0x0, 0x0, 0x0, 0x0, 0x0, 0x0, 0x0, none⟩,  -- FAB_DSTAT
  ⟨0x70010, [], 0x0, 0x20000000, 0x0, 0x0, 0x80000000, 0x0, 0x0, none⟩,  -- FAB_RT_CTRL
  ⟨0x70014, [], 0x0, 0x40000000, 0x0, 0x0, 0x0, 0x0, 0x0, none⟩,  -- FAB_TOK
  ⟨0x70020, [], 0x7FF, 0x0, 0x0, 0x0, 0x0, 0x0, 0x0, none⟩,  -- FAB_TOPO_SEL
  ⟨0x70024, [], 0x0, 0x0, 0x0, 0x0, 0x0, 0x0, 0x0, none⟩,  -- FAB_TOPO_IDLO
  ⟨0x70028, [], 0x0, 0x0, 0x0, 0x0, 0x0, 0x0, 0x0, none⟩,  -- FAB_TOPO_IDHI
  ⟨0x70040, [(8, 0x4)], 0x0, 0x0, 0x0, 0x0, 0x0, 0x0, 0x0, none⟩,  -- FAB_TOPO_PORT_k
  ⟨0x72000, [(2048, 0x4)], 0xC0000077, 0x0, 0x0, 0x0, 0x0, 0x0, 0x0, none⟩,  -- FAB_RT0_a
  ⟨0x74000, [(2048, 0x4)], 0xC0000077, 0x0, 0x0, 0x0, 0x0, 0x0, 0x0, none⟩  -- FAB_RT1_a
]
def rowsCe2 : List RegRow := [
  ⟨0x0, [], 0x6000000E, 0x0, 0x0, 0x81, 0x90000000, 0x0, 0x0, some (0x0, 0)⟩,  -- CE_CTRL
  ⟨0x4, [], 0x0, 0x0, 0x0, 0x0, 0x0, 0x0, 0x0, none⟩,  -- CE_STAT
  ⟨0x8, [], 0x0, 0x80000000, 0x0, 0x0, 0x0, 0x0, 0x0, none⟩,  -- CE_LERR
  ⟨0xC, [], 0x0, 0x0, 0x0, 0x0, 0x0, 0x0, 0x0, none⟩,  -- CE_LFRAME
  ⟨0x10, [], 0x0, 0x0, 0x0, 0x0, 0x0, 0x0, 0x0, none⟩,  -- CE_PROG
  ⟨0x14, [], 0x0, 0x0, 0xFFFF, 0x0, 0x0, 0x0, 0x0, none⟩,  -- CE_RETRY
  ⟨0x18, [], 0x0, 0x0, 0x0, 0x0, 0x0, 0x0, 0x0, none⟩,  -- CE_RFRAME
  ⟨0x1C, [], 0x0, 0x0, 0x0, 0x1, 0x0, 0x0, 0x0, some (0x0, 0)⟩,  -- CE_BOOT
  ⟨0x20, [(4, 0x4)], 0x0, 0x0, 0x0, 0x0, 0x0, 0x0, 0x0, none⟩,  -- CE_SLOT_s
  ⟨0x30, [], 0x0, 0x0, 0x0, 0x0, 0x0, 0x0, 0x0, none⟩,  -- CE_IMGID_LO
  ⟨0x34, [], 0x0, 0x0, 0x0, 0x0, 0x0, 0x0, 0x0, none⟩,  -- CE_IMGID_HI
  ⟨0x40, [], 0x7C7FFFFF, 0x0, 0x0, 0x0, 0x80000000, 0x0, 0x0, none⟩,  -- CE_PGM_CTRL
  ⟨0x44, [], 0xFFFFFFFF, 0x0, 0x0, 0x0, 0x0, 0x0, 0x0, none⟩,  -- CE_PGM_SRC_LO
  ⟨0x48, [], 0xFFFFFFFF, 0x0, 0x0, 0x0, 0x0, 0x0, 0x0, none⟩,  -- CE_PGM_SRC_HI
  ⟨0x4C, [], 0x7FFFFF, 0x0, 0x0, 0x0, 0x0, 0x0, 0x0, none⟩,  -- CE_PGM_CNT
  ⟨0x50, [], 0x0, 0x60000000, 0x0, 0x0, 0x0, 0x0, 0x0, none⟩  -- CE_PGM_STAT
]
def rowsCe3 : List RegRow := [
  ⟨0x60, [], 0x0, 0x0, 0x0, 0x0, 0x0, 0x0, 0x0, none⟩,  -- CE_STORE
  ⟨0x64, [], 0x0, 0x0, 0xFFFF0000, 0x0, 0x0, 0x0, 0x0, none⟩,  -- CE_PATROL
  ⟨0x68, [], 0x0, 0x0, 0x0, 0x0, 0x0, 0x0, 0x0, none⟩,  -- CE_KEYSTAT
  ⟨0x90000, [], 0x1FE, 0x0, 0x0, 0x1, 0xC0000000, 0x0, 0x36, some (0x90000, 0)⟩,  -- DWN_CTRL
  ⟨0x90004, [], 0x3FFFFFFF, 0x0, 0x0, 0x0, 0x0, 0x0, 0x0, none⟩,  -- DWN_GAP
  ⟨0x90008, [], 0xFF, 0x0, 0x0, 0x0, 0x0, 0x0, 0x14, none⟩,  -- DWN_LTMO
  ⟨0x9000C, [], 0x0, 0x0, 0x0, 0x0, 0x0, 0x0, 0x0, none⟩,  -- DWN_STAT
  ⟨0x90010, [], 0x0, 0x0, 0x0, 0x0, 0x0, 0x0, 0x0, none⟩  -- DWN_TIME
]
/-- The registers of a window of kind CE. -/
def rowsCe : List RegRow := rowsCe0 ++ rowsCe1 ++ rowsCe2 ++ rowsCe3

def rowsTile0 : List RegRow := [
  ⟨0x40000, [], 0x0, 0x0, 0x0, 0x0, 0x0, 0x0, 0x0, none⟩,  -- SEQ_TSTEP
  ⟨0x80000, [(72, 0x800)], 0x0, 0x0, 0x0, 0x0, 0x0, 0x3F80, 0x0, none⟩,  -- CLU_ID
  ⟨0x80004, [(72, 0x800)], 0x0, 0x0, 0x0, 0x0, 0x0, 0x0, 0x4870A0C0, none⟩,  -- CLU_MAP
  ⟨0x80008, [(72, 0x800)], 0x0, 0x0, 0x0, 0x0, 0x0, 0x0, 0x0, none⟩,  -- CLU_STAT
  ⟨0x8000C, [(72, 0x800)], 0x0, 0xE0000000, 0x0, 0x0, 0x0, 0x0, 0x0, none⟩,  -- CLU_FAULT
  ⟨0x80010, [(72, 0x800)], 0x0, 0x0, 0xFFFFFFFF, 0x0, 0x0, 0x0, 0x0, none⟩,  -- CLU_WAITS
  ⟨0x80020, [(72, 0x800)], 0x7FF003FF, 0x0, 0x0, 0x0, 0x80000000, 0x0, 0x0, none⟩,  -- CLU_ACC_CTRL
  ⟨0x80024, [(72, 0x800)], 0xFFFFFFFF, 0x0, 0x0, 0x0, 0x0, 0x0, 0x0, none⟩,  -- CLU_ACC_D0
  ⟨0x80028, [(72, 0x800)], 0xFFFFFFFF, 0x0, 0x0, 0x0, 0x0, 0x0, 0x0, none⟩,  -- CLU_ACC_D1
  ⟨0x8002C, [(72, 0x800)], 0xFFFF, 0x0, 0x0, 0x0, 0x0, 0x0, 0x0, none⟩,  -- CLU_ACC_D2
  ⟨0x80030, [(72, 0x800)], 0x0, 0x4, 0x0, 0x0, 0x0, 0x0, 0x0, none⟩,  -- CLU_ACC_STAT
  ⟨0x80100, [(72, 0x800), (8, 0x10)], 0xFB800000, 0x4000000, 0x0, 0x0, 0x0, 0x0, 0x2000000, none⟩,  -- CLU_CMP_c_CTRL
  ⟨0x80104, [(72, 0x800), (8, 0x10)], 0xFFFFFFFF, 0x0, 0x0, 0x0, 0x0, 0x0, 0x0, none⟩,  -- CLU_CMP_c_VAL
  ⟨0x80108, [(72, 0x800), (8, 0x10)], 0xFFFFFFFF, 0x0, 0x0, 0x0, 0x0, 0x0, 0x0, none⟩,  -- CLU_CMP_c_MSK
  ⟨0x8010C, [(72, 0x800), (8, 0x10)], 0x0, 0x0, 0x0, 0x0, 0x0, 0x0, 0x0, none⟩,  -- CLU_CMP_c_HCYC
  ⟨0x80200, [(72, 0x800), (5, 0x40)], 0x0, 0x40000000, 0x0, 0x0, 0x0, 0x0, 0x0, none⟩  -- CLU_WSTAT
]
def rowsTile1 : List RegRow := [
  ⟨0x80204, [(72, 0x800), (5, 0x40)], 0x0, 0x0, 0xFFFF, 0x0, 0x0, 0x0, 0x0, none⟩,  -- CLU_WERR
  ⟨0x80208, [(72, 0x800), (5, 0x40)], 0x0, 0x0, 0x0, 0x0, 0x0, 0x0, 0x3, none⟩,  -- CLU_WCFG
  ⟨0x80210, [(72, 0x800), (5, 0x40)], 0x780000FF, 0x0, 0x0, 0x0, 0x80000000, 0x0, 0x0, none⟩,  -- CLU_WACC_CTRL
  ⟨0x80214, [(72, 0x800), (5, 0x40)], 0xFFFFFFFF, 0x0, 0x0, 0x0, 0x0, 0x0, 0x0, none⟩,  -- CLU_WACC_D0
  ⟨0x80218, [(72, 0x800), (5, 0x40)], 0xFFFFFFFF, 0x0, 0x0, 0x0, 0x0, 0x0, 0x0, none⟩,  -- CLU_WACC_D1
  ⟨0x8021C, [(72, 0x800), (5, 0x40)], 0xFFFFFFFF, 0x0, 0x0, 0x0, 0x0, 0x0, 0x0, none⟩,  -- CLU_WACC_D2
  ⟨0x80220, [(72, 0x800), (5, 0x40)], 0xFFFFFFFF, 0x0, 0x0, 0x0, 0x0, 0x0, 0x0, none⟩,  -- CLU_WACC_D3
  ⟨0x80224, [(72, 0x800), (5, 0x40)], 0x0, 0x4, 0x0, 0x0, 0x0, 0x0, 0x0, none⟩,  -- CLU_WACC_STAT
  ⟨0x50000, [], 0x0, 0x80000000, 0x0, 0x0, 0x0, 0x0, 0x0, none⟩,  -- TILE_LFAULT
  ⟨0x50004, [], 0x0, 0x0, 0x0, 0x0, 0x0, 0x0, 0x0, none⟩,  -- TILE_LFCYC
  ⟨0x50008, [], 0x0, 0x0, 0xFFFFFFFF, 0x0, 0x0, 0x0, 0x0, none⟩,  -- TILE_GWWAIT
  ⟨0x50010, [], 0x7FFFFFFF, 0x0, 0x0, 0x0, 0x80000000, 0x0, 0x0, none⟩,  -- TILE_RACC_CTRL
  ⟨0x50014, [], 0xFFFF, 0x0, 0x0, 0x0, 0x0, 0x0, 0x0, none⟩,  -- TILE_RACC_DATA
  ⟨0x50018, [], 0x0, 0x4, 0x0, 0x0, 0x0, 0x0, 0x0, none⟩,  -- TILE_RACC_STAT
  ⟨0x50020, [], 0x0, 0x0, 0x0, 0x0, 0x0, 0x0, 0x800000, none⟩,  -- TILE_PLACE
  ⟨0x50024, [], 0x0, 0x0, 0x0, 0x0, 0x0, 0x0, 0x0, none⟩  -- TILE_PAD
]
def rowsTile2 : List RegRow := [
  ⟨0x60000, [(16, 0x40)], 0x40F70000, 0x0, 0x0, 0x0, 0x80000000, 0x7, 0x20002, none⟩,  -- BNK_OWNER
  ⟨0x60004, [(16, 0x40)], 0x0, 0xC0000000, 0x0, 0x0, 0x0, 0x0, 0x0, none⟩,  -- BNK_STAT
  ⟨0x60008, [(16, 0x40)], 0x0, 0x0, 0x0, 0x0, 0x0, 0xFFFFFFFF, 0x0, none⟩,  -- BNK_USERS_LO
  ⟨0x6000C, [(16, 0x40)], 0x0, 0x0, 0x0, 0x0, 0x0, 0xFFFFFFFF, 0x0, none⟩,  -- BNK_USERS_HI
  ⟨0x60010, [(16, 0x40)], 0x0, 0x0, 0xFFFFFF00, 0x0, 0x0, 0x0, 0x0, none⟩,  -- BNK_ECC
  ⟨0x60014, [(16, 0x40)], 0x0, 0x80000000, 0x0, 0x0, 0x0, 0x0, 0x0, none⟩,  -- BNK_UEADDR
  ⟨0x60018, [(16, 0x40)], 0x0, 0x0, 0x0, 0x0, 0x0, 0x0, 0x0, none⟩,  -- BNK_UECYC
  ⟨0x6001C, [(16, 0x40)], 0x0, 0x0, 0xFFFF, 0x0, 0x0, 0x0, 0x0, none⟩,  -- BNK_WAIT
  ⟨0x60400, [], 0xFF06, 0x0, 0x0, 0x1, 0x0, 0x0, 0xA00, some (0x60400, 0)⟩,  -- BNK_CTRL
  ⟨0xFF00C, [], 0x0, 0x0, 0x0, 0x0, 0x0, 0x3F, 0x0, none⟩,  -- NOC_MCTX
  ⟨0x70000, [], 0x0, 0x8000000, 0x0, 0x0, 0x0, 0x0, 0x0, none⟩,  -- RGN_STAT
  ⟨0x70004, [], 0x0, 0x0, 0x0, 0x0, 0x0, 0x0, 0x0, none⟩,  -- RGN_LEAVE
  ⟨0x70008, [], 0x0, 0x0, 0x0, 0x0, 0x0, 0x0, 0x0, none⟩,  -- RGN_JOIN
  ⟨0x7000C, [], 0x0, 0x0, 0xFFFFFFFF, 0x0, 0x0, 0x0, 0x0, none⟩,  -- RGN_CNT
  ⟨0x70010, [], 0x0, 0x0, 0xFFFF, 0x0, 0x0, 0x0, 0x0, none⟩,  -- WLT_STAT
  ⟨0x70014, [], 0x7F8003FF, 0x0, 0x0, 0x0, 0x80000000, 0x0, 0x0, none⟩  -- WLT_RACC_CTRL
]
def rowsTile3 : List RegRow := [
  ⟨0x70018, [], 0x0, 0x0, 0x0, 0x0, 0x0, 0x0, 0x0, none⟩,  -- WLT_RDATA
  ⟨0x70400, [(144, 0x4)], 0x0, 0x0, 0x0, 0x0, 0x0, 0xFFC00000, 0x80000000, none⟩,  -- WLT_LANE_i
  ⟨0xE0000, [(4096, 0x8)], 0xFFFFFF80, 0x0, 0x0, 0x0, 0x0, 0x0, 0x0, none⟩,  -- TT_PRB_k_LO
  ⟨0xE0004, [(4096, 0x8)], 0x3FFFFFF, 0x0, 0x0, 0x0, 0x0, 0x0, 0x0, none⟩,  -- TT_PRB_k_HI
  ⟨0xD0000, [(8, 0x20)], 0xFFFF0000, 0x8000, 0x0, 0x0, 0x0, 0x0, 0x18000000, none⟩,  -- DBG_RU_r_CTRL
  ⟨0xD0004, [(8, 0x20)], 0xFFFFFFFF, 0x0, 0x0, 0x0, 0x0, 0x0, 0x0, none⟩,  -- DBG_RU_r_LO_L
  ⟨0xD0008, [(8, 0x20)], 0xFFFF, 0x0, 0x0, 0x0, 0x0, 0x0, 0x0, none⟩,  -- DBG_RU_r_LO_H
  ⟨0xD000C, [(8, 0x20)], 0xFFFFFFFF, 0x0, 0x0, 0x0, 0x0, 0x0, 0x0, none⟩,  -- DBG_RU_r_HI_L
  ⟨0xD0010, [(8, 0x20)], 0xFFFF, 0x0, 0x0, 0x0, 0x0, 0x0, 0x0, none⟩,  -- DBG_RU_r_HI_H
  ⟨0xD0014, [(8, 0x20)], 0x0, 0x0, 0x0, 0x0, 0x0, 0x0, 0x0, none⟩,  -- DBG_RU_r_HINFO
  ⟨0xD0018, [(8, 0x20)], 0x0, 0x0, 0x0, 0x0, 0x0, 0x0, 0x0, none⟩,  -- DBG_RU_r_HADDR
  ⟨0xD001C, [(8, 0x20)], 0x0, 0x0, 0x0, 0x0, 0x0, 0x0, 0x0, none⟩  -- DBG_RU_r_HCYC
]
/-- The registers of a window of kind TILE. -/
def rowsTile : List RegRow := rowsTile0 ++ rowsTile1 ++ rowsTile2 ++ rowsTile3

def rowsMc0 : List RegRow := [
  ⟨0x0, [], 0x0, 0x0, 0x0, 0x3, 0x0, 0x4, 0x2, some (0x0, 0)⟩,  -- MC_CTRL
  ⟨0x4, [], 0x0, 0x0, 0x0, 0x0, 0x0, 0x0, 0x1, none⟩,  -- MC_STAT
  ⟨0x8, [], 0x0, 0x0, 0x0, 0x0, 0x0, 0x0, 0x0, none⟩,  -- MC_GEOM
  ⟨0xC, [], 0x1FF, 0x0, 0x0, 0x0, 0x0, 0x0, 0x14, none⟩,  -- MC_PAGE
  ⟨0x10, [], 0xFFFF, 0x0, 0x0, 0x0, 0x0, 0x0, 0x3E8, none⟩,  -- MC_SCHED
  ⟨0x14, [], 0x0, 0x0, 0xFFFFFFFF, 0x0, 0x0, 0x0, 0x0, none⟩,  -- MC_REF
  ⟨0x18, [], 0x0, 0x0, 0x0, 0xC000FFFF, 0x0, 0x0, 0x40000400, some (0x0, 0)⟩,  -- MC_RDP
  ⟨0x1C, [], 0x0, 0x0, 0xFFFFFFFF, 0x0, 0x0, 0x0, 0x0, none⟩,  -- MC_RDPCNT
  ⟨0x20, [], 0xFFFF, 0x0, 0x0, 0x0, 0x0, 0x0, 0x2, none⟩,  -- MC_SCRUB
  ⟨0x24, [], 0x0, 0x0, 0xFFFFFFFF, 0x0, 0x0, 0x0, 0x0, none⟩,  -- MC_ECC
  ⟨0x28, [], 0x0, 0x0, 0x0, 0x0, 0x0, 0x0, 0x0, none⟩,  -- MC_UEADDR_LO
  ⟨0x2C, [], 0x0, 0x80000000, 0x0, 0x0, 0x0, 0x0, 0x0, none⟩,  -- MC_UEADDR_HI
  ⟨0x30, [], 0x0, 0x0, 0x0, 0x0, 0x0, 0x0, 0x0, none⟩,  -- MC_UECYC
  ⟨0x34, [], 0x0, 0x0, 0xFFFF00FF, 0x0, 0x0, 0x0, 0x0, none⟩,  -- MC_LINK
  ⟨0x38, [], 0xFFF, 0x0, 0x0, 0x0, 0xC0000000, 0x0, 0x0, none⟩,  -- MC_MIGRATE
  ⟨0x3C, [], 0x0, 0xE0000000, 0x0, 0x0, 0x0, 0x0, 0x0, none⟩  -- MC_MIGSTAT
]
def rowsMc1 : List RegRow := [
  ⟨0x40, [], 0x7, 0x0, 0x0, 0x0, 0x0, 0x0, 0x0, none⟩,  -- MC_IRQ
  ⟨0x100, [(62, 0x4)], 0x0, 0x0, 0x0, 0x0, 0x0, 0x0, 0x0, none⟩  -- MC_PCMAP_k
]
/-- The registers of a window of kind MC. -/
def rowsMc : List RegRow := rowsMc0 ++ rowsMc1

def rowsAny0 : List RegRow := [
  ⟨0xFF000, [], 0x0, 0x0, 0x0, 0x0, 0x0, 0x0, 0x0, none⟩,  -- NOC_NODE
  ⟨0xFF004, [], 0x0, 0x0, 0xFFFFFFFF, 0x0, 0x0, 0x0, 0x0, none⟩,  -- NOC_NCNT
  ⟨0xFF008, [], 0x0, 0x0, 0x0, 0x0, 0x0, 0x0, 0x0, none⟩  -- NOC_LOCK
]
/-- The registers of a window of kind ANY. -/
def rowsAny : List RegRow := rowsAny0

def rowsHp0 : List RegRow := [
  ⟨0x100, [(16, 0x4)], 0xFFFF003F, 0x0, 0x0, 0x0, 0x0, 0x0, 0x0, none⟩  -- HP_AP_n
]
/-- The registers of a window of kind HP. -/
def rowsHp : List RegRow := rowsHp0

def rowsPm0 : List RegRow := [
  ⟨0x0, [], 0x2, 0x0, 0x0, 0x1, 0x0, 0x0, 0x0, some (0x0, 0)⟩,  -- PWR_CTRL
  ⟨0x100, [(81, 0x8)], 0x40000000, 0x20000000, 0x0, 0x0, 0x80000000, 0x0, 0x2000000, none⟩,  -- PWR_DOM_k
  ⟨0x104, [(81, 0x8)], 0x0, 0x0, 0xFFFFFFFF, 0x0, 0x0, 0x0, 0x0, none⟩,  -- PWR_CNT_k
  ⟨0x10000, [], 0x1C000000, 0x0, 0x0, 0x1, 0x80000000, 0x0, 0x0, some (0x10000, 0)⟩,  -- MODE_CTRL
  ⟨0x10004, [], 0x0, 0x3000000, 0x0, 0x0, 0x0, 0x0, 0xA0, none⟩,  -- MODE_STAT
  ⟨0x10008, [], 0x0, 0x0, 0x0, 0xFFFF, 0x0, 0x0, 0x44C, some (0x10000, 0)⟩,  -- MODE_PLIM
  ⟨0x1000C, [], 0x0, 0x0, 0x0, 0xFF, 0x0, 0x0, 0x78, some (0x10000, 0)⟩,  -- MODE_TLIM
  ⟨0x10010, [], 0x1FFFF, 0x0, 0x0, 0x0, 0x0, 0x1FFFF, 0x0, none⟩,  -- MODE_ECOMASK
  ⟨0x10020, [], 0xFFFFF000, 0x0, 0x0, 0x0, 0x0, 0x0, 0x0, none⟩,  -- MODE_CKB0_LO
  ⟨0x10024, [], 0x3FFF, 0x0, 0x0, 0x0, 0x0, 0x0, 0x0, none⟩,  -- MODE_CKB0_HI
  ⟨0x10028, [], 0xFFFFF000, 0x0, 0x0, 0x0, 0x0, 0x0, 0x0, none⟩,  -- MODE_CKB1_LO
  ⟨0x1002C, [], 0x3FFF, 0x0, 0x0, 0x0, 0x0, 0x0, 0x0, none⟩,  -- MODE_CKB1_HI
  ⟨0x10030, [], 0x0, 0x0, 0x0, 0x0, 0x0, 0x0, 0x0, none⟩,  -- MODE_CKLAST_LO
  ⟨0x10034, [], 0x0, 0x0, 0x0, 0x0, 0x0, 0x0, 0x0, none⟩,  -- MODE_CKLAST_HI
  ⟨0x10040, [], 0xFFFFF000, 0x0, 0x0, 0x0, 0x0, 0x0, 0x0, none⟩,  -- MODE_FRB_LO
  ⟨0x10044, [], 0x3FFF, 0x0, 0x0, 0x0, 0x0, 0x0, 0x0, none⟩  -- MODE_FRB_HI
]
def rowsPm1 : List RegRow := [
  ⟨0x10048, [], 0x7FFFFF, 0x0, 0x0, 0x0, 0x0, 0x0, 0x0, none⟩,  -- MODE_FRSIZE
  ⟨0x20000, [], 0xFF0C, 0x0, 0x0, 0x60FF0001, 0x80000000, 0x0, 0xA85000, some (0x20000, 0)⟩,  -- SPR_CTRL
  ⟨0x20004, [], 0x0, 0x10000000, 0x0, 0x0, 0x0, 0x0, 0x7F, none⟩,  -- SPR_STAT
  ⟨0x20008, [], 0x0, 0x0, 0x0, 0x0, 0x0, 0x0, 0x0, none⟩,  -- SPR_GRADE
  ⟨0x2000C, [], 0x0, 0x0, 0x0, 0x0, 0x0, 0x0, 0x0, none⟩,  -- SPR_MAPGEN
  ⟨0x20010, [], 0x7FFFFF00, 0x0, 0x0, 0x0, 0x80000000, 0x0, 0x0, none⟩,  -- SPR_MARK
  ⟨0x20014, [], 0x0, 0x0, 0x0, 0x0, 0x0, 0x0, 0x0, none⟩,  -- SPR_USED0
  ⟨0x20018, [], 0x0, 0x0, 0x0, 0x0, 0x0, 0x0, 0x0, none⟩,  -- SPR_USED1
  ⟨0x20020, [], 0x0, 0x0, 0x0, 0x0, 0x0, 0x0, 0x0, none⟩,  -- SPR_LG_WR
  ⟨0x20024, [], 0xFFFFFFFF, 0x0, 0x0, 0x0, 0x0, 0x0, 0x0, none⟩,  -- SPR_LG_RD
  ⟨0x20028, [], 0x0, 0x0, 0xFFFFFFFF, 0x0, 0x0, 0x0, 0x0, none⟩,  -- SPR_LG_LOST
  ⟨0x20100, [(64, 0x4)], 0x0, 0x0, 0x0, 0x0, 0x0, 0x0, 0x0, none⟩,  -- SPR_AGE_k
  ⟨0x40000, [(16384, 0x20), (8, 0x4)], 0x0, 0x0, 0x0, 0x0, 0x0, 0x0, 0x0, none⟩  -- SPR_LG_e_w
]
/-- The registers of a window of kind PM. -/
def rowsPm : List RegRow := rowsPm0 ++ rowsPm1

def rowsPort0 : List RegRow := [
  ⟨0x0, [], 0xFF00, 0x0, 0x0, 0x60000001, 0x80000000, 0x0, 0x60004000, some (0x0, 0)⟩,  -- LNK_CTRL
  ⟨0x4, [], 0x0, 0x0, 0x0, 0x0, 0x0, 0x0, 0x0, none⟩,  -- LNK_STAT
  ⟨0x8, [], 0x0, 0x0, 0xFFFFFFFF, 0x0, 0x0, 0x0, 0x0, none⟩,  -- LNK_FEC
  ⟨0xC, [], 0x0, 0x0, 0xFFFFFFFF, 0x0, 0x0, 0x0, 0x0, none⟩,  -- LNK_REPLAY
  ⟨0x10, [], 0x0, 0x0, 0xFFFFFFFF, 0x0, 0x0, 0x0, 0x0, none⟩,  -- LNK_HOLD
  ⟨0x14, [], 0x0, 0x0, 0x0, 0x0, 0x0, 0x0, 0x0, none⟩,  -- LNK_PEER
  ⟨0x18, [], 0x0, 0x80000000, 0x0, 0x0, 0x0, 0x0, 0x0, none⟩,  -- LNK_ERR
  ⟨0x1C, [], 0x7, 0x0, 0x0, 0x0, 0x0, 0x0, 0x0, none⟩,  -- LNK_IRQ
  ⟨0x100, [(4, 0x8)], 0xFFFFFFFF, 0x0, 0x0, 0x0, 0x0, 0x0, 0x0, none⟩,  -- FAB_RWIN_n_LO
  ⟨0x104, [(4, 0x8)], 0xC00007FF, 0x0, 0x0, 0x0, 0x0, 0x0, 0x0, none⟩,  -- FAB_RWIN_n_HI
  ⟨0x400, [(128, 0x4)], 0x0, 0x0, 0x0, 0x0, 0x0, 0xFFFFFE00, 0x0, none⟩  -- LNK_CHRX_j
]
/-- The registers of a window of kind PORT. -/
def rowsPort : List RegRow := rowsPort0

def rowsSs0 : List RegRow := [
  ⟨0x0, [], 0x10006, 0x0, 0x0, 0xF01, 0x0, 0x0, 0x400, some (0x0, 0)⟩,  -- SS_CTRL
  ⟨0x4, [], 0x0, 0x80000000, 0x0, 0x0, 0x0, 0x0, 0x0, none⟩,  -- SS_STAT
  ⟨0x8, [], 0x3FF, 0x0, 0x0, 0x0, 0x80000000, 0x0, 0x0, none⟩,  -- SS_SUBMIT
  ⟨0xC, [], 0x3FF, 0x0, 0x0, 0x0, 0x80000000, 0x0, 0x0, none⟩,  -- SS_CANCEL
  ⟨0x10, [], 0x3FF, 0x0, 0x0, 0x0, 0x80000000, 0x0, 0x0, none⟩,  -- SS_ACK
  ⟨0x14, [], 0x0, 0x80000000, 0x0, 0x0, 0x0, 0x0, 0x0, none⟩,  -- SS_ERR
  ⟨0x18, [], 0x0, 0x0, 0x0, 0x0, 0x0, 0x0, 0x0, none⟩,  -- SS_TICK_LO
  ⟨0x1C, [], 0x0, 0x0, 0x0, 0x0, 0x0, 0x0, 0x0, none⟩,  -- SS_TICK_HI
  ⟨0x20, [], 0x0, 0x0, 0xFFFFFFFF, 0x0, 0x0, 0x0, 0x0, none⟩,  -- SS_CNT
  ⟨0x100, [(16, 0x4)], 0x0, 0x0, 0x0, 0x0, 0x0, 0x0, 0x0, none⟩,  -- SS_ENG_e
  ⟨0x10000, [(1024, 0x40), (16, 0x4)], 0xFFFFFFFF, 0x0, 0x0, 0x0, 0x0, 0x0, 0x0, none⟩,  -- SS_DESC_d_w
  ⟨0x20000, [(1024, 0x4)], 0x0, 0x0, 0x0, 0x0, 0x0, 0x0, 0x0, none⟩  -- SS_DSTAT_d
]
/-- The registers of a window of kind SS. -/
def rowsSs : List RegRow := rowsSs0

def rowsTt0 : List RegRow := [
  ⟨0x0, [], 0x6, 0x0, 0x0, 0x1, 0x0, 0x0, 0x0, some (0x0, 0)⟩,  -- TT_CTRL
  ⟨0x4, [], 0x0, 0xFF, 0x0, 0x0, 0x0, 0x0, 0x0, none⟩,  -- TT_STAT
  ⟨0x8, [], 0x0, 0x80000000, 0xFFFF, 0x0, 0x0, 0x0, 0x0, none⟩,  -- TT_ERR
  ⟨0x200, [(4, 0x10)], 0x7CFFFFFF, 0x0, 0x0, 0x0, 0x0, 0x0, 0x0, none⟩,  -- TT_EQg_CTRL
  ⟨0x204, [(4, 0x10)], 0xFF, 0x0, 0x0, 0x0, 0x0, 0x0, 0x0, none⟩,  -- TT_EQg_HALT
  ⟨0x208, [(4, 0x10)], 0x0, 0x0, 0x0, 0x0, 0x0, 0x0, 0x0, none⟩,  -- TT_EQg_FCYC_LO
  ⟨0x20C, [(4, 0x10)], 0x0, 0x0, 0x0, 0x0, 0x0, 0x0, 0x0, none⟩,  -- TT_EQg_FCYC_HI
  ⟨0x300, [], 0xFFFFFFFF, 0x0, 0x0, 0x0, 0x0, 0x0, 0x0, none⟩,  -- TT_STIM_DLO
  ⟨0x304, [], 0xFFFFFFFF, 0x0, 0x0, 0x0, 0x0, 0x0, 0x0, none⟩,  -- TT_STIM_DHI
  ⟨0x308, [], 0xFFFFFFFF, 0x0, 0x0, 0x0, 0x0, 0x0, 0x0, none⟩,  -- TT_STIM_KLO
  ⟨0x30C, [], 0xFFFF, 0x0, 0x0, 0x0, 0x0, 0x0, 0x0, none⟩,  -- TT_STIM_KHI
  ⟨0x310, [], 0x1F, 0x0, 0x0, 0x0, 0x80000000, 0x0, 0x0, none⟩,  -- TT_STIM_CMD
  ⟨0x1000, [(16, 0x100)], 0x207FF07F, 0x0, 0x0, 0x0, 0x0, 0x0, 0x7FF000, none⟩,  -- TT_Uu_CTRL
  ⟨0x1004, [(16, 0x100)], 0xFFFF0000, 0x0, 0x0, 0x0, 0x0, 0x0, 0x0, none⟩,  -- TT_Uu_CNT
  ⟨0x1008, [(16, 0x100)], 0xFFFFFFFF, 0x0, 0x0, 0x0, 0x0, 0x0, 0x0, none⟩,  -- TT_Uu_VAL_LO
  ⟨0x100C, [(16, 0x100)], 0xFFFFFFFF, 0x0, 0x0, 0x0, 0x0, 0x0, 0x0, none⟩  -- TT_Uu_VAL_HI
]
def rowsTt1 : List RegRow := [
  ⟨0x1010, [(16, 0x100)], 0xFFFFFFFF, 0x0, 0x0, 0x0, 0x0, 0x0, 0x0, none⟩,  -- TT_Uu_MSK_LO
  ⟨0x1014, [(16, 0x100)], 0xFFFFFFFF, 0x0, 0x0, 0x0, 0x0, 0x0, 0x0, none⟩,  -- TT_Uu_MSK_HI
  ⟨0x1018, [(16, 0x100)], 0x0, 0x0, 0x0, 0x0, 0x0, 0x0, 0x0, none⟩,  -- TT_Uu_FCYC_LO
  ⟨0x101C, [(16, 0x100)], 0x0, 0x0, 0x0, 0x0, 0x0, 0x0, 0x0, none⟩,  -- TT_Uu_FCYC_HI
  ⟨0x1040, [(16, 0x100), (32, 0x4)], 0xFFF0FFF, 0x0, 0x0, 0x0, 0x0, 0x0, 0x0, none⟩,  -- TT_Uu_SEL_i
  ⟨0x2000, [(8, 0x100)], 0x1F00FFFF, 0x0, 0x0, 0x20000000, 0x0, 0x0, 0x0, some (0x0, 0)⟩,  -- TT_Sn_CTRL
  ⟨0x2004, [(8, 0x100)], 0xFFFFFFFF, 0x0, 0x0, 0x0, 0x0, 0x0, 0x0, none⟩,  -- TT_Sn_CH
  ⟨0x2008, [(8, 0x100)], 0xFFFFF000, 0x0, 0x0, 0x0, 0x0, 0x0, 0x0, none⟩,  -- TT_Sn_RB_LO
  ⟨0x200C, [(8, 0x100)], 0xFFFF, 0x0, 0x0, 0x0, 0x0, 0x0, 0x0, none⟩,  -- TT_Sn_RB_HI
  ⟨0x2010, [(8, 0x100)], 0x7FFFFF, 0x0, 0x0, 0x0, 0x0, 0x0, 0x0, none⟩,  -- TT_Sn_RSIZE
  ⟨0x2014, [(8, 0x100)], 0x0, 0x0, 0x0, 0x0, 0x0, 0x0, 0x0, none⟩,  -- TT_Sn_WR
  ⟨0x2018, [(8, 0x100)], 0xFFFFFFFF, 0x0, 0x0, 0x0, 0x0, 0x0, 0x0, none⟩,  -- TT_Sn_RD
  ⟨0x201C, [(8, 0x100)], 0xFFFFFFFF, 0x0, 0x0, 0x0, 0x0, 0x0, 0x0, none⟩,  -- TT_Sn_KEY_LO
  ⟨0x2020, [(8, 0x100)], 0xFFFF, 0x0, 0x0, 0x0, 0x0, 0x0, 0x0, none⟩,  -- TT_Sn_KEY_HI
  ⟨0x2024, [(8, 0x100)], 0x40000000, 0x0, 0x0, 0x0, 0x80000000, 0x0, 0x0, none⟩,  -- TT_Sn_CMD
  ⟨0x2028, [(8, 0x100)], 0x0, 0x0, 0xFFFFFFFF, 0x0, 0x0, 0x0, 0x0, none⟩  -- TT_Sn_CNT
]
def rowsTt2 : List RegRow := [
  ⟨0x202C, [(8, 0x100)], 0x0, 0x0, 0x0, 0x0, 0x0, 0x0, 0x0, none⟩,  -- TT_Sn_FIFO
  ⟨0x2030, [(8, 0x100)], 0xFF73, 0x0, 0x0, 0x0, 0x0, 0x0, 0x0, none⟩,  -- TT_Sn_FSINK
  ⟨0x3000, [(32, 0x10)], 0xF000FFFF, 0x0, 0x0, 0x0, 0x0, 0x0, 0x0, none⟩,  -- TT_Pp_CFG
  ⟨0x3004, [(32, 0x10)], 0xFFFF, 0x0, 0x0, 0x0, 0x0, 0x0, 0x0, none⟩,  -- TT_Pp_DBASE
  ⟨0x3008, [(32, 0x10)], 0xFFFFFFF8, 0x0, 0x0, 0x0, 0x0, 0x0, 0x0, none⟩,  -- TT_Pp_DADDR_LO
  ⟨0x300C, [(32, 0x10)], 0x80003FFF, 0x0, 0x0, 0x0, 0x0, 0x0, 0x0, none⟩,  -- TT_Pp_DADDR_HI
  ⟨0x10000, [(4096, 0x4)], 0xC000FFFF, 0x0, 0x0, 0x0, 0x0, 0x0, 0x0, none⟩  -- TT_TCH_j
]
/-- The registers of a window of kind TT. -/
def rowsTt : List RegRow := rowsTt0 ++ rowsTt1 ++ rowsTt2

def rowsDm0 : List RegRow := [
  ⟨0x0, [], 0x6, 0x0, 0x0, 0xF00001, 0x80000000, 0x0, 0x200000, some (0x0, 0)⟩,  -- DBG_CTRL
  ⟨0x4, [], 0x0, 0x18000000, 0x0, 0x0, 0x0, 0x0, 0x0, none⟩,  -- DBG_STAT
  ⟨0x8, [], 0x7800FFFF, 0x0, 0x0, 0x0, 0x80000000, 0x0, 0x0, none⟩,  -- DBG_RUN
  ⟨0xC, [], 0xFFFFFFFF, 0x0, 0x0, 0x0, 0x0, 0x0, 0x0, none⟩,  -- DBG_HPT_LO
  ⟨0x10, [], 0x7FFFFFF, 0x0, 0x0, 0x0, 0x0, 0x0, 0x7FF0000, none⟩,  -- DBG_HPT_HI
  ⟨0x14, [], 0x0, 0x0, 0x0, 0x0, 0x0, 0x0, 0x0, none⟩,  -- DBG_HCYC_LO
  ⟨0x18, [], 0x0, 0x0, 0x0, 0x0, 0x0, 0x0, 0x0, none⟩,  -- DBG_HCYC_HI
  ⟨0x1C, [], 0x0, 0x0, 0xFFFF, 0x0, 0x0, 0x0, 0x0, none⟩,  -- DBG_LKBRK
  ⟨0x20, [], 0x0, 0x0, 0xFFFF, 0x0, 0x0, 0x0, 0x0, none⟩,  -- DBG_AWL
  ⟨0x80, [], 0x0, 0x0, 0x0, 0x0, 0xC0000000, 0x0, 0x0, none⟩,  -- DBG_AUTH
  ⟨0xA0, [], 0x4F00003F, 0x10000000, 0x0, 0x0, 0x80000000, 0x0, 0x0, none⟩,  -- DBG_FUSE_CTRL
  ⟨0xA4, [], 0x0, 0x0, 0x0, 0x0, 0xFFFFFFFF, 0x0, 0x0, none⟩,  -- DBG_FUSE_DATA
  ⟨0x40, [(8, 0x4)], 0x0, 0x0, 0x0, 0x0, 0x0, 0x0, 0x0, none⟩,  -- DBG_CHAL_i
  ⟨0x60, [(8, 0x4)], 0x0, 0x0, 0x0, 0x0, 0xFFFFFFFF, 0x0, 0x0, none⟩,  -- DBG_RESP_i
  ⟨0x100, [], 0x0, 0x0, 0x0, 0x7, 0x0, 0x0, 0x0, some (0x0, 0)⟩,  -- WDG_CTRL
  ⟨0x104, [], 0x0, 0x0, 0x0, 0xFFFF, 0x0, 0x0, 0x64, some (0x0, 0)⟩  -- WDG_STALL
]
def rowsDm1 : List RegRow := [
  ⟨0x108, [], 0x0, 0x0, 0x0, 0xFFFF, 0x0, 0x0, 0x3E8, some (0x0, 0)⟩,  -- WDG_HB
  ⟨0x10C, [], 0x0, 0x0, 0x0, 0x0, 0x80000000, 0x0, 0x0, none⟩,  -- WDG_KICK
  ⟨0x110, [], 0x0, 0x80000000, 0x0, 0x0, 0x0, 0x0, 0x0, none⟩,  -- WDG_STAT
  ⟨0x114, [], 0x0, 0x0, 0x0, 0x0, 0x0, 0x0, 0x0, none⟩  -- WDG_STREM
]
/-- The registers of a window of kind DM. -/
def rowsDm : List RegRow := rowsDm0 ++ rowsDm1

def rowsTio0 : List RegRow := [
  ⟨0x0, [], 0x6, 0x0, 0x0, 0x1, 0x0, 0x0, 0x0, some (0x0, 0)⟩,  -- TIO_CTRL
  ⟨0x4, [], 0x0, 0x8000, 0x0, 0x0, 0x0, 0x0, 0x0, none⟩,  -- TIO_STAT
  ⟨0x10, [], 0x20000000, 0x0, 0x0, 0x0, 0x0, 0xC0000000, 0x20000000, none⟩,  -- TIO_CAD_CTRL
  ⟨0x14, [], 0x0, 0x0, 0x0, 0x0, 0x0, 0xFFFFFFFF, 0x186A0, none⟩,  -- TIO_CAD_PER
  ⟨0x18, [], 0x0, 0x0, 0xFFFF, 0x0, 0x0, 0x0, 0x0, none⟩,  -- TIO_CAD_STAT
  ⟨0x20, [], 0xFFFFF000, 0x0, 0x0, 0x0, 0x0, 0x0, 0x0, none⟩,  -- TIO_REC_RB_LO
  ⟨0x24, [], 0x3FFF, 0x0, 0x0, 0x0, 0x0, 0x0, 0x0, none⟩,  -- TIO_REC_RB_HI
  ⟨0x28, [], 0x7FFFFF, 0x0, 0x0, 0x0, 0x0, 0x0, 0x0, none⟩,  -- TIO_REC_RSIZE
  ⟨0x2C, [], 0x0, 0x0, 0x0, 0x0, 0x0, 0x0, 0x0, none⟩,  -- TIO_REC_WR
  ⟨0x30, [], 0xFFFFFFFF, 0x0, 0x0, 0x0, 0x0, 0x0, 0x0, none⟩,  -- TIO_REC_RD
  ⟨0x34, [], 0x3, 0x0, 0x0, 0x0, 0x0, 0x0, 0x0, none⟩,  -- TIO_REC_CTRL
  ⟨0x38, [], 0x0, 0x40000000, 0xFFFF, 0x0, 0x0, 0x0, 0x0, none⟩,  -- TIO_REC_STAT
  ⟨0x100, [(16, 0x4)], 0x0, 0x1000000, 0x0, 0x0, 0x0, 0xFC000000, 0x0, none⟩,  -- TIO_BANK_b
  ⟨0x1000, [(640, 0x10)], 0x0, 0x0, 0x0, 0x0, 0x0, 0xFFF80000, 0x0, none⟩,  -- TIO_PIN_p
  ⟨0x1004, [(640, 0x10)], 0x0, 0x0, 0x0, 0x0, 0x0, 0xFFFFFFFF, 0x0, none⟩,  -- TIO_PSRC_p
  ⟨0x1008, [(640, 0x10)], 0x0, 0x0, 0x0, 0x0, 0x0, 0xFFFFFFF8, 0x0, none⟩  -- TIO_PDST_p
]
def rowsTio1 : List RegRow := [
  ⟨0x100C, [(640, 0x10)], 0x0, 0x0, 0x0, 0x0, 0x0, 0x0, 0x0, none⟩  -- TIO_TDC_p
]
/-- The registers of a window of kind TIO. -/
def rowsTio : List RegRow := rowsTio0 ++ rowsTio1

/-- The registers of node n, those of every node last (R292). -/
def rowsOf (n : Nat) : List RegRow :=
  match nodeKind n with
  | .tile _ => rowsTile ++ rowsAny
  | .mc _ => rowsMc ++ rowsAny
  | .port _ => rowsPort ++ rowsAny
  | .hp => rowsHp ++ rowsAny
  | .ce => rowsCe ++ rowsAny
  | .dm => rowsDm ++ rowsAny
  | .tt => rowsTt ++ rowsAny
  | .ss => rowsSs ++ rowsAny
  | .pm => rowsPm ++ rowsAny
  | .tio => rowsTio ++ rowsAny
  | .empty => []

/-- Whether a distance from the base lies on the index grid of a row. -/
def onGrid : List (Nat × Nat) → Nat → Bool
  | [], d => d == 0
  | (c, st) :: rest, d => d / st < c && onGrid rest (d % st)

/-- The register map's row at a BAR0 offset, if a register is defined there (R11). -/
def rowAt (k : Nat) : Option RegRow :=
  (rowsOf (k / 0x100000)).find? fun r => r.base ≤ k % 0x100000 && onGrid r.dims (k % 0x100000 - r.base)

/-- The word a register holds at reset (the Reset columns); 0 where no register is defined (R11). MC_PCMAP_k resets to
k (R263), NOC_CTX_HBM_0 and NOC_CTX_PERM_0 to the values of R295. -/
def resetWord (k : Nat) : BitVec 32 :=
  match rowAt k with
  | none => 0
  | some r =>
    if r.base = 0x100 ∧ r.dims = [(62, 4)] then BitVec.ofNat 32 ((k % 0x100000 - 0x100) / 4)
    else if k = 0x961000 then 0x116F0000#32
    else if k = 0x961004 then 0x80000007#32
    else BitVec.ofNat 32 r.rst

end Sys2Proof.Machine
end

