-- ==== Sys2Proof/Machine/State.lean ====
section
/-! DEFINITION. The state of the block as plain data, the state right after reset, and the reasons a command can stop.
Tables are lists of (key, value) with keys strictly rising and no entry equal to what an unlisted key reads as. -/

namespace Sys2Proof.Machine

/-- A sparse table in canonical form: keys strictly rising, no entry equal to the default of its key. -/
abbrev Tab (α : Type) := List (Nat × α)

/-- One entry of an HBM queue of a WU (R126, R140): state as R140 codes it (0 free does not stand in the list, 1 awaiting,
2 OK, 8 + code otherwise), whether it is a write, and the data; the transaction slot it travels under once sent, and a
response the interface holds until every earlier one has been returned (R242). -/
structure QEnt where
  state : Nat
  wr : Bool
  data : BitVec 64
  slot : Option Nat
  resp : Option (Nat × BitVec 64)
deriving DecidableEq, Repr

/-- A result on its way to a register or to the carry (R109, R111): the step at whose end it is written. -/
structure Fly where
  due : Nat
  rd : Nat
  nx : Bool
  val : Option (BitVec 64)
  carry : Option Bool
deriving DecidableEq, Repr

/-- A scratchpad request of the present step (R121, R122): bank, word, store or load, mask, data, whether it has been
granted, whether it met a violation still frozen (R124), and the word read. -/
structure SpReq where
  bank : Nat
  word : Nat
  wr : Bool
  mask : BitVec 8
  data : BitVec 64
  granted : Bool
  viol : Bool
  got : BitVec 64
deriving DecidableEq, Repr

/-- A store access in progress: the command word, its writer, and the data registers as they stood (R96, R140). -/
structure StoreAcc where
  cmd : BitVec 32
  who : Who
  data : BitVec 128
deriving DecidableEq, Repr

/-- A word unit (R102). word is the entry that the WU issues at the step its cluster has turned to; prog are its 256
entries, an unlisted one reading as the idle word of R106. -/
structure Wu where
  prog : Tab (BitVec 128)
  r : Tab (BitVec 64)
  nx : Tab (BitVec 64)
  nxf : BitVec 16
  c : Bool
  offer : BitVec 8
  pc : Nat
  hold : Nat
  ended : Bool
  word : Option (BitVec 128)
  q0 : List QEnt
  q1 : List QEnt
  fly : List Fly
  sp : Option SpReq
  acc : Option StoreAcc
deriving DecidableEq, Repr

/-- A WU before anything is loaded; the spec gives its stores no content after reset (R98, R142): DESIGN CHOICE,
log 4. -/
def Wu.empty : Wu :=
  { prog := [], r := [], nx := [], nxf := 0, c := false, offer := 0, pc := 0, hold := 0, ended := false, word := none,
    q0 := [], q1 := [], fly := [], sp := none, acc := none }

/-- A physical cluster: the stores of its 68 BPs (R55 to R60, R68), its lane table (R72), its five WUs, its four arrival
queues (R20) and where it stands in the step wave. Keys of ins are 1024 * BP + slot, of the others the physical BP;
prev holds the 68 results of the step before (R53); waited collects the conditions of R21 the present step has waited
on, laid out as CLU_STAT [27:17]; compared says that the step comparators have seen the step (R501); faulted says that a fault of R26 or R82 stopped it. -/
structure Cluster where
  ins : Tab (BitVec 80)
  consts : Tab (BitVec 512)
  flop : Tab (BitVec 1024)
  latch : Tab (BitVec 1024)
  res : Tab (BitVec 1024)
  resW : Tab (BitVec 1024)
  cap : Tab (BitVec 1024)
  capW : Tab (BitVec 1024)
  laneTab : Tab (BitVec 24)
  prev : BitVec 68
  inq : Tab (List LaneByte)
  step : Nat
  turned : Bool
  laneWord : BitVec 24
  done : Bool
  faulted : Bool
  waited : BitVec 11
  compared : Bool
  acc : Option StoreAcc
  wus : Tab Wu
deriving DecidableEq, Repr

/-- A cluster before anything is loaded (R98): DESIGN CHOICE, log 4. -/
def Cluster.empty : Cluster :=
  { ins := [], consts := [], flop := [], latch := [], res := [], resW := [], cap := [], capW := [], laneTab := [],
    prev := 0, inq := [], step := 0, turned := false, laneWord := 1, done := false, faulted := false, waited := 0, compared := false,
    acc := none, wus := [] }

/-- A lane-byte in a place of a lane, with the number of counted eyelets its merge entry gave it (R155) and
whether it has been counted as held (R172). -/
structure Held where
  b : LaneByte
  eye : Nat
  waited : Bool
deriving DecidableEq, Repr

/-- An output lane: its merge sequence (length, entries, current index; R150, R151), the places of its chain, and the
places that parity faults have closed (R166). -/
structure Lane where
  n : Nat
  ent : Tab (BitVec 16)
  idx : Nat
  places : Tab (Option Held)
  stuck : List Nat
deriving DecidableEq, Repr

/-- A lane with nothing in it and no merge sequence (R168). -/
def Lane.empty : Lane := { n := 0, ent := [], idx := 0, places := [], stuck := [] }

/-- Where a token came from: source address, cycle [31:0] (R338). -/
structure Tok where
  src : Nat
  cyc : BitVec 32
deriving DecidableEq, Repr

/-- The sequencer (R27 to R51): the emulated-cycle count, whether the step wave has started, whether the device stands
between local midnight and release, whether a fault stopped the run, whether the stall watchdog did, whether an
uncorrected error holds or will hold a midnight (R40), the midnight neighbours (R30), tokens recorded and held back
(R338), and whether the wait of R131 is over for this midnight. -/
structure Seq where
  cycle : BitVec 48
  run : Bool
  midnight : Bool
  faulted : Bool
  stalled : Bool
  uePend : Bool
  neigh : List Nat
  tok : List Tok
  tokOut : List Tok
  settled : Bool
deriving DecidableEq, Repr

/-- A scratchpad bank's book-keeping (R214, R217, R223): the step it served last and whether it has served one, the
handover latch (NEW, ENG, CLR, and the barrier task that made the write, if one did), whether it waits for a midnight and then holds it, and the scrub position. -/
structure Bank where
  lastCyc : BitVec 48
  lastStep : Nat
  served : Bool
  new : Nat
  eng : Nat
  clr : Bool
  task : Option Nat
  holds : Bool
  scrub : Nat
deriving DecidableEq, Repr

def Bank.empty : Bank :=
  { lastCyc := 0, lastStep := 0, served := false, new := 0, eng := 0, clr := false, task := none, holds := false, scrub := 0 }

/-- One outstanding transaction slot of a master interface (R281). -/
structure Slot where
  gen : Nat
  req : Option Packet
  late : Bool
deriving DecidableEq, Repr

/-- A request that a frozen interface holds, and whether its timer has expired (R283). -/
structure HeldReq where
  req : Packet
  expired : Bool
deriving DecidableEq, Repr

/-- A master interface (R275, R279 to R284): frozen, the offending request it found itself with its response code, the VIOL
responses of targets that it holds, the requests held while frozen, requests its master has not handed over yet (the WU queues' pushes), outstanding slots, responses
collected while frozen, and the last response delivered (the model's output). -/
structure Master where
  frozen : Bool
  bad : Option Packet
  viols : List Packet
  held : List HeldReq
  want : List Packet
  slots : Tab Slot
  collected : List Packet
  last : Option Packet
deriving DecidableEq, Repr

def Master.empty : Master :=
  { frozen := false, bad := none, viols := [], held := [], want := [], slots := [], collected := [], last := none }

def Slot.empty : Slot := { gen := 0, req := none, late := false }

/-- The lock of a node (R277, R278): open, holder, locked requests served, and the masters (node, MID) whose lock was broken and
that have not learnt of it. -/
structure Lock where
  isOpen : Bool
  node : Nat
  mid : Nat
  count : Nat
  broken : List (Nat × Nat)
deriving DecidableEq, Repr

def Lock.empty : Lock :=
  { isOpen := false, node := 0, mid := 0, count := 0, broken := [] }

/-- A packet under way and the router it stands at, 10 * y + x (R265). -/
structure Flight where
  pk : Packet
  pos : Nat
deriving DecidableEq, Repr

/-- A halt point (R493): the cycle, the step (7FFh and every step from L on names the midnight) and its cause. -/
structure HaltPt where
  cyc : BitVec 48
  step : Nat
  cause : Nat
deriving DecidableEq, Repr

/-- Run control (R493 to R500): the points armed, the cause of a HALTNOW in force, whether every cluster holds and the
lock wait runs, whether the halt is complete and at a midnight, the target of STEP or CYCLE with its kind (1 STEP,
2 CYCLE), the fresh challenge (R490), the fuse word being programmed (R491), and the cycle and MINSTEP at
which the stall watchdog last restarted (R503; none: not yet in a run). -/
structure Dbg where
  points : List HaltPt
  now : Bool
  nowCause : Nat
  reached : Option HaltPt
  target : Option HaltPt
  freshCh : Bool
  fuse : Option (Nat × Nat × BitVec 32)
  stallAt : Option (BitVec 48 × Nat)
deriving DecidableEq, Repr

def Dbg.empty : Dbg :=
  { points := [], now := false, nowCause := 0, reached := none, target := none, freshCh := false, fuse := none,
    stallAt := none }

/-- A welt lane (R412, R413): the outbound record as (ST, data), the number of lane-bytes that passed inbound in the
cycle, and, while the region is out, the lane-bytes emitted and the lane-bytes discarded since it left. -/
structure Welt where
  rcd : List (BitVec 11)
  inb : Nat
  emitted : Nat
  disc : Nat
deriving DecidableEq, Repr

def Welt.empty : Welt := { rcd := [], inb := 0, emitted := 0, disc := 0 }

/-- A region load accepted by the loader (R406, R409): join midnight, source (1 HBM, 2 slot A, 3 slot B) with its HBM byte
address, the task's descriptor, whether the drain is done, and the place of the load in the order of the loads. -/
structure RegionJob where
  join : BitVec 48
  src : Nat
  base : Nat
  desc : Nat
  drained : Bool
  order : Nat
deriving DecidableEq, Repr

/-- What a region image gives for the banks of its tile, until the join (R232): bytes by 2^18 * bank + 8 * word + k, the
banks it keeps, and the words for its bank owners and user sets (R232) and its probe table (R481) by their BAR0 offsets, none
where it gives none. -/
structure BankStash where
  cells : List Host.Cell
  keep : BitVec 16
  regs : Tab (Option (BitVec 32))
deriving DecidableEq, Repr

def BankStash.empty : BankStash := { cells := [], keep := 0, regs := [] }

/-- A tile's book-keeping: the merge-store access in progress (R173), its welts by lane, its region job and the cycle of
its last leave midnight, the image identity of its content (R442), and the probe channels that read 1 in the current
cycle so far (R451, R452), what the region image written gives for its banks, and the range units that have hit since they
were enabled (R502). -/
structure Tile where
  racc : Option StoreAcc
  welts : Tab Welt
  job : Option RegionJob
  leave : BitVec 48
  imgId : BitVec 64
  probe : Tab Bool
  stash : Option BankStash
  ruHist : BitVec 8
deriving DecidableEq, Repr

def Tile.empty : Tile := { racc := none, welts := [], job := none, leave := 0, imgId := 0, probe := [], stash := none, ruHist := 0 }

/-- A piece of a class stream: its bits as a number, the first bit most significant, and how many there are (R305). -/
structure BitQ where
  len : Nat
  val : Nat
deriving DecidableEq, Repr

/-- A remote packet with its envelope (R326): destination and source address, epoch bit, hop count, class (0 SERVICE,
1 BULK), and the packet; port is where it arrived, 8 when this device originated it. -/
structure FabPkt where
  dest : Nat
  src : Nat
  e : Bool
  hops : Nat
  bulk : Bool
  port : Nat
  late : Bool
  pk : Packet
deriving DecidableEq, Repr

/-- A lane-byte in transit from one port to a link lane of another (R313), with where it came in. -/
structure Transit where
  port : Nat
  lane : Nat
  b : LaneByte
deriving DecidableEq, Repr

/-- A port bridge (R301 to R339): the replay buffer, SEQ counters, the episode in progress and when episodes happened;
credits held; the CTRL records to send and received; the SCHED bits to send with how many of them belong to slices, SERVICE and BULK packets to send and the words
received; the waiting counts of R308; the received lane-bytes per link lane and those in transit; packets arrived,
packets held; the remote requests under way by slot; whether a peer check closed the port; the last flit sent (the model's output). -/
structure Port where
  replay : List Flit
  resend : Nat
  nextSeq : Nat
  expSeq : Nat
  ackOut : Option Nat
  episode : Bool
  epis : List Nat
  credS : Tab Nat
  credV : Nat
  credB : Nat
  ctrlOut : List (BitVec 64)
  ctrlIn : List (BitVec 64)
  schedOut : BitQ
  real : Nat
  group : Nat
  svcQ : List FabPkt
  svcPos : Nat
  bulkQ : List FabPkt
  bulkPos : Nat
  schedIn : BitQ
  svcIn : List (BitVec 64)
  bulkIn : List (BitVec 64)
  svcWait : Nat
  bulkWait : Nat
  bulkSvc : Nat
  rx : Tab (List LaneByte)
  transit : Tab (List Transit)
  arrived : List FabPkt
  heldPk : List FabPkt
  remote : Tab (Option FabPkt)
  closed : Bool
  sent : Flit
deriving DecidableEq, Repr

/-- A port with nothing under way: every credit held (R307). -/
def Port.empty : Port :=
  { replay := [], resend := 0, nextSeq := 0, expSeq := 0, ackOut := none, episode := false, epis := [],
    credS := [], credV := 8192, credB := 8192, ctrlOut := [], ctrlIn := [], schedOut := ⟨0, 0⟩, real := 0, group := 0, svcQ := [], svcPos := 0,
    bulkQ := [], bulkPos := 0, schedIn := ⟨0, 0⟩, svcIn := [], bulkIn := [], svcWait := 0, bulkWait := 0, bulkSvc := 0, rx := [],
    transit := [], arrived := [], heldPk := [], remote := [], closed := false, sent := 0 }

/-- A device the root has addressed: its identity and, per port, the result of its report (R321, R343). -/
structure TopoDev where
  id : BitVec 64
  ports : Tab (BitVec 32)
deriving DecidableEq, Repr

def TopoDev.empty : TopoDev := { id := 0, ports := [] }

/-- Discovery and floods (R320 to R324, R339): the flood sequence last seen and next to give, the root identity of the
last discovery; at a device asked to explore, the port now probed; at the root, the topology, the queue of addresses to
explore, the one being explored and the next address. -/
structure Fab where
  seenSeq : Option Nat
  nextSeq : Nat
  root : BitVec 64
  probing : Option Nat
  explorer : Nat
  topo : Tab TopoDev
  queue : List Nat
  now : Option Nat
  next : Nat
  peers : Tab (Option Nat)
deriving DecidableEq, Repr

def Fab.empty : Fab :=
  { seenSeq := none, nextSeq := 0, root := 0, probing := none, explorer := 0, topo := [], queue := [], now := none,
    next := 0, peers := [] }

/-- What the device is, from its stepping, fuses and repair map (R2, R3, R179, R549): the native latency profile, the
enabled grade as its bit in a grade mask (0 XDL-64, 1 XDL-48, 2 XDL-32), the grade as sold, the fused tile rows (phys y)
and columns (phys x), the skipped cluster row of each tile, the failing BPs and WUs of each physical cluster, the failing
port lanes, the pseudo-channel assignments, the HBM rows repaired as (64 * stack + physical pseudo-channel, bank, row), and the
generation of the map. -/
structure Device where
  native : Nat
  grade : Nat
  sold : Nat
  fusedRows : List Nat
  fusedCols : List Nat
  srow : Tab Nat
  badBp : Tab (List Nat)
  badWu : Tab (List Nat)
  badRow : Tab (List Nat)
  badLane : Tab (List Nat)
  badTile : List Nat
  pcmap : Tab Nat
  badPc : Tab (List Nat)
  ppr : List (Nat × Nat × Nat)
  gen : Nat
deriving DecidableEq, Repr

/-- The device the model takes: XDL-64 of stepping B0, no unit marked (log 9). -/
def Device.factory : Device :=
  { native := 2, grade := 0, sold := 0, fusedRows := [], fusedCols := [], srow := [], badBp := [], badWu := [],
    badRow := [], badLane := [], badTile := [], pcmap := [], badPc := [], ppr := [], gen := 0 }

/-- A request in an HBM controller: the packet, where its bytes lie (physical pseudo-channel and offset), how long it has
waited in ns up to the last choice of its pseudo-channel, the ns between that choice and its arrival, and how often its command
has been repeated (R242, R243, R251). -/
structure HbmReq where
  pk : Packet
  pch : Nat
  off : Nat
  age : Nat
  late : Nat
  repeats : Nat
deriving DecidableEq, Repr

/-- A migration in progress: logical pseudo-channel, spare, next block (R240). -/
structure Migration where
  lpc : Nat
  spare : Nat
  next : Nat
deriving DecidableEq, Repr

/-- An HBM controller (R242 to R257): requests waiting per physical pseudo-channel and requests whose column access has
been issued; per bank (64 * pseudo-channel + bank) the open row plus 1, refreshes owed, the activate-count table of up to
32 (row, count) and the rows whose neighbours are to be refreshed; scrub positions; the migration; whether the stack
reports RFM support. -/
structure Mc where
  queue : Tab (List HbmReq)
  ready : List HbmReq
  row : Tab Nat
  owed : Tab Nat
  acts : Tab (List (Option (Nat × Nat)))
  nbr : List (Nat × Nat)
  scrub : Tab Nat
  mig : Option Migration
  rfm : Bool
deriving DecidableEq, Repr

def Mc.empty : Mc :=
  { queue := [], ready := [], row := [], owed := [], acts := [], nbr := [], scrub := [], mig := none, rfm := true }

/-- The samples of one cycle on their way to the trace engine (R452, R454, R459): the channels that read 1, the pins'
samples of the cycle and of the one before, and the converter values. -/
structure TtCycle where
  cyc : BitVec 48
  chans : Tab Bool
  pins : BitVec 640
  last : BitVec 640
  tdc : Tab Nat
deriving DecidableEq, Repr

/-- A stimulus write that waits for its cycle (R464): key, value, whether the debug master wrote it, and whether its
delivery to the DUT is done (R465). -/
structure Stim where
  key : BitVec 48
  val : BitVec 64
  dbg : Bool
  done : Bool
deriving DecidableEq, Repr

/-- A trace stream (R466 to R473): capturing; the keys of the commands accepted; the next packet number; the packets in
staging; the gate open, and the cycles it still records (0: without end); the last SAMPLE of COND; whether the last write failed; whether the
stream has counted as holding the present cycle; the slot of a remote write under way with its words, and the words written to
the far ring; the half that TT_S_FIFO gives next. -/
structure TtStream where
  on : Bool
  enKey : Option (BitVec 48)
  disKey : Option (BitVec 48)
  seqno : Nat
  staging : List (List (BitVec 64))
  gateOpen : Bool
  left : Nat
  lastSample : Option (List (BitVec 64))
  failed : Bool
  counted : Bool
  sent : Option (Nat × Nat)
  far : Nat
  half : Bool
deriving DecidableEq, Repr

def TtStream.empty : TtStream :=
  { on := false, enKey := none, disKey := none, seqno := 0, staging := [], gateOpen := false, left := 0,
    lastSample := none, failed := false, counted := false, sent := none, far := 0, half := false }

/-- The trace engine: cycles not yet evaluated (at most four, R452), streams, queued stimulus writes by port, TRIGGER_ARM
tasks that take effect after a cycle's evaluation (cycle, units, arm), and responses to its remote writes. -/
structure Tt where
  buf : List TtCycle
  streams : Tab TtStream
  stim : Tab (List Stim)
  arms : List (BitVec 48 × BitVec 16 × Bool)
  resps : List Packet
deriving DecidableEq, Repr

def Tt.empty : Tt := { buf := [], streams := [], stim := [], arms := [], resps := [] }

/-- The target pins (R516 to R527): levels at the inputs, their samples of the present cycle and of the one before,
edges since the last sample instant, the time of each pin's most recent edge in units of 4 ps plus 1 (0: none), the
levels and enables the outputs hold, the channels of the last cycle that read 1, whether the sample instant of the
present midnight has passed, whether a tick is paired with it, whether a replay broke, and whether the heartbeat put
the pins into the state of R381. -/
structure Tio where
  levels : BitVec 640
  samp : BitVec 640
  before : BitVec 640
  edges : BitVec 640
  times : Tab Nat
  outs : BitVec 640
  oe : BitVec 640
  chans : Tab Bool
  instant : Bool
  paired : Bool
  broken : Bool
  safe : Bool
deriving DecidableEq, Repr

def Tio.empty : Tio :=
  { levels := 0, samp := 0, before := 0, edges := 0, times := [], outs := 0, oe := 0, chans := [], instant := false,
    paired := false, broken := false, safe := false }

/-- A power domain's book-keeping: a power-on request that takes effect after OFF (R299), the dusk fence up, the drain
acknowledged and self-refresh entered (R254, R289), a power-down that ECONOMY made (R540), and an access of a unit that waits for the
domain (R287). -/
structure Pwr where
  wake : Bool
  fence : Bool
  acked : Bool
  sref : Bool
  eco : Bool
  want : Bool
deriving DecidableEq, Repr

def Pwr.empty : Pwr := { wake := false, fence := false, acked := false, sref := false, eco := false, want := false }

/-- The service scheduler (R432 to R434): the queues by rank (0 to 7 the levels of PRIO, 8 the barrier queue), oldest
first; by engine, the code of the task it has carried out; and the tasks acknowledged before their EVT left (R440). -/
structure Ss where
  queues : Tab (List Nat)
  result : Tab (Option Nat)
  acks : List Nat
deriving DecidableEq, Repr

def Ss.empty : Ss := { queues := [], result := [], acks := [] }

/-- A record of an image (R359). -/
structure ImgRec where
  ty : Nat
  target : BitVec 64
  body : List (BitVec 8)
deriving DecidableEq, Repr

/-- What the running full image declared (R175, R197). -/
structure Image where
  gmask : Nat
  pmask : Nat
  lx : Nat
  ly : Nat
deriving DecidableEq, Repr

/-- A load in progress (R369 to R371): the tile of a region load; the source (1 A, 2 B, 3 G0, 4 G1, 5 HBM) with its HBM
address; whether a fallback is due after a clean-up; what the header gave; the next frame, the key and its epoch, the hash
expected; the bytes of the record stream not yet executed and the records executed; the open tile group, the groups seen
and the records of the open one; once END has been met, whether it agrees with the image; the records skipped by controller;
the port records; and for each tile whose reference layout breaks R185 the first output lane and entry that does. -/
structure Load where
  region : Option Nat
  src : Nat
  base : Nat
  header : Bool
  img : Image
  rtx : Nat
  rty : Nat
  frame : Nat
  fcount : Nat
  imgId : BitVec 64
  nonce : BitVec 64
  key : BitVec 256
  epoch : Nat
  hash : BitVec 384
  stream : List (BitVec 8)
  recs : Nat
  group : Option Nat
  groups : List Nat
  parts : List ImgRec
  ended : Option Bool
  skipped : Tab Nat
  ports : List (Nat × List (BitVec 8))
  misuse : List (LaneId × Nat)
  retries : Nat
deriving DecidableEq, Repr

def Load.start (region : Option Nat) (src base : Nat) : Load :=
  { region := region, src := src, base := base, header := false, img := ⟨0, 0, 0, 0⟩, rtx := 0, rty := 0, frame := 0,
    fcount := 0, imgId := 0, nonce := 0, key := 0, epoch := 0, hash := 0, stream := [], recs := 0, group := none,
    groups := [], parts := [], ended := none, skipped := [], ports := [], misuse := [], retries := 0 }

/-- A store operation in progress (R383): its OP, slot, first frame, count, source or identity. -/
structure StoreOp where
  op : Nat
  slot : Nat
  first : Nat
  count : Nat
  src : BitVec 64
deriving DecidableEq, Repr

/-- The directory (R350, R352, R353, R387, R389): its generation, boot selection, slot states and frame counts; the block map, which
gives the physical block that stands for a block where it is not that block's own; the physical blocks retired; the patrol
passes completed. -/
structure Directory where
  gen : Nat
  sel : Bool
  slot : Tab Nat
  fcount : Tab Nat
  bmap : Tab Nat
  bad : List Nat
  passes : Nat
deriving DecidableEq, Repr

def Directory.empty : Directory :=
  { gen := 0, sel := false, slot := [], fcount := [], bmap := [], bad := [], passes := 0 }

/-- The device record (R341, R350): its generation, and the fabric identity where one has been written. -/
structure DevRecord where
  gen : Nat
  id : Option (BitVec 64)
deriving DecidableEq, Repr

/-- The configuration store (R350 to R353, R386 to R389): pages by 1024 * physical block + page, none where erased. Of the
directory, the device record and the repair map, each kept in two copies (R351), the copy in force is dir, record and, for the
repair map, the state's dev; the other copy stands in the prev fields, none where its CRC-32 does not hold; factoryMap is the
repair map written at manufacture, and factoryUsed says that it is in force. Further the reads of each block since it was
written, the blocks patrolled in the present pass, and the operation in progress. Physical blocks: 0 to 31743 the normal region,
of which the first 12,288 are slots A and B as delivered; then 68 for each golden copy, the last four its reserve; from 31880 on
five for each of the seven copies of directory (2), device record (2) and repair map (3, the factory copy last), the last four
its reserve (log 81). -/
structure Store where
  pages : Tab (Option (BitVec 32768))
  dir : Directory
  dirPrev : Option Directory
  record : DevRecord
  recordPrev : Option DevRecord
  mapPrev : Option Device
  factoryMap : Device
  factoryUsed : Bool
  reads : Tab Nat
  patrolled : List Nat
  op : Option StoreOp
deriving DecidableEq, Repr

/-- The store as the model takes it at power-on: every slot EMPTY, no block retired, both copies of each region alike (log 9). -/
def Store.factory : Store :=
  { pages := [], dir := Directory.empty, dirPrev := some Directory.empty, record := ⟨0, none⟩, recordPrev := some ⟨0, none⟩,
    mapPrev := some Device.factory, factoryMap := Device.factory, factoryUsed := false,
    reads := [], patrolled := [], op := none }

/-- The dawn in progress (R398): DWN_CTRL, DWN_GAP and DWN_LTMO as sampled, releases done, a GO held, and the µs at which the
load ended. -/
structure Dawn where
  ctrl : BitVec 32
  gap : BitVec 32
  ltmo : BitVec 32
  done : Nat
  go : Bool
  at_ : BitVec 48
deriving DecidableEq, Repr

def Dawn.empty : Dawn := { ctrl := 0, gap := 0, ltmo := 0, done := 0, go := false, at_ := 0 }

/-- A checkpoint set of FIDELITY (R542, R543): its cycle, whether its base is MODE_CKB1, the descriptors not yet ended, and
whether the set can still become complete. -/
structure CkSet where
  cyc : BitVec 48
  sel : Bool
  left : List Nat
  ok : Bool
deriving DecidableEq, Repr

/-- The power and sparing manager (R538, R542, R547): the rails that ramp, the tiles under test, the checkpoint set whose
tasks run, the cycle of a set that waits for the service domain to wake, and whether FIDELITY's stream settings wait for the trace
engine's domain to wake (R541); and whether the domains are still brought on after a device reset (R300; log 89). -/
structure Pm where
  ramping : List Nat
  pass : List Nat
  ck : Option CkSet
  owed : Option (BitVec 48)
  fid : Bool
  bring : Bool
deriving DecidableEq, Repr

def Pm.empty : Pm := { ramping := [], pass := [], ck := none, owed := none, fid := false, bring := false }

/-- An awl request whose access through a remote window is under way (R325, R486): its frame, the accesses made, the words read and
the slot of the request sent. -/
structure AwlPart where
  frame : List (BitVec 8)
  done : Nat
  out : List (BitVec 32)
  slot : Nat
deriving DecidableEq, Repr

/-- The package (R483, R574, R575, R580, R581): VAON in its window, PWRGD high, a power-on reset or an awl reset in force, the
reset cause and the awl resets since power-on, OVERT_N driven low, the SMBus address straps as sampled, the word that the
SMBus target last answered (none: not acknowledged), the response frame last sent on the awl, and the domain that an awl
request under way waits for, and the awl request whose access through a remote window is under way. -/
structure Pkg where
  vaon : Bool
  pwrgd : Bool
  por : Bool
  awl : Bool
  cause : Nat
  awlN : Nat
  overtPin : Bool
  straps : Nat
  smb : Option (BitVec 16)
  awlOut : List (BitVec 8)
  awlWant : Option Nat
  awlPart : Option AwlPart
deriving DecidableEq, Repr

/-- The package once the power-on reset has ended. -/
def Pkg.reset : Pkg :=
  { vaon := true, pwrgd := true, por := false, awl := false, cause := 1, awlN := 0, overtPin := false, straps := 0,
    smb := none, awlOut := [], awlWant := none, awlPart := none }


/-- The state of the block. -/
structure State where
  /-- commands that wait, first in, first out (log 1) -/
  pending : List Instr
  /-- counter of free values drawn; the model's own field (log 11) -/
  free : Nat
  /-- steps that each tile has completed in the present window of 1,024 µs, midnight phases included (R36) -/
  steps : Tab Nat
  /-- every register, keyed by its BAR0 offset; an unlisted one reads its reset word (R8, R271) -/
  regs : Tab (BitVec 32)
  /-- the word the last read answered (log 10) -/
  bus : BitVec 32
  /-- MSI-X vectors raised to the host (R291; log 10) -/
  msix : BitVec 256
  /-- EVT messages that have reached HP: their vectors, oldest first (R291) -/
  evts : List Nat
  seq : Seq
  /-- clusters, keyed 72 * tile + 8 * prow + pcol -/
  clus : Tab Cluster
  /-- output lanes, keyed by LaneId.key -/
  lanes : Tab Lane
  /-- banks, keyed 16 * tile + bank -/
  banks : Tab Bank
  /-- scratchpad content: byte at 2^22 * tile + 2^18 * bank + 8 * word + k (R205); unlisted reads 0 (log 5) -/
  spad : List Host.Cell
  /-- packets in the network (R265) -/
  net : List Flight
  /-- transfers that a waiting channel has let pass, by 4 * (100 * router + next router) + class (R266) -/
  chanWait : Tab Nat
  /-- endpoint queues by node (R288) -/
  epq : Tab (List Packet)
  /-- requests accepted by a node and waiting to be served there, by node, oldest first -/
  srv : Tab (List Packet)
  /-- master interfaces, keyed 1024 * node + MID (R275) -/
  masters : Tab Master
  /-- locks by node (R277) -/
  locks : Tab Lock
  /-- the fault ledger: entry e as 8 words, word 0 lowest (R556, R557) -/
  ledger : Tab (BitVec 256)
  /-- µs since power-on reset (R557) -/
  us : BitVec 48
  /-- run control -/
  dbg : Dbg
  /-- tiles by domain index -/
  tiles : Tab Tile
  /-- the package holds every cluster because a sensor read 130 °C (R581) -/
  overt : Bool
  /-- port bridges -/
  ports : Tab Port
  /-- discovery and floods -/
  fab : Fab
  /-- what the device is (log 9): the repair map in force (R351) -/
  dev : Device
  /-- HBM content: byte at 2^30 * (64 * stack + physical pseudo-channel) + offset (R237); unlisted reads 0 (log 5) -/
  hbm : List Host.Cell
  /-- HBM words that a migration has copied with check bits that do not fit, by the address of their first byte as in hbm
  (R240) -/
  hbmBad : Tab Bool
  /-- HBM controllers -/
  mcs : Tab Mc
  /-- trace engine -/
  tt : Tt
  /-- target pins -/
  tio : Tio
  /-- power domains -/
  pwr : Tab Pwr
  /-- SS_TICK: µs since the end of device reset (R430) -/
  tick : BitVec 48
  /-- service scheduler -/
  ss : Ss
  /-- the load in progress; after a reset a full load from slot A (R397) -/
  load : Option Load
  /-- what the loaded full image declared -/
  image : Option Image
  /-- configuration store -/
  store : Store
  /-- dawn sequence -/
  dawn : Dawn
  /-- fabric identity as read at the last device reset (R348, log 28) -/
  fabId : Option (BitVec 64)
  /-- fuse words as programmed, keyed 64 * GROUP + WORD (R491; log 9) -/
  fuses : Tab (BitVec 32)
  /-- fuse words in effect since the last device reset (R491) -/
  fusesIn : Tab (BitVec 32)
  /-- the device as the last full load found it (R549) -/
  devIn : Device
  /-- power and sparing manager -/
  pm : Pm
  /-- package -/
  pkg : Pkg
deriving DecidableEq, Repr

/-- Faults: none. Every stop the spec gives the hardware is a next state (a fault record, a frozen master, a refused
write), so no meaning raises one; the type has one constructor, which nothing raises. -/
inductive Fault where
  /-- Raised by nothing; safe. -/
  | noFault
deriving DecidableEq, Repr

/-- Refusals. -/
inductive Refusal where
  /-- Raised by an arm of exec whose command has no meaning yet; safe, since it stops. -/
  | notModelled (mnemonic : String)
deriving DecidableEq, Repr

def Seq.reset : Seq :=
  { cycle := 0, run := false, midnight := false, faulted := false, stalled := false, uePend := false, neigh := [],
    tok := [], tokOut := [], settled := false }

/-- The state right after the power-on reset has ended (R575): every register at its Reset value, the queue empty, no
packet, no lane-byte; the controllers initialise and the loader has started (log 12). -/
def State.reset : State :=
  { pending := [], free := 0, steps := [], regs := [], bus := 0, msix := 0, evts := [], seq := Seq.reset, clus := [], lanes := [],
    banks := [], spad := [], net := [], chanWait := [], epq := [], srv := [], masters := [], locks := [], ledger := [], us := 0,
    dbg := Dbg.empty, tiles := [], overt := false
    , ports := [], fab := Fab.empty
    , dev := Device.factory
    , hbm := [], hbmBad := [], mcs := []
    , tt := Tt.empty, tio := Tio.empty, pwr := [], tick := 0
    , ss := Ss.empty
    , load := some (Load.start none 1 0), image := none, store := Store.factory, dawn := Dawn.empty, fabId := none
    , fuses := [], fusesIn := []
    , devIn := Device.factory, pm := { Pm.empty with bring := true }, pkg := Pkg.reset
    }

/-- The outcome type of every meaning. -/
abbrev Out := Host.Outcome State Fault Refusal

end Sys2Proof.Machine
end

