-- ==== Sys2Proof/Machine/Ops.lean ====
section
/-! DEFINITION. The named operations over tables, registers, memory, the fault ledger and interrupts, on which every
meaning rests. -/

namespace Sys2Proof.Machine

/-- What key a of a sparse table reads as: its entry, or the default of the key. -/
def tget {α : Type} (d : Nat → α) : Tab α → Nat → α
  | [], a => d a
  | (k, v) :: t, a => if a = k then v else tget d t a

/-- The table without any entry of key a. -/
def tdel {α : Type} (a : Nat) : Tab α → Tab α
  | [] => []
  | (k, w) :: t => if a = k then tdel a t else (k, w) :: tdel a t

/-- The table with the entry (a, v) in its place. -/
def tins {α : Type} (a : Nat) (v : α) : Tab α → Tab α
  | [] => [(a, v)]
  | (k, w) :: t => if a < k then (a, v) :: (k, w) :: t else if a = k then (a, v) :: t else (k, w) :: tins a v t

/-- The table with key a reading as v; a value that an unlisted key reads as is not listed. -/
def tput {α : Type} [DecidableEq α] (d : Nat → α) (a : Nat) (v : α) (t : Tab α) : Tab α :=
  if v = d a then tdel a t else tins a v t

/-- The canonical form: keys strictly rising from lo on, no entry equal to the default of its key. -/
def twf {α : Type} [DecidableEq α] (d : Nat → α) : Nat → Tab α → Bool
  | _, [] => true
  | lo, (k, v) :: t => decide (lo ≤ k) && decide (v ≠ d k) && twf d (k + 1) t

/-- The table with every entry dropped whose key p names. -/
def tdrop {α : Type} (p : Nat → Bool) (t : Tab α) : Tab α := t.filter fun e => !p e.1

/-- The table with every listed entry changed by f; an entry that becomes its key's default is no longer listed. -/
def tmap {α : Type} [DecidableEq α] (d : Nat → α) (f : α → α) (t : Tab α) : Tab α :=
  (t.map fun e => (e.1, f e.2)).filter fun e => decide (e.2 ≠ d e.1)

/-- Whether a memory is in canonical form: addresses strictly rising, no listed byte equal to 0. -/
def Memory.wf (m : List Host.Cell) : Bool := twf (fun _ => (0 : BitVec 8)) 0 m

/-- The byte at an address; an unlisted address reads 0 (log 5). -/
def Memory.get (m : List Host.Cell) (a : Nat) : BitVec 8 := tget (fun _ => 0) m a

/-- The memory with one byte written. -/
def Memory.put (m : List Host.Cell) (a : Nat) (v : BitVec 8) : List Host.Cell := tput (fun _ => 0) a v m

/-- The n bytes from address a on, lowest first. -/
def Memory.getN (m : List Host.Cell) (a : Nat) : Nat → List (BitVec 8)
  | 0 => []
  | n + 1 => Memory.get m a :: Memory.getN m (a + 1) n

/-- The memory with the bytes written from address a on. -/
def Memory.putN (m : List Host.Cell) (a : Nat) : List (BitVec 8) → List Host.Cell
  | [] => m
  | v :: t => Memory.putN (Memory.put m a v) (a + 1) t

/-- The 64-bit word whose byte k is bits [8k+7:8k] (log 16). -/
def wordOf : List (BitVec 8) → Nat
  | [] => 0
  | b :: t => b.toNat + 256 * wordOf t

/-- The bytes of a number, lowest first. -/
def bytesOf : Nat → Nat → List (BitVec 8)
  | 0, _ => []
  | n + 1, v => BitVec.ofNat 8 v :: bytesOf n (v / 256)

def Memory.word (m : List Host.Cell) (a : Nat) : BitVec 64 := BitVec.ofNat 64 (wordOf (Memory.getN m a 8))

/-- The memory with byte k of the word at a written for every k that the mask names (R121, R222). -/
def Memory.putMask (m : List Host.Cell) (a : Nat) (mask : BitVec 8) (v : BitVec 64) : Nat → List Host.Cell
  | 0 => m
  | n + 1 =>
    let m' := Memory.putMask m a mask v n
    if mask.getLsbD n then Memory.put m' (a + n) (v.extractLsb' (8 * n) 8) else m'

def Memory.putWord (m : List Host.Cell) (a : Nat) (v : BitVec 64) : List Host.Cell := Memory.putMask m a 0xFF v 8

/-- One bit enters a cyclic redundancy register, most significant bit first. -/
def crcStep {w : Nat} (poly c : BitVec w) (b : Bool) : BitVec w :=
  if c.msb != b then (c <<< 1) ^^^ poly else c <<< 1

/-- The register after a list of bits. -/
def crcReg {w : Nat} (poly init : BitVec w) (l : List Bool) : BitVec w := l.foldl (crcStep poly) init

/-- Bits [n-1:0] of a number, the most significant first. -/
def bitsDown (v : Nat) : Nat → List Bool
  | 0 => []
  | n + 1 => v.testBit n :: bitsDown v n

/-- The bits of a byte string as IEEE 802.3 sends them: each byte from bit 0 upwards. -/
def bitsOfBytes (l : List (BitVec 8)) : List Bool := l.flatMap fun b => (bitsDown b.toNat 8).reverse

/-- The CRC-32 of IEEE 802.3 over a list of bits, the first bit of the result most significant (log 8). -/
def crc32Bits (l : List Bool) : BitVec 32 := ~~~ crcReg 0x04C11DB7#32 0xFFFFFFFF#32 l

/-- The CRC-32 of IEEE 802.3 over a byte string (R354; log 8). -/
def crc32 (l : List (BitVec 8)) : BitVec 32 := (crc32Bits (bitsOfBytes l)).reverse

/-- The word as read, when its check bits say ecc of it (R221). -/
def eccWord (e : Ecc) (w : BitVec 64) : BitVec 64 :=
  match e with
  | .uncorrected f => w ^^^ f
  | _ => w

/-- What the check bits say of the n-th word read. -/
def eccOf : List EccAt → Nat → Ecc
  | [], _ => .ok
  | e :: t, n => if e.word = n then e.ecc else eccOf t n

namespace State

variable (s : State)

/-- The register at a BAR0 offset (R8, R271). -/
def reg (k : Nat) : BitVec 32 := tget resetWord s.regs k

def setReg (k : Nat) (v : BitVec 32) : State := { s with regs := tput resetWord k v s.regs }

/-- Field [hi:lo] of a register. -/
def fld (k hi lo : Nat) : Nat := bits (s.reg k) hi lo

def flag (k i : Nat) : Bool := (s.reg k).getLsbD i

def setFld (k hi lo v : Nat) : State := s.setReg k (setBits (s.reg k) hi lo v)

def setFlag (k i : Nat) (b : Bool) : State := s.setFld k i i (b2n b)

/-- Adds n to a counter field, saturating at its largest value. -/
def count (k hi lo n : Nat) : State := s.setFld k hi lo (min (s.fld k hi lo + n) (2 ^ (hi + 1 - lo) - 1))

/-- One 64-bit number held in a _LO and a _HI register. -/
def pair (lo hi : Nat) : Nat := (s.reg lo).toNat + 2 ^ 32 * (s.reg hi).toNat

/-- An EVT leaves a node for HP with a vector (R266, R273, R291). -/
def evtSend (node vec : Nat) : State :=
  { s with net := s.net ++ [{ pos := node, pk := {
      dx := 0, dy := 0, sx := node % 10, sy := node / 10, mid := 0, ctx := 0, cmd := 8, cls := 2, len := 0, slot := 0, gen := 0,
      addr := BitVec.ofNat 48 (2 ^ 37 + vec % 256), resp := 0, peek := false, q := false, be := 0, data := [] } }] }

/-- The node that raises a vector (R291): below 100 the vector names it; the sequencer stands in the CE's window, the ledger in the
PM's. -/
def irqNode (vec : Nat) : Nat := if vec < 100 then vec else if vec = 100 then ceNode else pmNode

/-- A unit raises its vector. -/
def irq (vec : Nat) : State := s.evtSend (irqNode vec) vec

/-- Raises a vector when the enable holds. -/
def irqIf (b : Bool) (vec : Nat) : State := if b then s.irq vec else s

/-- The answer of a read. -/
def answer (v : BitVec 32) : State := { s with bus := v }

/-- A record as eight words, word 0 lowest (R557). -/
def recordWord (sev cls code node seqno tick cyc det0 det1 det2 : Nat) : BitVec 256 :=
  BitVec.ofNat 256 (
    (sev % 8 * 2 ^ 29 + cls % 256 * 2 ^ 21 + code % 256 * 2 ^ 13 + node % 10 * 2 ^ 9 + node / 10 % 16 * 2 ^ 5)
    + 2 ^ 32 * (seqno % 2 ^ 32) + 2 ^ 64 * (tick % 2 ^ 48) + 2 ^ 128 * (cyc % 2 ^ 48)
    + 2 ^ 176 * (det0 % 2 ^ 16) + 2 ^ 192 * (det1 % 2 ^ 32) + 2 ^ 224 * (det2 % 2 ^ 32))

/-- Whether the ledger has room for a record (R556). -/
def ledgerRoom : Bool :=
  decide (((s.reg Reg.sprLgWr).toNat + 2 ^ 32 - (s.reg Reg.sprLgRd).toNat) % 2 ^ 32 < 16384)

/-- A fault record reaches the ledger, or is counted as lost (R556, R557). node is 10 * y + x of the raising node. -/
def record (sev cls code node det0 det1 det2 : Nat) : State :=
  if s.ledgerRoom then
    let wr := (s.reg Reg.sprLgWr).toNat
    let cyc := if s.seq.run then s.seq.cycle.toNat else 0
    let r := recordWord sev cls code node wr s.us.toNat cyc det0 det1 det2
    let s := { s with ledger := tput (fun _ => 0) (wr % 16384) r s.ledger }
    let s := s.setReg Reg.sprLgWr (BitVec.ofNat 32 (wr + 1))
    s.irqIf (s.flag Reg.sprCtrl 3) 101
  else s.count Reg.sprLgLost 31 0 1

/-- Draws a free value (log 11). -/
def drawn : BitVec 64 := Config.freeValue s.free

/-- Cluster c = 8 * prow + pcol of tile t. -/
def clu (t c : Nat) : Cluster := tget (fun _ => Cluster.empty) s.clus (72 * t + c)

def setClu (t c : Nat) (x : Cluster) : State :=
  { s with clus := tput (fun _ => Cluster.empty) (72 * t + c) x s.clus }

end State

def Cluster.wu (x : Cluster) (w : Nat) : Wu := tget (fun _ => Wu.empty) x.wus w

def Cluster.setWu (x : Cluster) (w : Nat) (u : Wu) : Cluster := { x with wus := tput (fun _ => Wu.empty) w u x.wus }

/-- The arrival queue of an inbound position (R20). -/
def Cluster.queue (x : Cluster) (j : Nat) : List LaneByte := tget (fun _ => []) x.inq j

def Cluster.setQueue (x : Cluster) (j : Nat) (q : List LaneByte) : Cluster :=
  { x with inq := tput (fun _ => []) j q x.inq }

/-- The idle word of a BP (R58). -/
def bpIdle : BitVec 80 := 1

/-- The idle word of a WU (R106). -/
def wuIdle : BitVec 128 := 0x2000000000#128

def Cluster.insAt (x : Cluster) (p k : Nat) : BitVec 80 := tget (fun _ => bpIdle) x.ins (1024 * p + k)

def Cluster.setIns (x : Cluster) (p k : Nat) (w : BitVec 80) : Cluster :=
  { x with ins := tput (fun _ => bpIdle) (1024 * p + k) w x.ins }

/-- The lane table's entry of a slot; 00_0001h where nothing is loaded (R72, R98). -/
def Cluster.laneAt (x : Cluster) (k : Nat) : BitVec 24 := tget (fun _ => 1) x.laneTab k

def Cluster.setLane (x : Cluster) (k : Nat) (w : BitVec 24) : Cluster :=
  { x with laneTab := tput (fun _ => 1) k w x.laneTab }

/-- A row of one of the bit stores. -/
def rowOf {n : Nat} (t : Tab (BitVec n)) (p : Nat) : BitVec n := tget (fun _ => 0) t p

/-- The bit stores with one bit written. -/
def putRowBit {n : Nat} (t : Tab (BitVec n)) (p k : Nat) (b : Bool) : Tab (BitVec n) :=
  tput (fun _ => 0) p (setBit (rowOf t p) k b) t

def Wu.reg (u : Wu) (r : Nat) : BitVec 64 := tget (fun _ => 0) u.r r

def Wu.setR (u : Wu) (r : Nat) (v : BitVec 64) : Wu := { u with r := tput (fun _ => 0) r v u.r }

def Wu.progAt (u : Wu) (k : Nat) : BitVec 128 := tget (fun _ => wuIdle) u.prog k

def Wu.setProg (u : Wu) (k : Nat) (w : BitVec 128) : Wu := { u with prog := tput (fun _ => wuIdle) k w u.prog }

/-- The HBM queue of a WU (R126). -/
def Wu.queue (u : Wu) (q : Nat) : List QEnt := if q = 0 then u.q0 else u.q1

def Wu.setQueue (u : Wu) (q : Nat) (l : List QEnt) : Wu := if q = 0 then { u with q0 := l } else { u with q1 := l }

/-- Key of an output lane. -/
def laneKey (l : LaneId) : Nat :=
  ((((l.kind * 64 + l.tile) * 9 + l.row) * 8 + l.col) * 16 + l.out) * 256 + l.lane

/-- Whether a master has a request that is not answered: sent, held, or not handed over yet (R131). -/
def Master.waiting (x : Master) : Bool := x.slots.any (fun k => k.2.req.isSome) || !x.want.isEmpty || !x.held.isEmpty

/-- The interface without the requests that have not left it, and without what it collected and the violations it keeps. -/
def Master.emptied (x : Master) : Master := { x with bad := none, viols := [], held := [], want := [], collected := [] }

namespace State

variable (s : State)

def lane (l : LaneId) : Lane := tget (fun _ => Lane.empty) s.lanes (laneKey l)

def setLane (l : LaneId) (x : Lane) : State := { s with lanes := tput (fun _ => Lane.empty) (laneKey l) x s.lanes }

def bank (t b : Nat) : Bank := tget (fun _ => Bank.empty) s.banks (16 * t + b)

def setBank (t b : Nat) (x : Bank) : State := { s with banks := tput (fun _ => Bank.empty) (16 * t + b) x s.banks }

/-- Address of a scratchpad word in the model's flat scratchpad memory (R205). -/
def spAddr (t b w : Nat) : Nat := 2 ^ 22 * t + 2 ^ 18 * b + 8 * w

def spWord (t b w : Nat) : BitVec 64 := Memory.word s.spad (spAddr t b w)

def setSpWord (t b w : Nat) (mask : BitVec 8) (v : BitVec 64) : State :=
  { s with spad := Memory.putMask s.spad (spAddr t b w) mask v 8 }

def master (node mid : Nat) : Master := tget (fun _ => Master.empty) s.masters (1024 * node + mid)

def setMaster (node mid : Nat) (m : Master) : State :=
  { s with masters := tput (fun _ => Master.empty) (1024 * node + mid) m s.masters }

def tile (t : Nat) : Tile := tget (fun _ => Tile.empty) s.tiles t

def setTile (t : Nat) (x : Tile) : State := { s with tiles := tput (fun _ => Tile.empty) t x s.tiles }

def port (p : Nat) : Port := tget (fun _ => Port.empty) s.ports p

def setPort (p : Nat) (x : Port) : State := { s with ports := tput (fun _ => Port.empty) p x s.ports }

/-- Steps that a tile has completed in the present window of R36. -/
def stepsOf (t : Nat) : Nat := tget (fun _ => 0) s.steps t

/-- A tile completes n more steps (R36). -/
def addSteps (t n : Nat) : State := { s with steps := tput (fun _ => 0) t (s.stepsOf t + n) s.steps }

/-- Emulated cycle parity CP (R17, R33): bit 0 of the count, which alternates across the wrap. -/
def par : Bool := s.seq.cycle.getLsbD 0

/-- The schedule length L of the loaded image (R13, R43); 0 until one has loaded. -/
def len : Nat := 64 * s.fld Reg.seqCtrl 12 8

end State

/-- A place of a lane. -/
def Lane.place (x : Lane) (i : Nat) : Option Held := tget (fun _ => none) x.places i

def Lane.setPlace (x : Lane) (i : Nat) (h : Option Held) : Lane :=
  { x with places := tput (fun _ => none) i h x.places }

/-- A merge entry; entries nothing has written read 0 (R168; log 4). -/
def Lane.entry (x : Lane) (i : Nat) : BitVec 16 := tget (fun _ => 0) x.ent i

end Sys2Proof.Machine
end

