-- ==== Sys2Proof/Machine/Crypto.lean ====
section
/-! DEFINITION. The cryptographic functions that the spec takes from published standards: SHA-384 (FIPS 180-4), HMAC-SHA-384 (FIPS
198-1), AES-256 (FIPS 197), AES key wrap (NIST SP 800-38F), AES-256-GCM (NIST SP 800-38D) and ECDSA over P-384 (FIPS 186-5), as
R363 to R367 and R490 use them. All of them compute on natural numbers. -/

namespace Sys2Proof.Machine

/-! ### Bytes, most significant first (R354) -/

def beNat (l : List (BitVec 8)) : Nat := l.foldl (fun n b => 256 * n + b.toNat) 0

/-- The n bytes from byte a on, as a number. -/
def fieldBE (l : List (BitVec 8)) (a n : Nat) : Nat := beNat ((l.drop a).take n)

/-- The low n bytes of a number, most significant first. -/
def beBytes (n v : Nat) : List (BitVec 8) := (bytesOf n v).reverse

/-- The first n pieces of k elements of a list. -/
def chunks {α : Type} (k : Nat) : Nat → List α → List (List α)
  | 0, _ => []
  | n + 1, l => l.take k :: chunks k n (l.drop k)

/-- A function of a number that is computed first; it is the function of the number (forced_eq). -/
def forced {α : Type} (v : Nat) (f : Nat → α) : α :=
  match v with
  | 0 => f 0
  | n + 1 => f (n + 1)

@[simp] theorem forced_eq {α : Type} (v : Nat) (f : Nat → α) : forced v f = f v := by cases v <;> rfl

/-! ### SHA-384 (FIPS 180-4) -/

/-- A 64-bit word rotated right. -/
def rotr64 (x k : Nat) : Nat := (x >>> k ||| x <<< (64 - k)) % 2 ^ 64

def shaSum0 (x : Nat) : Nat := (rotr64 x 28 ^^^ rotr64 x 34) ^^^ rotr64 x 39
def shaSum1 (x : Nat) : Nat := (rotr64 x 14 ^^^ rotr64 x 18) ^^^ rotr64 x 41
def shaLow0 (x : Nat) : Nat := (rotr64 x 1 ^^^ rotr64 x 8) ^^^ (x >>> 7)
def shaLow1 (x : Nat) : Nat := (rotr64 x 19 ^^^ rotr64 x 61) ^^^ (x >>> 6)

/-- The 80 round constants. -/
def shaK : List Nat :=
  [0x428a2f98d728ae22, 0x7137449123ef65cd, 0xb5c0fbcfec4d3b2f, 0xe9b5dba58189dbbc, 0x3956c25bf348b538,
   0x59f111f1b605d019, 0x923f82a4af194f9b, 0xab1c5ed5da6d8118, 0xd807aa98a3030242, 0x12835b0145706fbe,
   0x243185be4ee4b28c, 0x550c7dc3d5ffb4e2, 0x72be5d74f27b896f, 0x80deb1fe3b1696b1, 0x9bdc06a725c71235,
   0xc19bf174cf692694, 0xe49b69c19ef14ad2, 0xefbe4786384f25e3, 0x0fc19dc68b8cd5b5, 0x240ca1cc77ac9c65,
   0x2de92c6f592b0275, 0x4a7484aa6ea6e483, 0x5cb0a9dcbd41fbd4, 0x76f988da831153b5, 0x983e5152ee66dfab,
   0xa831c66d2db43210, 0xb00327c898fb213f, 0xbf597fc7beef0ee4, 0xc6e00bf33da88fc2, 0xd5a79147930aa725,
   0x06ca6351e003826f, 0x142929670a0e6e70, 0x27b70a8546d22ffc, 0x2e1b21385c26c926, 0x4d2c6dfc5ac42aed,
   0x53380d139d95b3df, 0x650a73548baf63de, 0x766a0abb3c77b2a8, 0x81c2c92e47edaee6, 0x92722c851482353b] ++
  [0xa2bfe8a14cf10364, 0xa81a664bbc423001, 0xc24b8b70d0f89791, 0xc76c51a30654be30, 0xd192e819d6ef5218,
   0xd69906245565a910, 0xf40e35855771202a, 0x106aa07032bbd1b8, 0x19a4c116b8d2d0c8, 0x1e376c085141ab53,
   0x2748774cdf8eeb99, 0x34b0bcb5e19b48a8, 0x391c0cb3c5c95a63, 0x4ed8aa4ae3418acb, 0x5b9cca4f7763e373,
   0x682e6ff3d6b2b8a3, 0x748f82ee5defb2fc, 0x78a5636f43172f60, 0x84c87814a1f0ab72, 0x8cc702081a6439ec,
   0x90befffa23631e28, 0xa4506cebde82bde9, 0xbef9a3f7b2c67915, 0xc67178f2e372532b, 0xca273eceea26619c,
   0xd186b8c721c0c207, 0xeada7dd6cde0eb1e, 0xf57d4f7fee6ed178, 0x06f067aa72176fba, 0x0a637dc5a2c898a6,
   0x113f9804bef90dae, 0x1b710b35131c471b, 0x28db77f523047d84, 0x32caab7b40c72493, 0x3c9ebe0a15c9bebc,
   0x431d67c49c100d4c, 0x4cc5d4becb3e42b6, 0x597f299cfc657e2a, 0x5fcb6fab3ad6faec, 0x6c44198c4a475817]

/-- The initial hash value of SHA-384. -/
def shaInit : List Nat :=
  [0xcbbb9d5dc1059ed8, 0x629a292a367cd507, 0x9159015a3070dd17, 0x152fecd8f70e5939, 0x67332667ffc00b31,
   0x8eb44a8768581511, 0xdb0c2e0d64f98fa7, 0x47b5481dbefa4fa4]

/-- The message schedule, its newest word first: n more words. -/
def shaSchedule : Nat → List Nat → List Nat
  | 0, w => w
  | n + 1, w =>
    forced ((shaLow1 (w.getD 1 0) + w.getD 6 0 + shaLow0 (w.getD 14 0) + w.getD 15 0) % 2 ^ 64) fun x => shaSchedule n (x :: w)

/-- The rounds of a block on the eight working variables a to h, one for each constant and schedule word. -/
def shaRounds : List Nat → List Nat → List Nat → List Nat
  | k :: ks, w :: ws, [a, b, c, d, e, f, g, h] =>
    forced (h + shaSum1 e + ((e &&& f) ^^^ ((2 ^ 64 - 1 - e) &&& g)) + k + w) fun t1 =>
    forced ((t1 + (shaSum0 a + (((a &&& b) ^^^ (a &&& c)) ^^^ (b &&& c)))) % 2 ^ 64) fun a' =>
    forced ((d + t1) % 2 ^ 64) fun e' => shaRounds ks ws [a', a, b, c, e', e, f, g]
  | _, _, v => v

/-- The hash value after a block of 128 bytes. -/
def shaBlock (h : List Nat) (b : List (BitVec 8)) : List Nat :=
  let w := (shaSchedule 64 ((chunks 8 16 b).map beNat).reverse).reverse
  (h.zip (shaRounds shaK w h)).map fun p => (p.1 + p.2) % 2 ^ 64

/-- SHA-384 of a byte string. -/
def sha384 (l : List (BitVec 8)) : BitVec 384 :=
  let n := (l.length + 144) / 128
  let m := l ++ (0x80#8 :: List.replicate (128 * n - l.length - 17) 0) ++ beBytes 16 (8 * l.length)
  let h := (chunks 128 n m).foldl shaBlock shaInit
  BitVec.ofNat 384 ((h.take 6).foldl (fun a x => 2 ^ 64 * a + x) 0)

/-- HMAC-SHA-384 under a 256-bit key (FIPS 198-1). -/
def hmacSha384 (k : BitVec 256) (l : List (BitVec 8)) : BitVec 384 :=
  let key := beBytes 32 k.toNat ++ List.replicate 96 0
  sha384 (key.map (fun b => b ^^^ 0x5C) ++ beBytes 48 (sha384 (key.map (fun b => b ^^^ 0x36) ++ l)).toNat)

/-! ### AES-256 (FIPS 197) -/

/-- The S-box and its inverse as tables: byte i of the number is the value at i. -/
def aesSboxTable : Nat :=
  0x16bb54b00f2d99416842e6bf0d89a18cdf2855cee9871e9b948ed9691198f8e19e1dc186b95735610ef6034866b53e708a8bbd4b1f74dde8c6b4a61c2e2578ba08ae7a65eaf4566ca94ed58d6d37c8e779e4959162acd3c25c2406490a3a32e0db0b5ede14b8ee4688902a22dc4f816073195d643d7ea7c41744975fec130ccdd2f3ff1021dab6bcf5389d928f40a351a89f3c507f02f94585334d43fbaaefd0cf584c4a39becb6a5bb1fc20ed00d153842fe329b3d63b52a05a6e1b1a2c830975b227ebe28012079a059618c323c7041531d871f1e5a534ccf73f362693fdb7c072a49cafa2d4adf04759fa7dc982ca76abd7fe2b670130c56f6bf27b777c63
def aesInvSboxTable : Nat :=
  0x7d0c2155631469e126d677ba7e042b17619953833cbbebc8b0f52aae4d3be0a0ef9cc9939f7ae52d0d4ab519a97f51605fec8027591012b131c7078833a8dd1ff45acd78fec0db9a2079d2c64b3e56fc1bbe18aa0e62b76f89c5291d711af1476edf751ce837f9e28535ade72274ac9673e6b4f0cecff297eadc674f4111913a6b8a130103bdafc1020f3fca8f1e2cd00645b3b80558e4f70ad3bc8c00abd890849d8da75746155edab9edfd5048706c92b6655dcc5ca4d41698688664f6f87225d18b6d49a25b76b224d92866a12e084ec3fa420b954cee3d23c2a632947b54cbe9dec444438e3487ff2f9b8239e37cfbd7f3819ea340bf38a53630d56a0952

def aesSbox (b : Nat) : Nat := aesSboxTable >>> (8 * b) % 256
def aesInvSbox (b : Nat) : Nat := aesInvSboxTable >>> (8 * b) % 256

/-- Multiplication by x in the field of AES. -/
def aesTwice (b : Nat) : Nat := if b < 128 then 2 * b else (2 * b) ^^^ 0x11B

/-- The product of a byte and a small factor in the field of AES; n bits of the factor count. -/
def aesMul : Nat → Nat → Nat → Nat
  | 0, _, _ => 0
  | n + 1, a, b => (if b % 2 = 1 then a else 0) ^^^ (forced (aesTwice a) fun a => aesMul n a (b / 2))

def xorBytes (a b : List Nat) : List Nat := a.zipWith (fun x y => x ^^^ y) b

/-- ShiftRows and its inverse on the 16 bytes of the state, column by column. -/
def aesShift (s : List Nat) : List Nat := (List.range 16).map fun i => s.getD ((i + 4 * (i % 4)) % 16) 0
def aesInvShift (s : List Nat) : List Nat := (List.range 16).map fun i => s.getD ((i + 12 * (i % 4)) % 16) 0

/-- A column times the circulant matrix whose first row is m. -/
def aesColumn (m c : List Nat) : List Nat :=
  (List.range 4).map fun r => (List.range 4).foldl (fun x k => x ^^^ (forced (c.getD k 0) fun a => forced (m.getD ((k + 4 - r) % 4) 0) (aesMul 4 a))) 0

def aesMix (m s : List Nat) : List Nat := (chunks 4 4 s).flatMap (aesColumn m)

/-- The key schedule, its newest word first: n more words, the next of which has index i. -/
def aesExpand : Nat → Nat → List (List Nat) → List (List Nat)
  | 0, _, w => w
  | n + 1, i, w =>
    let p := w.headD []
    let t :=
      if i % 8 = 0 then xorBytes ((p.drop 1 ++ p.take 1).map aesSbox) [2 ^ (i / 8 - 1), 0, 0, 0]
      else if i % 8 = 4 then p.map aesSbox
      else p
    aesExpand n (i + 1) (xorBytes (w.getD 7 []) t :: w)

/-- The bytes of a number, most significant first. -/
def natBytes (n v : Nat) : List Nat := (beBytes n v).map fun b => b.toNat

/-- The number that bytes spell, most significant first. -/
def bytesNat (l : List Nat) : Nat := l.foldl (fun a b => 256 * a + b) 0

/-- The 15 round keys. -/
def aesKeys (k : BitVec 256) : List (List Nat) :=
  let w := (aesExpand 52 8 (chunks 4 8 (natBytes 32 k.toNat)).reverse).reverse
  (chunks 4 15 w).map fun l => l.flatMap id

/-- The rounds after the first key has been added; the last one mixes no columns. -/
def aesRounds : List (List Nat) → Nat → Nat
  | [], s => s
  | [k], s => bytesNat (xorBytes (aesShift ((natBytes 16 s).map aesSbox)) k)
  | k :: ks, s =>
    forced (bytesNat (xorBytes (aesMix [2, 3, 1, 1] (aesShift ((natBytes 16 s).map aesSbox))) k)) (aesRounds ks)

/-- A block is encrypted under expanded keys. -/
def aesEncrypt (ks : List (List Nat)) (b : Nat) : Nat :=
  match ks with
  | [] => b
  | k :: ks => aesRounds ks (b ^^^ bytesNat k)

/-- The inverse rounds, from the last key down. -/
def aesInvRounds : List (List Nat) → Nat → Nat
  | [], s => s
  | [k], s => bytesNat (xorBytes ((aesInvShift (natBytes 16 s)).map aesInvSbox) k)
  | k :: ks, s =>
    forced (bytesNat (aesMix [14, 11, 13, 9] (xorBytes ((aesInvShift (natBytes 16 s)).map aesInvSbox) k))) (aesInvRounds ks)

/-- A block is decrypted under expanded keys. -/
def aesDecrypt (ks : List (List Nat)) (b : Nat) : Nat :=
  match ks.reverse with
  | [] => b
  | k :: ks => aesInvRounds ks (b ^^^ bytesNat k)

/-! ### AES key wrap (NIST SP 800-38F) -/

/-- The steps of the unwrap from number n down, on the register A and the four 64-bit registers R. -/
def unwrapSteps (ks : List (List Nat)) : Nat → Nat → List Nat → Nat × List Nat
  | 0, a, r => (a, r)
  | n + 1, a, r =>
    let i := n % 4
    forced (aesDecrypt ks ((a ^^^ (n + 1)) * 2 ^ 64 + r.getD i 0)) fun b => unwrapSteps ks n (b / 2 ^ 64) (r.set i (b % 2 ^ 64))

/-- The 256-bit key that a wrapped value of 320 bits holds, when its integrity check passes. -/
def aesUnwrap (k : BitVec 256) (w : BitVec 320) : Option (BitVec 256) :=
  let v := w.toNat
  let r := unwrapSteps (aesKeys k) 24 (v / 2 ^ 256) ((List.range 4).map fun i => v / 2 ^ (64 * (3 - i)) % 2 ^ 64)
  if r.1 = 0xA6A6A6A6A6A6A6A6 then some (BitVec.ofNat 256 (r.2.foldl (fun a x => 2 ^ 64 * a + x) 0)) else none

/-! ### AES-256-GCM (NIST SP 800-38D) -/

/-- The product of two blocks: n bits of the first, the most significant first; v is the second times x to the bits passed. -/
def ghashMul : Nat → Nat → Nat → Nat → Nat
  | 0, _, _, z => z
  | n + 1, x, v, z =>
    ghashMul n x (if v % 2 = 0 then v / 2 else (v / 2) ^^^ (0xE1 * 2 ^ 120)) (if x.testBit n then z ^^^ v else z)

/-- A byte string as blocks, the last one padded with zeros. -/
def gcmBlocks (l : List (BitVec 8)) : List Nat :=
  (chunks 16 ((l.length + 15) / 16) l).map fun b => beNat (b ++ List.replicate (16 - b.length) 0)

def ghash (h : Nat) (l : List Nat) : Nat := l.foldl (fun y b => ghashMul 128 (y ^^^ b) h 0) 0

/-- The plain text of a ciphertext under key, IV and additional data, when the tag holds. -/
def aesGcmOpen (k : BitVec 256) (iv : BitVec 96) (aad c : List (BitVec 8)) (tag : BitVec 128) : Option (List (BitVec 8)) :=
  let ks := aesKeys k
  let h := aesEncrypt ks 0
  let g := ghash h (gcmBlocks aad ++ gcmBlocks c ++ [8 * aad.length * 2 ^ 64 + 8 * c.length])
  let pad := fun (i : Nat) => aesEncrypt ks (iv.toNat * 2 ^ 32 + (i + 1) % 2 ^ 32)
  if g ^^^ pad 0 = tag.toNat then
    some (((gcmBlocks c).zipIdx.flatMap fun p => beBytes 16 (p.1 ^^^ pad (p.2 + 1))).take c.length)
  else none

/-! ### ECDSA over P-384 (FIPS 186-5) -/

/-- The prime, the order, the constant b and the base point of P-384. -/
def ecP : Nat := 0xfffffffffffffffffffffffffffffffffffffffffffffffffffffffffffffffeffffffff0000000000000000ffffffff
def ecN : Nat := 0xffffffffffffffffffffffffffffffffffffffffffffffffc7634d81f4372ddf581a0db248b0a77aecec196accc52973
def ecB : Nat := 0xb3312fa7e23ee7e4988e056be3f82d19181d9c6efe8141120314088f5013875ac656398d8a2ed19d2a85c8edd3ec2aef
def ecGx : Nat := 0xaa87ca22be8b05378eb1c71ef320ad746e1d3b628ba79b9859f741e082542a385502f25dbf55296c3a545e3872760ab7
def ecGy : Nat := 0x3617de4a96262c6f5d9e98bf9292dc29f8f41dbd289a147ce9da3113b5f0b8c00a60b1ce1d7e819d7a431d7c90ea0e5f

/-- a - b modulo m, for a and b below m. -/
def subMod (m a b : Nat) : Nat := (a + m - b) % m

/-- b to the power e modulo m; n bits of e count. -/
def powMod (m b e : Nat) : Nat → Nat
  | 0 => 1
  | n + 1 =>
    let r := powMod m b (e / 2) n
    if e % 2 = 1 then r * r % m * b % m else r * r % m

/-- A point in Jacobian coordinates: (x / z^2, y / z^3); z = 0 is the point at infinity. -/
structure EcPoint where
  x : Nat
  y : Nat
  z : Nat
deriving DecidableEq, Repr

def EcPoint.twice (a : EcPoint) : EcPoint :=
  let d := a.z * a.z % ecP
  let g := a.y * a.y % ecP
  let b := a.x * g % ecP
  let m := 3 * (subMod ecP a.x d * (a.x + d)) % ecP
  let x := subMod ecP (m * m % ecP) (8 * b % ecP)
  { x := x, y := subMod ecP (m * subMod ecP (4 * b % ecP) x % ecP) (8 * (g * g) % ecP), z := 2 * (a.y * a.z) % ecP }

def EcPoint.add (a b : EcPoint) : EcPoint :=
  if a.z = 0 then b
  else if b.z = 0 then a
  else
    let za := a.z * a.z % ecP
    let zb := b.z * b.z % ecP
    let u := a.x * zb % ecP
    let v := b.x * za % ecP
    let s := a.y * (zb * b.z % ecP) % ecP
    let t := b.y * (za * a.z % ecP) % ecP
    if u = v then (if s = t then a.twice else ⟨1, 1, 0⟩)
    else
      let h := subMod ecP v u
      let r := subMod ecP t s
      let h2 := h * h % ecP
      let h3 := h2 * h % ecP
      let w := u * h2 % ecP
      let x := subMod ecP (subMod ecP (r * r % ecP) h3) (2 * w % ecP)
      { x := x, y := subMod ecP (r * subMod ecP w x % ecP) (s * h3 % ecP), z := h * (a.z * b.z % ecP) % ecP }

/-- A function of a point whose coordinates are computed first. -/
def EcPoint.forced {α : Type} (a : EcPoint) (f : EcPoint → α) : α :=
  Machine.forced a.x fun x => Machine.forced a.y fun y => Machine.forced a.z fun z => f ⟨x, y, z⟩

@[simp] theorem EcPoint.forced_eq {α : Type} (a : EcPoint) (f : EcPoint → α) : a.forced f = f a := by simp [EcPoint.forced]

/-- k times a point; n bits of k count. -/
def EcPoint.mul (a : EcPoint) (k : Nat) : Nat → EcPoint
  | 0 => ⟨1, 1, 0⟩
  | n + 1 =>
    (EcPoint.mul a (k / 2) n).forced fun r => r.twice.forced fun r => if k % 2 = 1 then r.add a else r

/-- Whether (r, s) is a valid signature of a hash under the public key (x, y), which must be a point of the curve. -/
def ecdsaOk (pub : BitVec 768) (hash : BitVec 384) (sig : BitVec 768) : Bool :=
  let x := pub.toNat / 2 ^ 384
  let y := pub.toNat % 2 ^ 384
  let r := sig.toNat / 2 ^ 384
  let s := sig.toNat % 2 ^ 384
  let onCurve := decide (x < ecP) && decide (y < ecP) && y * y % ecP == (x * x % ecP * x + (ecP - 3) * x + ecB) % ecP
  if onCurve && decide (0 < r ∧ r < ecN ∧ 0 < s ∧ s < ecN) then
    let w := powMod ecN s (ecN - 2) 384
    let u := hash.toNat % ecN * w % ecN
    let v := r * w % ecN
    let p := forced u fun u => forced v fun v => ((EcPoint.mul ⟨ecGx, ecGy, 1⟩ u 384).add (EcPoint.mul ⟨x, y, 1⟩ v 384))
    let z := powMod ecP p.z (ecP - 2) 384
    p.z != 0 && p.x * (z * z % ecP) % ecP % ecN == r
  else false

end Sys2Proof.Machine
end

