-- ==== Sys2Proof/Machine/Run.lean ====
section
/-! DEFINITION. What takes part in the run, what holds it, and what a fault of the sequencer records (R26 to R51). -/

namespace Sys2Proof.Machine

/-- Position of last row y when the tile skips physical row r (R159). -/
def physRow (r y : Nat) : Nat := if y < r then y else y + 1

/-- Physical BP of last BP n, or physical WU of last WU n, when the units of the ascending list are skipped (R52). -/
def physUnit (skips : List Nat) (n : Nat) : Nat := skips.foldl (fun p k => if k ≤ p then p + 1 else p) n

/-- Last index of a physical unit that is not skipped (R52). -/
def lastUnit (skips : List Nat) (p : Nat) : Nat := p - (skips.filter fun k => k < p).length

namespace State

variable (s : State)

/-- The BPs a cluster skips, in ascending order (R91). -/
def bpSkips (t c : Nat) : List Nat :=
  let m := s.reg (Reg.cluMap t c)
  [bits m 6 0, bits m 13 7, bits m 20 14, bits m 27 21]

/-- The WU a cluster skips (R91). -/
def wuSkip (t c : Nat) : Nat := s.fld (Reg.cluMap t c) 30 28

/-- RGN_STAT.STATE of a tile: 0 EMPTY, 1 ACTIVE, 2 RELOAD, 3 PARKED (R405, R421). -/
def rgnState (t : Nat) : Nat := s.fld (Reg.rgnStat t) 31 30

/-- Whether a tile takes part in the gather (R28, R405). -/
def tileActive (t : Nat) : Bool := s.rgnState t == 1

/-- Whether the region of a tile is out of the image: parked or under reconfiguration (R405). -/
def tileOut (t : Nat) : Bool := s.rgnState t == 2 || s.rgnState t == 3

/-- Whether the region of a tile is parked (R85, R405). -/
def tileParked (t : Nat) : Bool := s.rgnState t == 3

/-- Whether a physical cluster takes part in the running image. -/
def takesPart (t c : Nat) : Bool := s.tileActive t && s.flag (Reg.cluId t c) 13

/-- SEQ_STAT.STATE: 0 IDLE, 1 RUNNING, 2 MIDNIGHT, 3 HALTED, 4 FAULTED (R44). -/
def seqState : Nat :=
  if s.seq.faulted then 4
  else if s.flag Reg.dbgStat 31 then 3
  else if s.seq.midnight then 2
  else if s.seq.run then 1
  else 0

/-- Steps that a cluster has completed in the current cycle: L once it has completed step L - 1. -/
def stepsDone (x : Cluster) : Nat := if x.done then s.len else x.step

/-- The smallest f over a range among those that p names; d where none. -/
def minOver (p : Nat → Bool) (f : Nat → Nat) (d : Nat) : Nat → Nat
  | 0 => d
  | n + 1 => if p n then min (f n) (minOver p f d n) else minOver p f d n

/-- Steps that every participating cluster of a tile has completed (R50). A tile none of whose clusters takes part
reads 0. -/
def tileMin (t : Nat) : Nat :=
  let m := minOver (s.takesPart t) (fun c => s.stepsDone (s.clu t c)) (s.len + 1) 72
  if m > s.len then 0 else m

/-- SEQ_STAT.MINSTEP (R44). -/
def minStep : Nat :=
  if !s.seq.run then 0
  else if s.seq.midnight then s.len
  else
    let m := minOver s.tileActive s.tileMin (s.len + 1) 64
    if m > s.len then 0 else m

/-- Whether every participating cluster has completed step L - 1 (R27 step 3). -/
def allDone : Bool :=
  (List.range 64).all fun t => !s.tileActive t ||
    (List.range 72).all fun c => !s.takesPart t c || (s.clu t c).done

/-- MID of a WU's master interface (R275). -/
def wuMid (c pw : Nat) : Nat := 5 * c + pw

def wuMaster (t c pw : Nat) : Master := s.master (tileNode t) (wuMid c pw)

/-- Whether a point names a midnight (R493). -/
def atMidnight (p : HaltPt) : Bool := decide (s.len ≤ p.step)

/-- Whether cycle a lies before cycle b, across the wrap of the count (R33). -/
def cycBefore (a b : BitVec 48) : Bool := decide (a ≠ b) && decide ((b - a).toNat < 2 ^ 47)

/-- Whether a point holds a cluster before step st of the current cycle (R494): a cluster that has begun the step of the
point holds before its next one. -/
def pointHolds (p : HaltPt) (st : Nat) : Bool :=
  !s.atMidnight p && ((p.cyc == s.seq.cycle && decide (p.step ≤ st)) || cycBefore p.cyc s.seq.cycle)

/-- Every point in force, the target of STEP or CYCLE included. -/
def haltPoints : List HaltPt :=
  s.dbg.points ++ (match s.dbg.target with
    | none => []
    | some p => [p])

/-- Whether run control holds a cluster before its next step (R21, R26, R124, R494 to R497, R581): its own fault, a halt
in force or complete, the stall fault, an over-temperature stop, or a frozen WU. -/
def runHeld (t c : Nat) (x : Cluster) : Bool :=
  x.faulted || s.seq.stalled || s.overt || s.dbg.now || s.dbg.reached.isSome || s.flag Reg.dbgStat 31 ||
  s.haltPoints.any (fun p => s.pointHolds p x.step) ||
  (List.range 5).any fun w => (s.wuMaster t c w).frozen

/-- Whether a cluster may begin its next step as far as the run is concerned: the wave has started, the cluster takes
part, and it has not completed the cycle (R27, R51). -/
def inWave (t c : Nat) (x : Cluster) : Bool :=
  s.seq.run && !s.seq.midnight && s.takesPart t c && !x.done && decide (x.step < s.len)

/-- A record of R40 names the first last tile in SEQ_FAULT while FTV is 0 (R41). -/
def nameTile (tile : Option (Nat × Nat)) (stored : Bool) : State :=
  match tile with
  | some (tx, ty) =>
    if stored && !s.flag Reg.seqFault 22 then
      s.setFld Reg.seqFault 22 16 (2 ^ 6 + 2 ^ 3 * (ty % 8) + tx % 8)
    else s
  | none => s

/-- A bit of SEQ_FAULT becomes 1, with its interrupt (R48, R49). -/
def seqFaultBit (b : Nat) : State :=
  let old := s.flag Reg.seqFault b
  (s.setFlag Reg.seqFault b true).irqIf (!old && s.flag Reg.seqIrq b) 100

/-- A sequencer fault of R40 is reported: its record, its bit, its last tile. -/
def seqReport (b code node : Nat) (tile : Option (Nat × Nat)) (det0 det1 det2 : Nat) : State :=
  let room := s.ledgerRoom
  ((s.record 2 1 code node det0 det1 det2).seqFaultBit b).nameTile tile room

/-- The run stops and cannot be resumed (R26). -/
def stopRun : State := { s with seq := { s.seq with faulted := s.seq.run || s.seq.faulted } }

/-- Last coordinates of a tile, when it holds a last tile (R202). -/
def lastTile (t : Nat) : Option (Nat × Nat) :=
  if s.flag (Reg.tilePlace t) 31 then some (s.fld (Reg.tilePlace t) 29 27, s.fld (Reg.tilePlace t) 26 24) else none

/-- The cluster word of R586 without its bits [9:0]. -/
def clusterWord (t c step : Nat) : Nat :=
  s.fld (Reg.tilePlace t) 29 27 * 2 ^ 29 + s.fld (Reg.tilePlace t) 26 24 * 2 ^ 26 +
  s.fld (Reg.cluId t c) 9 7 * 2 ^ 23 + s.fld (Reg.cluId t c) 12 10 * 2 ^ 20 + step % 1024 * 2 ^ 10

/-- The router half of R586 without its bits [8:0]. -/
def routerHalf (c : Nat) : Nat := c / 8 * 2 ^ 12 + c % 8 * 2 ^ 9

/-- Sets a bit of SEQ_LOSS (R38, R49): 0 LIVE, 1 UNBAR, 2 UE, 3 WUERR, 4 TRSTOP, 5 BFAIL. -/
def loss (b : Nat) : State := s.setFlag Reg.seqLoss b true

/-- An uncorrected memory error (R40): record, SEQ_FAULT.UE, and during a run SEQ_LOSS.UE and, with SEQ_CTRL.UEH = 1,
the hold of the next midnight. UEH counts as it stands at the error (DESIGN CHOICE, log 94). -/
def memError (node : Nat) (tile : Option (Nat × Nat)) (det0 det1 det2 : Nat) : State :=
  let running := s.seqState != 0 && s.seqState != 4
  let s := s.seqReport 5 5 node tile det0 det1 det2
  if running then
    let s := s.loss 2
    if s.flag Reg.seqCtrl 4 then { s with seq := { s.seq with uePend := true } } else s
  else s

/-- A cluster stops on a fault (R26, R82, R93): CLU_FAULT takes the first fault, the record is written, the device
becomes FAULTED. bit is 31 SCHED, 30 ORPHAN or 29 IPAR; low is the word of LPOS to STEP. -/
def clusterFault (t c : Nat) (x : Cluster) (b low code sb det0 det1 : Nat) : State :=
  let k := Reg.cluFault t c
  let first := s.fld k 31 29 == 0
  let s := if first then s.setFld k 28 0 low else s
  let s := s.setFlag k b true
  let s := s.setClu t c { x with faulted := true }
  (s.seqReport sb code (tileNode t) (s.lastTile t) det0 det1 0).stopRun

/-- A schedule fault (orphan false) or an orphan fault at an inbound position (R22, R27, R93, R586). -/
def tagFault (t c : Nat) (x : Cluster) (orphan : Bool) (pos step expTag rcvTag : Nat) : State :=
  let e := if orphan then 0 else expTag
  s.clusterFault t c x (if orphan then 30 else 31) (pos * 2 ^ 27 + e * 2 ^ 23 + rcvTag * 2 ^ 19 + step % 1024)
    (if orphan then 2 else 1) (if orphan then 1 else 0)
    (routerHalf c + pos * 2 ^ 7) (s.clusterWord t c step + e * 2 ^ 6 + rcvTag * 2 ^ 2)

/-- An instruction parity fault (R82): unit kind 0 BP, 1 WU, 2 lane table; physical index; slot. -/
def iparFault (t c : Nat) (x : Cluster) (kind idx slot : Nat) : State :=
  s.clusterFault t c x 29 (kind * 2 ^ 17 + idx * 2 ^ 10 + slot % 1024) 3 3
    (routerHalf c + kind * 2 ^ 7) (s.clusterWord t c slot + idx * 2 ^ 3)

/-- Whether a store of a tile may be written now, as an instruction store may (R85, R174): while IDLE, FAULTED, halted,
or with the region parked. -/
def codeWritable (t : Nat) : Bool :=
  s.seqState == 0 || s.seqState == 4 || s.seqState == 3 || s.tileParked t

/-- A write of such a store while HALTED loses the promise (R85). -/
def unbarIfHalted (t : Nat) : State := if s.seqState == 3 && !s.tileParked t then s.loss 1 else s

/-- PWR_DOM_k.STATE: 0 OFF, 1 WAKING, 2 ON, 3 PDOWN, 4 PNR, 5 FENCED, 6 FAILED (R298). -/
def domState (k : Nat) : Nat := s.fld (Reg.pwrDom k) 26 24

/-- A power domain's book-keeping. -/
def pw (k : Nat) : Pwr := tget (fun _ => Pwr.empty) s.pwr k

def setPw (k : Nat) (x : Pwr) : State := { s with pwr := tput (fun _ => Pwr.empty) k x s.pwr }

/-- A request cancels the power-down of an ordinary domain (R287). -/
def cancelDown (k : Nat) : State := (s.setFld (Reg.pwrDom k) 26 24 2).count (Reg.pwrCnt k) 15 0 1

/-- A unit's own access waits for an ordinary domain that has no power: the domain is to wake (R287). -/
def domainCall (k : Nat) : State :=
  match s.domState k with
  | 3 => s.cancelDown k
  | 2 | 6 => s
  | _ => s.setPw k { s.pw k with want := true }

/-- Whether a device reset is in force. -/
def inReset : Bool := s.pkg.por || s.pkg.awl

/-- LNK_STAT.STATE of a port: 0 DOWN, 1 TRAIN, 2 UP, 3 RETRAIN, 4 FAILED, 5 OFF (R332). -/
def lnkState (p : Nat) : Nat := s.fld (Reg.lnkStat p) 31 29

/-- A CTRL record leaves on a port (R323). -/
def ctrlSend (p : Nat) (r : BitVec 64) : State :=
  let x := s.port p
  s.setPort p { x with ctrlOut := x.ctrlOut ++ [r] }

/-- A CTRL record leaves on every UP port but one; 8 leaves out none (R339). -/
def ctrlFlood (but : Nat) (r : BitVec 64) : State :=
  (List.range 8).foldl (fun s p => if p ≠ but ∧ s.lnkState p = 2 then s.ctrlSend p r else s) s

/-- A record of a kind (HALT 2, RESUME 3, UNCLAIM 0Bh) starts a flood here (R339). -/
def floodStart (kind : Nat) (cyc : BitVec 48) : State :=
  let q := s.fab.nextSeq
  let s := { s with fab := { s.fab with nextSeq := (q + 1) % 256, seenSeq := some q } }
  s.ctrlFlood 8 (BitVec.ofNat 64 (kind * 2 ^ 56 + q * 2 ^ 48 + cyc.toNat))

/-- Whether requests are fabric-wide: the device has midnight neighbours, or the command asks for it (R499). -/
def fabWide (asked : Bool) : Bool := asked || s.fld Reg.seqNbr 11 0 != 0

/-- A point joins those armed (R493, R496): a midnight already released becomes the next one, with LATE. keep says that
points of the same cause stay. -/
def armAt (cause : Nat) (cyc : BitVec 48) (step : Nat) (keep : Bool) : State :=
  let late := decide (s.len ≤ step) && s.seq.run && cycBefore cyc s.seq.cycle
  let cyc := if late then s.seq.cycle else cyc
  let s := if late then s.setFlag Reg.dbgStat 28 true else s
  let rest := if keep then s.dbg.points else s.dbg.points.filter fun q => q.cause ≠ cause
  { s with dbg := { s.dbg with points := rest ++ [{ cyc := cyc, step := step, cause := cause }] } }

/-- A halt is requested (R493, R495, R499). On a device with midnight neighbours, or when asked, the halt is flooded, and
a step point, HALTNOW, a comparator halt or a range halt becomes the midnight of the current cycle plus FLEAD. A step
point of the current cycle, while the device stands between local midnight and release, is that midnight. -/
def armPoint (cause : Nat) (cyc : BitVec 48) (step : Nat) (asked keep : Bool) : State :=
  let wide := s.fabWide asked
  let lead := wide && (decide (step < s.len) || cause == 4 || cause == 5)
  let cyc := if lead then s.seq.cycle + BitVec.ofNat 48 (s.fld Reg.dbgCtrl 23 20) else cyc
  let step := if lead || (s.seq.midnight && cyc == s.seq.cycle) then 0x7FF else step
  let s := if wide then (s.floodStart 2 cyc).setFlag Reg.dbgStat 22 true else s
  s.armAt cause cyc step keep

end State

end Sys2Proof.Machine
end

