-- ==== Sys2Proof/Machine/Blocks.lean ====
section
/-! DEFINITION. The erase blocks of the configuration store: where a frame lies (R350, R353), the copies of the directory, the
device record and the repair map (R351), the reads that wear a block (R388), and the blocks retired (R389). A block is named by
the physical block that is its own as delivered, as State.store numbers them (log 81). -/

namespace Sys2Proof.Machine

/-- A page as 4,096 bytes, and back: byte 0 lies in the most significant bits. -/
def pageBytes (w : BitVec 32768) : List (BitVec 8) := beBytes 4096 w.toNat
def pageOf (l : List (BitVec 8)) : BitVec 32768 := BitVec.ofNat 32768 (beNat l)

/-- Frame positions of a slot (R350). -/
def slotSize (k : Nat) : Nat := if k < 2 then 6291456 else 65536

/-- Block n of a region: slots A, B, G0 and G1, then 4 the directory, 5 the device record, 6 the repair map. -/
def homeBlock (region n : Nat) : Nat :=
  if region < 2 then 6144 * region + n
  else if region < 4 then 31744 + 68 * (region - 2) + n
  else 31880 + 5 * (2 * (region - 4) + n)

/-- The region that a block belongs to as delivered; none for a spare or a reserve block. -/
def regionOf (b : Nat) : Option Nat :=
  if b < 12288 then some (b / 6144)
  else if b < 31744 then none
  else if b < 31880 then (if (b - 31744) % 68 < 64 then some (2 + (b - 31744) / 68) else none)
  else if b < 31915 then (if b % 5 = 0 then some (min 6 (4 + (b - 31880) / 10)) else none)
  else none

/-- The physical blocks, as first and number, from which a block that gives way is replaced: the normal region, or the other
copy's region (R353, R389). -/
def blockPool (b : Nat) : Nat × Nat :=
  if b < 31744 then (0, 31744)
  else if b < 31880 then (31744 + 68 * (1 - (b - 31744) / 68), 68)
  else
    let i := (b - 31880) / 5
    (31880 + 5 * (if i = 6 then 4 else if i % 2 = 0 then i + 1 else i - 1), 5)

namespace State

variable (s : State)

/-- The directory's copy that is not in force takes its new content with the next generation (R351). -/
def dirWrite (f : Directory → Directory) : State :=
  let d := f s.store.dir
  { s with store := { s.store with dir := { d with gen := s.store.dir.gen + 1 }, dirPrev := some s.store.dir } }

/-- The device record's, with a new fabric identity (R341, R351, R383). -/
def recordWrite (id : BitVec 64) : State :=
  { s with store := { s.store with record := ⟨s.store.record.gen + 1, some id⟩, recordPrev := some s.store.record } }

/-- State of a slot (R352). -/
def slotState (k : Nat) : Nat := tget (fun _ => 0) s.store.dir.slot k

/-- The physical block that stands for a block (R353, R389). -/
def blockOf (h : Nat) : Nat := tget (fun h => h) s.store.dir.bmap h

/-- The block that a physical block stands for, if any. -/
def blockAt (q : Nat) : Option Nat :=
  if (regionOf q).isSome && s.blockOf q == q then some q
  else (s.store.dir.bmap.find? fun e => e.2 == q).map fun e => e.1

/-- Whether a physical block is in use for a region. -/
def inRegion (k q : Nat) : Bool := (s.blockAt q).any fun h => regionOf h == some k

/-- Whether a physical block is spare: it stands for no block and is not retired. -/
def blockFree (q : Nat) : Bool := (s.blockAt q).isNone && !s.store.dir.bad.contains q

/-- Spare blocks of the normal region (R353, R396). -/
def spareCount : Nat := 19456 - (s.store.dir.bad.filter fun q => decide (q < 31744)).length

/-- The first spare block of a pool from its i-th on, in turn; n bounds the search. -/
def firstFree (lo size : Nat) : Nat → Nat → Option Nat
  | 0, _ => none
  | n + 1, i => if s.blockFree (lo + i % size) then some (lo + i % size) else firstFree lo size n (i + 1)

/-- A spare block that can stand for a physical block. The CE spreads writes over the region by no stated rule (R353): which one
it takes is a free value (log 81). -/
def freshBlock (q : Nat) : Option Nat :=
  let p := blockPool q
  s.firstFree p.1 p.2 p.2 s.drawn.toNat

/-- The content of one physical block moves to another, whose reads start anew. -/
def movePages (a b : Nat) : State :=
  let moved := s.store.pages.filter fun e => e.1 / 1024 == a
  let rest := tdrop (fun k => k / 1024 == a || k / 1024 == b) s.store.pages
  { s with store := { s.store with
      pages := moved.foldl (fun m e => tput (fun _ => none) (1024 * b + e.1 % 1024) e.2 m) rest,
      reads := tput (fun _ => 0) b 0 (tput (fun _ => 0) a 0 s.store.reads) } }

/-- A block gives up its physical block for a spare one; nothing changes where there is none. -/
def moveBlock (h : Nat) : State :=
  match s.freshBlock (s.blockOf h) with
  | some q => { (s.movePages (s.blockOf h) q).dirWrite (fun d => { d with bmap := tput (fun h => h) h q d.bmap }) with free := s.free + 1 }
  | none => s

/-- Page n of a region. -/
def page (region n : Nat) : Option (BitVec 32768) :=
  tget (fun _ => none) s.store.pages (1024 * s.blockOf (homeBlock region (n / 1024)) + n % 1024)

/-- Page n of a region is written; its block's reads since a write start anew (R388). -/
def putPage (region n : Nat) (w : BitVec 32768) : State :=
  let q := s.blockOf (homeBlock region (n / 1024))
  { s with store := { s.store with pages := tput (fun _ => none) (1024 * q + n % 1024) (some w) s.store.pages,
                                   reads := tput (fun _ => 0) q 0 s.store.reads } }

/-! ### Reads and retirement (R387 to R389) -/

/-- A block is copied to a fresh one, and counted (R387, R388). -/
def relocate (h : Nat) : State := (s.moveBlock h).count Reg.cePatrol 31 16 1

/-- A page of a block is read: a block read 100,000 times is copied first (R388). -/
def countRead (h : Nat) : State :=
  let s := if 100000 ≤ tget (fun _ => 0) s.store.reads (s.blockOf h) then s.relocate h else s
  let q := s.blockOf h
  { s with store := { s.store with reads := tput (fun _ => 0) q (tget (fun _ => 0) s.store.reads q + 1) s.store.reads } }

/-- The first n pages of a slot are read. -/
def countReads (slot n : Nat) : State := (List.range n).foldl (fun s k => s.countRead (homeBlock slot (k / 1024))) s

/-- A physical block fails and is retired: its pages move to a spare block, the directory notes it, and it has its record, with
one more when fewer than 512 spare blocks remain for the first time (R389, R586). -/
def retireBlock (q : Nat) : State :=
  if s.store.dir.bad.contains q then s
  else
    let low := decide (s.spareCount < 512)
    let s := match s.blockAt q with
      | some h => s.moveBlock h
      | none => s
    let s := s.dirWrite fun d => { d with bad := q :: d.bad }
    let region := if q < 31744 then 0 else 1
    let s := s.record 1 0xE 1 ceNode region q 0
    if !low && decide (s.spareCount < 512) then s.record 1 0xE 2 ceNode region q 0 else s

/-- The physical blocks of a list whose program or erase failed are retired. -/
def retire (l : List Nat) : State := l.foldl State.retireBlock s

/-- Whether a retired block still stands for a block, for want of a spare one (R389). -/
def spareWanting : Bool := s.store.dir.bad.any fun q => (s.blockAt q).isSome

/-! ### A start (R351) -/

/-- A copy's loss leaves the other one in force. Without a valid working copy of the repair map the factory copy serves; that
the last valid copy of the directory or of the device record is lost has no stated outcome and is taken not to happen
(log 82). -/
def copyLost (c : LostCopy) : State :=
  let t := s.store
  match c.region, c.inForce with
  | .directory, false => { s with store := { t with dirPrev := none } }
  | .directory, true => match t.dirPrev with
    | some d => { s with store := { t with dir := d, dirPrev := none } }
    | none => s
  | .record, false => { s with store := { t with recordPrev := none } }
  | .record, true => match t.recordPrev with
    | some d => { s with store := { t with record := d, recordPrev := none } }
    | none => s
  | .repairMap, false => { s with store := { t with mapPrev := none } }
  | .repairMap, true => match t.mapPrev with
    | some d => { s with dev := d, store := { t with mapPrev := none } }
    | none => { s with dev := t.factoryMap, store := { t with factoryUsed := true } }

/-- Every copy of the directory, the device record and the repair map, those not in force first. -/
def allCopies : List LostCopy :=
  [⟨.directory, false⟩, ⟨.record, false⟩, ⟨.repairMap, false⟩, ⟨.directory, true⟩, ⟨.record, true⟩, ⟨.repairMap, true⟩]

/-- The copies whose bit of a word is 1, in the order of allCopies. -/
def lostCopies (w : BitVec 64) : List LostCopy := (allCopies.zipIdx.filter fun e => w.getLsbD e.2).map fun e => e.1

/-- The CE reads the copies of the directory, the device record and the repair map (R351, R370 step 1); lost names those whose
CRC-32 does not hold. -/
def readCopies (lost : List LostCopy) : State :=
  let s := (allCopies.filter lost.contains).foldl State.copyLost s
  let read := [(4, 0), (4, 1), (5, 0), (5, 1), (6, 0), (6, 1)] ++ (if s.store.factoryUsed then [(6, 2)] else [])
  read.foldl (fun (s : State) b => s.countRead (homeBlock b.1 b.2)) s

end State

end Sys2Proof.Machine
end

