-- ==== Sys2Proof/Machine/Operands.lean ====
section
/-! DEFINITION. Where BPs and WUs take their operands from: the bit-address space (R59), the broadcast and the capture
sources (R63), the wide multiplexer's inputs (R77, R78), the fields of a WU word (R105) and its operand B. -/

namespace Sys2Proof.Machine

/-- The SRAM errors a fetch meets at a store, unit and entry, as bits to flip (R83). -/
def sramFlip (ue : List SramErr) (store unit entry : Nat) : BitVec 128 :=
  ue.foldl (fun f e => if e.store = store ∧ e.unit = unit ∧ e.entry = entry then f ^^^ e.flip else f) 0

/-- Whether SECDED reports an uncorrected error of that word (R83). -/
def sramReported (ue : List SramErr) (store unit entry : Nat) : Bool :=
  ue.any fun e => e.store == store && e.unit == unit && e.entry == entry && e.reported

/-- What a BP reads at step k of the current cycle besides its stores: the emulated-cycle count and the errors met. -/
structure BpEnv where
  cycle : BitVec 48
  step : Nat
  skips : List Nat
  lanes : List (Option (BitVec 8))
  offers : List (BitVec 8)
  ue : List SramErr

/-- Bit a of the bit-address space of physical BP p (R59, R60, R62). -/
def bpBit (x : Cluster) (e : BpEnv) (p a : Nat) : Bool :=
  if a < 1024 then (rowOf x.resW p).getLsbD a && (rowOf x.res p).getLsbD a
  else if a < 2048 then (rowOf x.capW p).getLsbD (a - 1024) && (rowOf x.cap p).getLsbD (a - 1024)
  else if a < 3072 then (rowOf x.flop p).getLsbD (a - 2048)
  else if a = 3073 then true
  else if a = 3074 then e.cycle.getLsbD 0
  else if 3080 ≤ a ∧ a ≤ 3095 then e.cycle.getLsbD (a - 3080)
  else if 3584 ≤ a then
    (rowOf x.consts p).getLsbD (a - 3584) != (sramFlip e.ue 5 p (a - 3584)).getLsbD 0
  else false

/-- The word of physical BP p at the step, as fetched (R55, R83). -/
def bpWord (x : Cluster) (e : BpEnv) (p : Nat) : BitVec 80 :=
  x.insAt p e.step ^^^ (sramFlip e.ue 0 p e.step).setWidth 80

/-- Operand j of a BP word: A, B, C, D as 0 to 3 (R56). -/
def selOf (w : BitVec 80) (j : Nat) : Nat := bits w (63 - 12 * j) (52 - 12 * j)

def bpOperand (x : Cluster) (e : BpEnv) (p j : Nat) : Bool := bpBit x e p (selOf (bpWord x e p) j)

/-- Broadcast bit n: the result of last BP n at the step before (R53). -/
def castBit (x : Cluster) (e : BpEnv) (n : Nat) : Bool := x.prev.getLsbD (physUnit e.skips n)

/-- The 64-bit broadcast (R53, R115). -/
def castWord (x : Cluster) (e : BpEnv) : Nat → Nat
  | 0 => 0
  | n + 1 => castWord x e n + b2n (castBit x e n) * 2 ^ n

/-- Whether a physical BP takes part in a MUXC group at the step: skipped BPs do not (R53, R77, R81). -/
def inMux (x : Cluster) (e : BpEnv) (p : Nat) : Bool := !e.skips.contains p && (bpWord x e p).getLsbD 7

/-- Number whose bit i is b i, for i below n. -/
def numOf (b : Nat → Bool) : Nat → Nat
  | 0 => 0
  | n + 1 => numOf b n + b2n (b n) * 2 ^ n

/-- The result of the MUXC group g (R77, R78, R81): the mode is that of its lowest BP with MUXC = 1; missing select bits
and data inputs are 0. -/
def muxResult (x : Cluster) (e : BpEnv) (g : Nat) : Bool :=
  let ph := fun i => physUnit e.skips (4 * g + i)
  let tree := match (List.range 4).find? fun i => inMux x e (ph i) with
    | some i => (bpWord x e (ph i)).getLsbD 64
    | none => false
  let sel := numOf (fun i => inMux x e (ph i) && bpBit x e (ph i) (bits (bpWord x e (ph i)) 79 68)) 4
  if tree then castBit x e (4 * sel)
  else inMux x e (ph (sel / 4)) && bpOperand x e (ph (sel / 4)) (sel % 4)

/-- The result of physical BP p at the step (R57, R77, R78). -/
def bpResult (x : Cluster) (e : BpEnv) (p : Nat) : Bool :=
  if inMux x e p then muxResult x e (lastUnit e.skips p / 4)
  else (bpWord x e p).getLsbD (64 + numOf (bpOperand x e p) 4)

/-- The bit that physical BP p captures at the step (R63, R65). -/
def bpCapture (x : Cluster) (e : BpEnv) (p : Nat) : Bool :=
  let cap := bits (bpWord x e p) 15 9
  if cap < 64 then castBit x e cap
  else if cap < 96 then
    match e.lanes[(cap - 64) / 8]? with
    | some (some d) => d.getLsbD ((cap - 64) % 8)
    | _ => false
  else
    match e.offers[(cap - 96) / 8]? with
    | some o => o.getLsbD ((cap - 96) % 8)
    | none => false

/-- Data bit b of outbound position j when the BPs drive it (R75, R76). -/
def bpLaneBit (x : Cluster) (e : BpEnv) (j b : Nat) : Bool :=
  (List.range 64).any fun n =>
    let p := physUnit e.skips n
    (bpWord x e p).getLsbD 1 && bits (bpWord x e p) 6 2 == 8 * j + b && bpResult x e p

/-! ### The WU word (R105) -/

def wOp (w : BitVec 128) : Nat := bits w 127 120
def wRd (w : BitVec 128) : Nat := bits w 119 116
def wRa (w : BitVec 128) : Nat := bits w 115 112
def wRb (w : BitVec 128) : Nat := bits w 111 108
def wRc (w : BitVec 128) : Nat := bits w 107 104
def wBi (w : BitVec 128) : Bool := w.getLsbD 103
def wNx (w : BitVec 128) : Bool := w.getLsbD 102
/-- The width W in bits. -/
def wWidth (w : BitVec 128) : Nat := 64 / 2 ^ bits w 101 100
def wCc (w : BitVec 128) : Nat := bits w 99 96
/-- IMM sign-extended to 64 bits. -/
def wImm (w : BitVec 128) : BitVec 64 := (w.extractLsb' 64 32).signExtend 64
def wAux (w : BitVec 128) : BitVec 16 := w.extractLsb' 48 16
def wHold (w : BitVec 128) : Nat := bits w 47 38
def wEnd (w : BitVec 128) : Bool := w.getLsbD 37

/-- Operand B as BI selects it (R105). -/
def wOperandB (u : Wu) (w : BitVec 128) : BitVec 64 := if wBi w then wImm w else u.reg (wRb w)

/-- RA + IMM over 64 bits (R121, R126). -/
def wAddr (u : Wu) (w : BitVec 128) : BitVec 64 := u.reg (wRa w) + wImm w

/-- Byte k of a word. -/
def byteOf (v : BitVec 64) (k : Nat) : BitVec 8 := v.extractLsb' (8 * k) 8

/-- The word with byte k replaced. -/
def withByte (v : BitVec 64) (k : Nat) (b : BitVec 8) : BitVec 64 := setBits v (8 * k + 7) (8 * k) b.toNat

end Sys2Proof.Machine
end

