-- ==== Sys2Proof/Machine/Flags.lean ====
section
/-! DEFINITION. What a WU operation computes: result, carry and latency (R108 to R113), and the conditions of CMP
(R110). -/

namespace Sys2Proof.Machine

/-- The low w bits of a number as a two's complement integer. -/
def signedOf (w n : Nat) : Int := if n % 2 ^ w < 2 ^ (w - 1) then (n % 2 ^ w : Nat) else (n % 2 ^ w : Nat) - (2 ^ w : Nat)

/-- An integer as a 64-bit word. -/
def ofInt64 (i : Int) : BitVec 64 := BitVec.ofInt 64 i

/-- Whether condition CC holds of RA and B on w bits (R110); the reserved codes never hold. -/
def cmpHolds (cc w a b : Nat) : Bool :=
  match cc with
  | 0 => a == b
  | 1 => a != b
  | 2 => decide (a < b)
  | 3 => decide (b ≤ a)
  | 4 => decide (signedOf w a < signedOf w b)
  | 5 => decide (signedOf w b ≤ signedOf w a)
  | 6 => decide (a ≤ b)
  | 7 => decide (b < a)
  | 8 => decide (signedOf w a ≤ signedOf w b)
  | 9 => decide (signedOf w b < signedOf w a)
  | _ => false

/-- The shifts and rotates of w bits by n below w (R108): 10h SHL, 11h SHR, 12h SAR, 13h ROL, 14h ROR. -/
def shiftOp (op w a n : Nat) : Nat :=
  match op with
  | 0x10 => a * 2 ^ n % 2 ^ w
  | 0x11 => a / 2 ^ n
  | 0x12 => (ofInt64 (signedOf w a / (2 ^ n : Nat))).toNat % 2 ^ w
  | 0x13 => (a * 2 ^ n + a / 2 ^ (w - n)) % 2 ^ w
  | _ => (a / 2 ^ n + a * 2 ^ (w - n)) % 2 ^ w

/-- The 64-bit product of two 32-bit operands, signed when CC[0] = 1 (R108). -/
def mulOp (signed : Bool) (a b : Nat) : BitVec 64 :=
  if signed then ofInt64 (signedOf 32 a * signedOf 32 b) else BitVec.ofNat 64 (a * b)

/-- Where RECV takes a byte for each enabled lane field, in ascending position (R119). -/
def recvInto (lanes : List (Option (BitVec 8))) (aux : BitVec 16) (v : BitVec 64) : Nat → BitVec 64
  | 0 => v
  | j + 1 =>
    let v := recvInto lanes aux v j
    if aux.getLsbD (4 * j + 3) then
      let d := match lanes[j]? with
        | some (some d) => d
        | _ => 0
      withByte v (bits aux (4 * j + 2) (4 * j)) d
    else v

/-- Result and carry of the arithmetic operations ADD, ADC, SUB, SBB on w bits (R108, R109). -/
def arithOp (op w : Nat) (c : Bool) (a b : Nat) : Nat × Bool :=
  match op with
  | 0x01 => ((a + b) % 2 ^ w, decide (2 ^ w ≤ a + b))
  | 0x02 => ((a + b + b2n c) % 2 ^ w, decide (2 ^ w ≤ a + b + b2n c))
  | 0x03 => ((a + 2 ^ w - b) % 2 ^ w, decide (a < b))
  | _ => ((a + 2 ^ (w + 1) - b - b2n c) % 2 ^ w, decide (a < b + b2n c))

/-- What an issued WU word gives: the value for RD with its latency, and the carry. got is the word LD read, popped the
data of HWAIT's response, peer the register XGET names, cast the broadcast (R107, R108). -/
structure WuResult where
  val : Option (BitVec 64)
  lat : Nat
  carry : Option Bool

def wuResult (u : Wu) (w : BitVec 128) (mullat : Nat) (cast : BitVec 64) (lanes : List (Option (BitVec 8)))
    (peer got popped : BitVec 64) : WuResult :=
  let a64 := u.reg (wRa w)
  let b64 := wOperandB u w
  let c64 := u.reg (wRc w)
  let n := wWidth w
  let a := a64.toNat % 2 ^ n
  let b := b64.toNat % 2 ^ n
  let just := fun (v : BitVec 64) => ({ val := some v, lat := 1, carry := none } : WuResult)
  let low := fun (v : BitVec 64) => just (BitVec.ofNat 64 (v.toNat % 2 ^ n))
  let mul := fun (x y : Nat) => ({ val := some (mulOp (wCc w % 2 == 1) x y), lat := mullat, carry := none } : WuResult)
  match wOp w with
  | 0x01 | 0x02 | 0x03 | 0x04 =>
    let r := arithOp (wOp w) n u.c a b
    { val := some (BitVec.ofNat 64 r.1), lat := 1, carry := some r.2 }
  | 0x05 => just (BitVec.ofNat 64 (b2n (cmpHolds (wCc w) n a b)))
  | 0x08 => low (a64 &&& b64)
  | 0x09 => low (a64 ||| b64)
  | 0x0A => low (a64 ^^^ b64)
  | 0x0B => low (a64 &&& ~~~ b64)
  | 0x0C => low ((a64 &&& ~~~ c64) ||| (b64 &&& c64))
  | 0x0D => low b64
  | 0x0E => just (BitVec.ofNat 64 (bits w 95 64 * 2 ^ 32 + a64.toNat % 2 ^ 32))
  | 0x10 | 0x11 | 0x12 | 0x13 | 0x14 => just (BitVec.ofNat 64 (shiftOp (wOp w) n a (b64.toNat % 64 % n)))
  | 0x18 => mul (a64.toNat % 2 ^ 32) (b64.toNat % 2 ^ 32)
  | 0x19 => mul (a64.toNat / 2 ^ 32) (b64.toNat / 2 ^ 32)
  | 0x1A => mul (a64.toNat / 2 ^ 32) (b64.toNat % 2 ^ 32)
  | 0x1C => just (if c64 = 0 then a64 else b64)
  | 0x1D => just peer
  | 0x20 => just ((a64 &&& ~~~ b64) ||| (cast &&& b64))
  | 0x28 => { val := some got, lat := 2, carry := none }
  | 0x31 => just (recvInto lanes (wAux w) (u.reg (wRd w)) 4)
  | 0x3A => just popped
  | _ => { val := none, lat := 1, carry := none }

end Sys2Proof.Machine
end

