-- ==== Sys2Proof/Machine/Probes.lean ====
section
/-! DEFINITION. The probe tables of the tiles (R450, R451): which channel takes which bit of a cluster, and when. -/

namespace Sys2Proof.Machine

namespace State

variable (s : State)

/-- The probe entries of a tile that are valid, as (TT_PRB_k_LO, TT_PRB_k_HI). -/
def probeEntries (t : Nat) : List (BitVec 32 × BitVec 32) :=
  let lo := tileNode t * 0x100000 + 0xE0000
  s.regs.filterMap fun e =>
    if lo ≤ e.1 ∧ e.1 < lo + 0x8000 ∧ e.1 % 8 = 0 ∧ e.2.getLsbD 31 then some (e.2, s.reg (e.1 + 4)) else none

/-- Whether a probe entry names a cluster by its last coordinates. -/
def probeOf (t c : Nat) (lo : BitVec 32) : Bool :=
  s.flag (Reg.cluId t c) 13 && s.fld (Reg.cluId t c) 9 7 == bits lo 28 26 && s.fld (Reg.cluId t c) 12 10 == bits lo 25 23

/-- The bit that a probe entry names in a cluster, as its stores stand (R451). -/
def probeBit (t c : Nat) (x : Cluster) (lo hi : BitVec 32) : Bool :=
  let wreg := (x.wu (physUnit [s.wuSkip t c] (bits lo 18 17))).reg (bits lo 16 13)
  match bits lo 30 29 with
  | 0 => (rowOf x.flop (physUnit (s.bpSkips t c) (bits lo 22 17))).getLsbD (bits lo 16 7)
  | 1 =>
    let p := physUnit (s.bpSkips t c) (bits lo 22 17)
    (rowOf x.resW p).getLsbD (bits hi 25 16) && (rowOf x.res p).getLsbD (bits hi 25 16)
  | _ => wreg.getLsbD (bits lo 12 7)

/-- The channels that the entries chosen by p feed from a cluster are sampled: a channel reads the OR of its bits. -/
def probeTake (t c : Nat) (x : Cluster) (p : BitVec 32 → BitVec 32 → Bool) : State :=
  (s.probeEntries t).foldl (fun s e =>
    if p e.1 e.2 && s.probeOf t c e.1 && s.probeBit t c x e.1 e.2 then
      s.setTile t { s.tile t with probe := tput (fun _ => false) (bits e.2 15 0) true (s.tile t).probe }
    else s) s

/-- The samples taken at the end of a step: results of the slot, and registers with their STEP (R451). -/
def probeStep (t c : Nat) (x : Cluster) (st : Nat) : State :=
  s.probeTake t c x fun lo hi => (bits lo 30 29 == 1 || bits lo 30 29 == 3) && bits hi 25 16 == st

/-- The samples taken of the state committed at the midnight (R451). -/
def probeCommit (t c : Nat) (x : Cluster) : State :=
  s.probeTake t c x fun lo _ => bits lo 30 29 == 0 || bits lo 30 29 == 2

end State

end Sys2Proof.Machine
end

