-- ==== Sys2Proof/Machine/Cluster.lean ====
section
/-! DEFINITION. The cluster: turning to a step (R82), executing it (R21), its commit at midnight (R27), the arrival of
lane-bytes (R20), and the accesses to its stores (R84 to R97, R135 to R141). -/

namespace Sys2Proof.Machine

/-- The tag of a lane-byte: CP and ST (R17, R145). -/
def tagOf (b : LaneByte) : Nat := bits b 11 8

/-- A lane-byte with tag and data and odd parity (R145). -/
def mkLaneByte (tag : Nat) (d : BitVec 8) : LaneByte :=
  let v := BitVec.ofNat 13 (tag % 16 * 256 + d.toNat)
  setBit v 12 (ones v % 2 == 0)

/-- The tag of a value sent or due at a step of the current cycle (R18, R21). -/
def stepTag (cyc : BitVec 48) (st : Nat) : Nat := 8 * b2n (cyc.getLsbD 0) + st % 8

/-- A counted stage passes a lane-byte on: ST advances by one modulo 8 and P is regenerated (R146). -/
def advance (b : LaneByte) : LaneByte :=
  mkLaneByte (8 * b2n (b.getLsbD 11) + (bits b 10 8 + 1) % 8) (b.extractLsb' 0 8)

/-- The outbound position j of a cluster as an output lane. -/
def outLane (t c j : Nat) : LaneId := { kind := 0, tile := t, row := c / 8, col := c % 8, out := 0, lane := j }

/-- IRD and OWR of a lane-table entry (R72). -/
def ird (w : BitVec 24) (j : Nat) : Bool := w.getLsbD (20 + j)
def owr (w : BitVec 24) (j : Nat) : Bool := w.getLsbD (16 + j)
/-- OSRC of position j (R73). -/
def osrc (w : BitVec 24) (j : Nat) : Nat := bits w (6 + 3 * j) (4 + 3 * j)

/-- What physical BPs and WUs of the cluster see at the step: the lane-bytes read, the offer bits of last WUs 0 to 3. -/
def State.bpEnv (s : State) (t c : Nat) (x : Cluster) (ue : List SramErr) : BpEnv :=
  { cycle := s.seq.cycle, step := x.step, skips := s.bpSkips t c, ue := ue
    lanes := (List.range 4).map fun j =>
      if ird x.laneWord j then (x.queue j).head?.map fun b => b.extractLsb' 0 8 else none
    offers := (List.range 4).map fun n => (x.wu (physUnit [s.wuSkip t c] n)).offer }

/-- The entry a WU issues at its cluster's present step, if it issues one (R103). -/
def issueEntry (u : Wu) (step : Nat) : Option Nat :=
  if step = 0 then some 0
  else if u.ended then none
  else if u.hold = 0 then (if u.pc < 255 then some (u.pc + 1) else none)
  else none

/-- The scratchpad request of an issued word (R121). -/
def spOf (u : Wu) (w : BitVec 128) : Option SpReq :=
  if wOp w = 0x28 ∨ wOp w = 0x29 then
    let a := wAddr u w
    some { bank := bits a 21 18, word := bits a 17 3, wr := decide (wOp w = 0x29), mask := (wAux w).extractLsb' 0 8,
           data := u.reg (wRb w), granted := false, viol := false, got := 0 }
  else none

/-- The first inbound position whose head tag is wrong, among those read at the step (R22, R23). -/
def headFault (x : Cluster) (tag : Nat) : Option (Nat × Nat) :=
  (List.range 4).findSome? fun j =>
    if ird x.laneWord j then
      match x.queue j with
      | b :: _ => if tagOf b = tag then none else some (j, tagOf b)
      | [] => none
    else none

/-- The cluster compares the heads it can see; a mismatch stops it (R22, R26). -/
def State.compareHeads (s : State) (t c : Nat) : State :=
  let x := s.clu t c
  let tag := stepTag s.seq.cycle x.step
  match headFault x tag with
  | some (j, rcv) => s.tagFault t c x false j x.step tag rcv
  | none => s

/-- The detail words of an SRAM error (R586): store, cluster, unit and entry. -/
def State.sramError (s : State) (t c store unit entry : Nat) : State :=
  s.memError (tileNode t) (s.lastTile t) (2 * 2 ^ 14 + store * 2 ^ 11 + c / 8 * 2 ^ 7 + c % 8 * 2 ^ 4)
    (unit * 2 ^ 10 + entry) 0

/-- Every reported SRAM error of a fetch is reported (R83). -/
def State.sramErrors (s : State) (t c : Nat) (ue : List SramErr) : State :=
  ue.foldl (fun s e => if e.reported then s.sramError t c e.store e.unit e.entry else s) s

/-- The word WU pw issues, as fetched (R83, R114). -/
def wuFetch (x : Cluster) (ue : List SramErr) (pw : Nat) : Option (BitVec 128) :=
  (issueEntry (x.wu pw) x.step).map fun e => (x.wu pw).progAt e ^^^ sramFlip ue 0 pw e

/-- The first WU whose fetched word fails its parity check without a reported error (R82, R114). -/
def wuParityFault (x : Cluster) (ue : List SramErr) : Option (Nat × Nat) :=
  (List.range 5).findSome? fun pw =>
    match issueEntry (x.wu pw) x.step, wuFetch x ue pw with
    | some e, some w => if oddOk w || sramReported ue 0 pw e then none else some (pw, e)
    | _, _ => none

/-- The cluster with the words of the step fetched and the scratchpad requests presented (R82, R122). -/
def Cluster.turnedTo (x : Cluster) (ue : List SramErr) : Cluster :=
  let x := { x with laneWord := x.laneAt x.step ^^^ (sramFlip ue 6 0 x.step).setWidth 24, turned := true }
  (List.range 5).foldl (fun x pw =>
    let u := x.wu pw
    let w := wuFetch x ue pw
    let sp := match u.sp with
      | some r => if r.granted then some r else w.bind (spOf u)
      | none => w.bind (spOf u)
    x.setWu pw { u with word := w, sp := sp }) x

/-- A cluster turns to its next step (R82). Without a hold, in the wave and not yet turned: the lane-table entry and the
WU words are fetched and checked; a wrong word stops the cluster; then the heads it reads are compared (R22). Of several wrong
words of one fetch the fault names the lane table's, else that of the lowest WU (DESIGN CHOICE, log 77). -/
def State.turn (s : State) (t c : Nat) (ue : List SramErr) : State :=
  let x := s.clu t c
  if s.inWave t c x && !x.turned && !s.runHeld t c x then
    let s := s.sramErrors t c ue
    let y := x.turnedTo ue
    if !oddOk y.laneWord && !sramReported ue 6 0 x.step then s.iparFault t c x 2 0 x.step
    else match wuParityFault x ue with
      | some (pw, _) => s.iparFault t c x 1 pw x.step
      | none => (s.setClu t c y).compareHeads t c
  else s

/-- TURN_TO_STEP (R82). -/
def execTurnToStep (t row col : Nat) (ue : List SramErr) (s : State) : Out := .next (s.turn t (8 * row + col) ue)

/-! ### Executing a step -/

/-- Whether every HWAIT of the step has its response (R21, R128). -/
def hbmReady (x : Cluster) : Bool :=
  (List.range 5).all fun pw =>
    match (x.wu pw).word with
    | some w =>
      if wOp w = 0x3A then
        match (x.wu pw).queue (wCc w % 2) with
        | e :: _ => e.state != 1
        | [] => false
      else true
    | none => true

/-- Whether every scratchpad access of the step has been granted (R21). -/
def banksReady (x : Cluster) : Bool :=
  (List.range 5).all fun pw =>
    match (x.wu pw).sp with
    | some r => r.granted
    | none => true

/-- Which conditions of R21 a turned cluster still waits on, laid out as CLU_STAT [27:17] (R92). -/
def State.waits (s : State) (t c : Nat) (x : Cluster) : BitVec 11 :=
  if x.faulted || s.runHeld t c x then 1
  else if x.turned then
    BitVec.ofNat 11 (
      numOf (fun j => ird x.laneWord j && (x.queue j).isEmpty) 4 * 2 ^ 7 +
      numOf (fun j => owr x.laneWord j && ((s.lane (outLane t c j)).place 0).isSome) 4 * 2 ^ 3 +
      b2n (!hbmReady x) * 4 + b2n (!banksReady x) * 2)
  else 0

/-- One BP's stores after the step (R57, R60, R63, R68). -/
def Cluster.bpWrite (x : Cluster) (p st : Nat) (r cp ff : Bool) : Cluster :=
  { x with res := putRowBit x.res p st r, resW := putRowBit x.resW p st true,
           cap := putRowBit x.cap p st cp, capW := putRowBit x.capW p st true,
           latch := if ff then putRowBit x.latch p st r else x.latch }

/-- Whether the result of physical BP p goes to its next-value latch: its word has FF = 1 (R68) and it is no skipped BP,
which writes its result into its result store alone (R53). -/
def bpLatches (x : Cluster) (e : BpEnv) (p : Nat) : Bool := (bpWord x e p).getLsbD 8 && !e.skips.contains p

/-- All 68 BPs execute the step from the stores as they stand at its start (R15, R61). -/
def Cluster.bpStep (x : Cluster) (e : BpEnv) : Cluster :=
  let y := (List.range 68).foldl (fun y p =>
    y.bpWrite p e.step (bpResult x e p) (bpCapture x e p) (bpLatches x e p)) x
  { y with prev := BitVec.ofNat 68 (numOf (bpResult x e) 68) }

/-- The first BP, in physical order, whose word fails its parity check without a reported error (R82; log 77). -/
def bpParityFault (x : Cluster) (e : BpEnv) : Option Nat :=
  (List.range 68).find? fun p => !oddOk (bpWord x e p) && !sramReported e.ue 0 p e.step

/-- A result reaches its register or the carry (R109, R111, R112). -/
def Wu.land (u : Wu) (f : Fly) : Wu :=
  let u := match f.val with
    | some v =>
      if f.nx then { u with nx := tput (fun _ => 0) f.rd v u.nx, nxf := setBit u.nxf f.rd true }
      else u.setR f.rd v
    | none => u
  match f.carry with
  | some c => { u with c := c }
  | none => u

/-- The results due at the end of a step, in the order of their issue (R112). -/
def Wu.landAt (u : Wu) (st : Nat) : Wu :=
  let v := (u.fly.filter fun f => f.due = st).foldl Wu.land u
  { v with fly := u.fly.filter fun f => f.due ≠ st }

/-- What a WU does at the step (R103, R107 to R119, R126 to R129): cast is the broadcast, lanes the bytes read, peer the
register XGET names. -/
def wuStep (u : Wu) (step mullat : Nat) (cast : BitVec 64) (lanes : List (Option (BitVec 8))) (peer : BitVec 64) : Wu :=
  match u.word with
  | none => Wu.landAt { u with hold := u.hold - 1, sp := none } step
  | some w =>
    let q := wCc w % 2
    let popped := match u.queue q with
      | e :: _ => e.data
      | [] => 0
    let got := match u.sp with
      | some r => r.got
      | none => 0
    let r := wuResult u w mullat cast lanes peer got popped
    let e := if step = 0 then 0 else u.pc + 1
    let v := if wOp w = 0x3A then u.setQueue q ((u.queue q).drop 1)
             else if (wOp w = 0x38 ∨ wOp w = 0x39) ∧ (u.queue q).length < 16 then
               u.setQueue q (u.queue q ++ [{ state := 1, wr := decide (wOp w = 0x39), data := 0, slot := none, resp := none }])
             else u
    let v := if wOp w = 0x21 then { v with offer := byteOf (u.reg (wRa w)) (bits (wAux w) 2 0) } else v
    let f1 := match r.val with
      | some d => [{ due := step + r.lat - 1, rd := wRd w, nx := wNx w, val := some d, carry := none : Fly }]
      | none => []
    let f2 := match r.carry with
      | some c => [{ due := step, rd := 0, nx := false, val := none, carry := some c : Fly }]
      | none => []
    Wu.landAt { v with pc := e, hold := wHold w, ended := wEnd w || e == 255, word := none, sp := none,
                       fly := u.fly ++ f1 ++ f2 } step

/-- The multiply latency of a WU (R113, R138). -/
def State.mullat (s : State) (t c pw : Nat) : Nat := max 1 (s.fld (Reg.cluWcfg t c pw) 1 0)

/-- The register XGET names, as it stands at the start of the step (R117). -/
def xgetPeer (x : Cluster) (wskip : Nat) (u : Wu) : BitVec 64 :=
  match u.word with
  | some w => (x.wu (physUnit [wskip] (wCc w % 4))).reg (wRa w)
  | none => 0

/-- All five WUs execute the step (R15). -/
def State.wusStep (s : State) (t c : Nat) (x y : Cluster) (e : BpEnv) : Cluster :=
  (List.range 5).foldl (fun y pw =>
    y.setWu pw (wuStep (x.wu pw) x.step (s.mullat t c pw) (BitVec.ofNat 64 (castWord x e 64)) e.lanes
      (xgetPeer x (s.wuSkip t c) (x.wu pw)))) y

/-- The data byte of outbound position j at the step (R73, R75, R118). -/
def laneData (x : Cluster) (e : BpEnv) (wskip j : Nat) : BitVec 8 :=
  match osrc x.laneWord j with
  | 0 => BitVec.ofNat 8 (numOf (bpLaneBit x e j) 8)
  | 1 | 2 | 3 => 0
  | n =>
    let u := x.wu (physUnit [wskip] (n - 4))
    match u.word with
    | some w => if wOp w = 0x30 then byteOf (u.reg (wRa w)) (bits (wAux w) (4 * j + 2) (4 * j)) else 0
    | none => 0

/-- The lane-bytes of the step enter the first exit stage (R75): the out stage is a counted stage (R146, R158). -/
def State.sendLanes (s : State) (t c : Nat) (x : Cluster) (e : BpEnv) : State :=
  (List.range 4).foldl (fun s j =>
    if owr x.laneWord j then
      let b := mkLaneByte (stepTag s.seq.cycle x.step) (laneData x e (s.wuSkip t c) j)
      let l := s.lane (outLane t c j)
      s.setLane (outLane t c j) (l.setPlace 0 (some { b := advance b, eye := 0, waited := false }))
    else s) s

/-- The HBM request of HPR or HPW as a packet of the WU's master interface (R126, R272, R273). -/
def State.wuPacket (s : State) (t c pw : Nat) (u : Wu) (w : BitVec 128) : Packet :=
  let wr := wOp w = 0x39
  { dx := 0, dy := 0, sx := t % 8 + 1, sy := t / 8 + 1, mid := State.wuMid c pw, ctx := s.fld (Reg.nocMctx (t)) 5 0,
    cmd := if wr then 3 else 2, cls := 0, len := if wr then 1 else 0, slot := 0, gen := 0,
    addr := BitVec.ofNat 48 (2 * 2 ^ 46 + (wAddr u w).toNat % 2 ^ 46 / 8 * 8), resp := 0, peek := false,
    q := decide (wCc w % 2 = 1), be := if wr then (wAux w).extractLsb' 0 8 else 0,
    data := if wr then [(u.reg (wRb w)).setWidth 256] else [] }

/-- The HBM requests pushed at the step go to the master interfaces; a full queue discards its push (R126, R127). -/
def State.pushHbm (s : State) (t c : Nat) (x : Cluster) : State :=
  (List.range 5).foldl (fun s pw =>
    let u := x.wu pw
    match u.word with
    | some w =>
      if wOp w = 0x38 ∨ wOp w = 0x39 then
        if (u.queue (wCc w % 2)).length < 16 then
          let n := tileNode t
          let m := s.master n (State.wuMid c pw)
          s.setMaster n (State.wuMid c pw) { m with want := m.want ++ [s.wuPacket t c pw u w] }
        else s.setFlag (Reg.cluWstat t c pw) 30 true
      else s
    | none => s) s

/-- The wait counters of a step that starts (R94). -/
def State.countWaits (s : State) (t c : Nat) (x : Cluster) : State :=
  if bits x.waited 10 3 ≠ 0 then s.count (Reg.cluWaits t c) 31 16 1
  else if x.waited ≠ 0 then s.count (Reg.cluWaits t c) 15 0 1
  else s

/-- The commit of a WU (R104): results still under way land, next values become current, the rest of the cycle's state
clears. -/
def Wu.commit (u : Wu) (step : Nat) : Wu :=
  let u := (Wu.landAt (Wu.landAt u (step + 1)) (step + 2))
  let r := (List.range 16).foldl (fun r k =>
    if u.nxf.getLsbD k then tput (fun _ => 0) k (tget (fun _ => 0) u.nx k) r else r) u.r
  { u with r := r, nx := [], nxf := 0, offer := 0, pc := 0, hold := 0, ended := false, word := none, sp := none, fly := [] }

/-- The slots below L of physical BP p whose word has FF = 1, as a mask (R68). -/
def ffMask (x : Cluster) (len p : Nat) : BitVec 1024 := BitVec.ofNat 1024 (numOf (fun k => (x.insAt p k).getLsbD 8) len)

/-- The commit of a cluster (R27 step 1, R60, R68, R104). -/
def Cluster.commit (x : Cluster) (len : Nat) : Cluster :=
  let flop := (List.range 68).foldl (fun f p =>
    let m := ffMask x len p
    tput (fun _ => 0) p ((rowOf f p &&& ~~~m) ||| (rowOf x.latch p &&& m)) f) x.flop
  let x := { x with flop := flop, res := [], resW := [], cap := [], capW := [], prev := 0, step := 0, done := true }
  (List.range 5).foldl (fun x pw => x.setWu pw ((x.wu pw).commit (len - 1))) x

/-- The first arrival queue that holds a lane-byte of the cycle's parity at midnight, and its tag (R27 step 2). -/
def orphan (x : Cluster) (par : Bool) : Option (Nat × Nat) :=
  (List.range 4).findSome? fun j =>
    ((x.queue j).find? fun b => b.getLsbD 11 == par).map fun b => (j, tagOf b)

/-- The tile completes a step when the last of its clusters does (R36). -/
def State.countStep (s : State) (t c : Nat) (x : Cluster) : State :=
  if (List.range 72).all fun k => k == c || !s.takesPart t k || decide (x.step < s.stepsDone (s.clu t k)) then s.addSteps t 1
  else s

/-- The cluster after the step, midnight actions included (R21, R27). -/
def State.advanceCluster (s : State) (t c : Nat) (x : Cluster) (e : BpEnv) : State :=
  let y := s.wusStep t c x (x.bpStep e) e
  let y := (List.range 4).foldl (fun y j => if ird x.laneWord j then y.setQueue j ((y.queue j).drop 1) else y) y
  let y := { y with step := x.step + 1, turned := false, waited := 0, compared := false }
  let s := s.probeStep t c y x.step
  if x.step + 1 = s.len then
    let y := y.commit s.len
    let s := s.probeCommit t c y
    match orphan y s.par with
    | some (j, tag) => (s.setClu t c y).tagFault t c y true j x.step 0 tag
    | none => s.setClu t c y
  else s.setClu t c y

/-! ### Cluster comparators (R501, R509) -/

/-- Records a comparator's hit and adds its halt point (R501, R509). -/
def State.cmpHit (s : State) (t c i pst st : Nat) : State :=
  let k := Reg.cluCmpCtrl t c i
  let s := if s.flag k 26 then s
    else ((s.setFld k 9 0 st).setFlag k 26 true).setReg (Reg.cluCmpHcyc t c i) (s.seq.cycle.setWidth 32)
  match s.fld k 28 27 with
  | 1 => s.armPoint 4 s.seq.cycle 0x7FF false true
  | 2 => s.armPoint 4 s.seq.cycle pst false true
  | _ => s

/-- Whether step comparator i of a cluster hits at a step. -/
def State.stepCmp (s : State) (t c i st : Nat) : Bool :=
  let k := Reg.cluCmpCtrl t c i
  s.flag k 31 && s.fld k 30 29 == 0 &&
    (BitVec.ofNat 10 st &&& BitVec.ofNat 10 (s.fld (Reg.cluCmpMsk t c i) 9 0)) ==
    (BitVec.ofNat 10 (s.fld (Reg.cluCmpVal t c i) 9 0) &&& BitVec.ofNat 10 (s.fld (Reg.cluCmpMsk t c i) 9 0))

/-- Whether scratchpad comparator i hits on a request of physical WU pw. -/
def State.spCmp (s : State) (t c i pw : Nat) (r : SpReq) : Bool :=
  let k := Reg.cluCmpCtrl t c i
  let kind := s.fld k 30 29
  let who := s.flag k 25 || physUnit [s.wuSkip t c] (s.fld k 24 23) == pw
  let a := BitVec.ofNat 19 (r.bank * 2 ^ 15 + r.word)
  let m := BitVec.ofNat 19 (s.fld (Reg.cluCmpMsk t c i) 18 0)
  s.flag k 31 && who && (if r.wr then decide (kind = 2 ∨ kind = 3) else decide (kind = 1 ∨ kind = 3)) &&
    (a &&& m) == (BitVec.ofNat 19 (s.fld (Reg.cluCmpVal t c i) 18 0) &&& m)

/-- The step comparators that hit as the cluster begins the step. -/
def State.stepCmps (s : State) (t c st : Nat) : State :=
  (List.range 8).foldl (fun s i => if s.stepCmp t c i st then s.cmpHit t c i st st else s) s

/-- The scratchpad comparators that hit on the LD and ST issued at the step. -/
def State.spCmps (s : State) (t c : Nat) (x : Cluster) : State :=
  (List.range 5).foldl (fun s pw =>
    match (x.wu pw).sp with
    | some r =>
      (List.range 8).foldl (fun s i => if s.spCmp t c i pw r then s.cmpHit t c i (x.step + 1) x.step else s) s
    | none => s) s

/-- The cluster has begun the step: the BP words are fetched and checked (R82); without a wrong word it executes. -/
def State.beginStep (s : State) (t c : Nat) (x : Cluster) (ue : List SramErr) : State :=
  let e := s.bpEnv t c x ue
  let s := s.sramErrors t c ue
  match bpParityFault x e with
  | some p => s.iparFault t c x 0 p x.step
  | none =>
    let s := s.countWaits t c x
    let s := s.spCmps t c x
    let s := s.sendLanes t c x e
    let s := s.pushHbm t c x
    (s.countStep t c x).advanceCluster t c x e

/-- Whether every condition of R21 is met for a turned cluster. -/
def State.mayStep (s : State) (t c : Nat) (x : Cluster) : Bool :=
  s.inWave t c x && x.turned && (s.waits t c x == 0)

/-- A cluster executes its next step if every condition of R21 is met; else it waits and notes on what (R21, R94), and
without a hold it compares the heads it can see, also those that came during one (R22). A step comparator may hold it
before the step (R501). -/
def State.cluStep (s : State) (t c : Nat) (ue : List SramErr) : State :=
  let x := s.clu t c
  if s.mayStep t c x then
    match headFault x (stepTag s.seq.cycle x.step) with
    | some (j, rcv) => s.tagFault t c x false j x.step (stepTag s.seq.cycle x.step) rcv
    | none =>
      let s' := if x.compared then s else s.stepCmps t c x.step
      let x := { x with compared := true }
      if s'.runHeld t c x then s'.setClu t c { x with waited := x.waited ||| 1 }
      else s'.beginStep t c x ue
  else if s.inWave t c x then
    let s' := s.setClu t c { x with waited := x.waited ||| s.waits t c x }
    if x.turned && !s.runHeld t c x then s'.compareHeads t c else s'
  else s

/-- CLUSTER_STEP (R21). -/
def execClusterStep (t row col : Nat) (ue : List SramErr) (s : State) : Out := .next (s.cluStep t (8 * row + col) ue)

/-! ### Arrival of lane-bytes -/

/-- Output lane of a router that feeds inbound position j of its cluster (R152). -/
def inLane (t c j : Nat) : LaneId := { kind := 1, tile := t, row := c / 8, col := c % 8, out := 0, lane := j }

/-- A lane-byte leaves the in stage for the arrival queue when the queue has room (R20); if the cluster has turned to its
step and reads the position, its head is compared at once (R22). -/
def State.arrive (s : State) (t c j : Nat) (err : LaneByte) : State :=
  let l := s.lane (inLane t c j)
  let x := s.clu t c
  match l.place 3 with
  | some h =>
    if (x.queue j).length < 8 then
      let s := s.setLane (inLane t c j) (l.setPlace 3 none)
      let s := s.setClu t c (x.setQueue j (x.queue j ++ [h.b ^^^ err]))
      if x.turned && !s.runHeld t c x && (x.queue j).isEmpty then s.compareHeads t c else s
    else s
  | none => s

/-- LANE_BYTE_ARRIVAL (R20). -/
def execLaneByteArrival (t row col pos : Nat) (err : LaneByte) (s : State) : Out :=
  .next (s.arrive t (8 * row + col) pos err)

/-! ### Accesses to the stores -/

/-- Whether the writer is a service engine at a barrier task (R85, R211, R425). -/
def State.barrierWriter (s : State) (w : Who) : Bool :=
  match w with
  | .engine e =>
    s.flag (Reg.ssEng e) 31 && (s.reg (Reg.ssDesc (s.fld (Reg.ssEng e) 25 16) 0)).getLsbD 24
  | _ => false

/-- Whether a run is in progress for the access rules: RUNNING, MIDNIGHT or HALTED, with the region not parked (R85). -/
def State.liveStores (s : State) (t : Nat) : Bool :=
  (s.seqState == 1 || s.seqState == 2 || s.seqState == 3) && !s.tileParked t

/-- Whether R85 allows an access of a cluster store. -/
def State.cluAccessOk (s : State) (t : Nat) (cmd : BitVec 32) : Bool :=
  let store := bits cmd 29 27
  let unit := bits cmd 26 20
  let entry := bits cmd 9 0
  let named := decide (store < 7) && (store == 6 || decide (unit < 68)) && !(store == 5 && decide (512 ≤ entry))
  let wr := cmd.getLsbD 30
  let rule := match store with
    | 0 | 5 | 6 => s.codeWritable t
    | 1 => true
    | _ => false
  named && (!wr || rule)

/-- CLU_ACC_CTRL is written (R95, R97): its RW fields take the value; with GO = 1 an access starts, or is refused. -/
def State.cluAccStart (s : State) (who : Who) (t c : Nat) (v : BitVec 32) : State :=
  let s := s.setReg (Reg.cluAccCtrl t c) (v &&& 0x7FF003FF#32)
  if v.getLsbD 31 then
    let x := s.clu t c
    if x.acc.isNone && s.cluAccessOk t v then
      let data := (s.reg (Reg.cluAccD2 t c) ++ s.reg (Reg.cluAccD1 t c) ++ s.reg (Reg.cluAccD0 t c)).setWidth 128
      let s := s.setClu t c { x with acc := some { cmd := v, who := who, data := data } }
      let s := s.setFlag (Reg.cluAccStat t c) 0 true
      if v.getLsbD 30 && s.liveStores t && !(bits v 29 27 == 1 && s.barrierWriter who) then s.loss 1 else s
    else s.setFlag (Reg.cluAccStat t c) 2 true
  else s

/-- 32 bits of a row from entry k on (R96). -/
def rowWord {n : Nat} (r : BitVec n) (k : Nat) : BitVec 32 := r.extractLsb' k 32

/-- The word of a cluster store as CLU_ACC_D2 to D0 hold it (R60, R96, R99). Flops read 0 until resets are released. -/
def State.cluAccRead (s : State) (x : Cluster) (cmd : BitVec 32) : BitVec 128 :=
  let u := bits cmd 26 20
  let e := bits cmd 9 0
  let e32 := e / 32 * 32
  match bits cmd 29 27 with
  | 0 => (x.insAt u e).setWidth 128
  | 1 => if s.flag Reg.dwnStat 25 then (rowWord (rowOf x.flop u) e32).setWidth 128 else 0
  | 2 => (rowWord (rowOf x.latch u) e32).setWidth 128
  | 3 => (rowWord (rowOf x.res u &&& rowOf x.resW u) e32).setWidth 128
  | 4 => (rowWord (rowOf x.cap u &&& rowOf x.capW u) e32).setWidth 128
  | 5 => (rowWord (rowOf x.consts u) e32).setWidth 128
  | 6 => (x.laneAt e).setWidth 128
  | _ => 0

/-- The cluster with a store written (R86, R87, R96). -/
def Cluster.accWrite (x : Cluster) (cmd : BitVec 32) (data : BitVec 128) : Cluster :=
  let u := bits cmd 26 20
  let e := bits cmd 9 0
  let e32 := e / 32 * 32
  match bits cmd 29 27 with
  | 0 => x.setIns u e (data.setWidth 80)
  | 1 => { x with flop := tput (fun _ => 0) u (setBits (rowOf x.flop u) (e32 + 31) e32 (bits data 31 0)) x.flop }
  | 5 => { x with consts := tput (fun _ => 0) u (setBits (rowOf x.consts u) (e32 + 31) e32 (bits data 31 0)) x.consts }
  | 6 => x.setLane e (data.setWidth 24)
  | _ => x

/-- The access in progress completes and BUSY clears (R96, R97). A read of a bit store or of the lane table fills D0 and leaves D1
and D2 as they stand (log 80). -/
def State.cluAccDone (s : State) (t c : Nat) : State :=
  let x := s.clu t c
  match x.acc with
  | none => s
  | some a =>
    let s := s.setFlag (Reg.cluAccStat t c) 0 false
    if a.cmd.getLsbD 30 then s.setClu t c { (x.accWrite a.cmd a.data) with acc := none }
    else
      let d := s.cluAccRead x a.cmd
      let s := s.setClu t c { x with acc := none }
      let s := s.setReg (Reg.cluAccD0 t c) (d.setWidth 32)
      if bits a.cmd 29 27 = 0 then
        (s.setReg (Reg.cluAccD1 t c) (d.extractLsb' 32 32)).setReg (Reg.cluAccD2 t c) ((d.extractLsb' 64 16).setWidth 32)
      else s

/-- A whole access through the access registers by a service engine (R84): it starts and completes. -/
def State.cluAccess (s : State) (who : Who) (t c : Nat) (cmd : BitVec 32) : State :=
  (s.cluAccStart who t c (setBit cmd 31 true)).cluAccDone t c

/-- CLU_ACCESS_COMPLETE (R97). -/
def execCluAccessComplete (t row col : Nat) (s : State) : Out := .next (s.cluAccDone t (8 * row + col))

/-- Whether R141 allows an access of a WU store. -/
def State.wuAccessOk (s : State) (t : Nat) (cmd : BitVec 32) : Bool :=
  let store := bits cmd 29 27
  let entry := bits cmd 7 0
  let named := match store with
    | 0 => true
    | 1 | 2 => decide (entry < 16)
    | 3 => true
    | 4 => decide (entry < 32)
    | _ => false
  let wr := cmd.getLsbD 30
  let rule := match store with
    | 0 => s.codeWritable t
    | 1 | 3 => true
    | _ => false
  named && (!wr || rule)

/-- CLU_WACC_CTRL is written (R139, R141). -/
def State.wuAccStart (s : State) (who : Who) (t c pw : Nat) (v : BitVec 32) : State :=
  let s := s.setReg (Reg.cluWaccCtrl t c pw) (v &&& 0x780000FF#32)
  if v.getLsbD 31 then
    let x := s.clu t c
    let u := x.wu pw
    if u.acc.isNone && s.wuAccessOk t v then
      let data := s.reg (Reg.cluWaccD3 t c pw) ++ s.reg (Reg.cluWaccD2 t c pw) ++ s.reg (Reg.cluWaccD1 t c pw) ++
        s.reg (Reg.cluWaccD0 t c pw)
      let s := s.setClu t c (x.setWu pw { u with acc := some { cmd := v, who := who, data := data } })
      let s := s.setFlag (Reg.cluWaccStat t c pw) 0 true
      if v.getLsbD 30 && s.liveStores t && !(bits v 29 27 != 0 && s.barrierWriter who) then s.loss 1 else s
    else s.setFlag (Reg.cluWaccStat t c pw) 2 true
  else s

/-- The word of a queue entry as CLU_WACC_D2 to D0 hold it (R140). -/
def queueWord (q : List QEnt) (k : Nat) : BitVec 128 :=
  match q[k]? with
  | some e => BitVec.ofNat 128 ((e.state * 16 + b2n e.wr) * 2 ^ 64 + e.data.toNat)
  | none => 0

/-- The word of a WU store (R140, R143): registers and C read 0 until resets are released. -/
def State.wuAccRead (s : State) (u : Wu) (cmd : BitVec 32) : BitVec 128 :=
  let e := bits cmd 7 0
  let free := s.flag Reg.dwnStat 25
  match bits cmd 29 27 with
  | 0 => u.progAt e
  | 1 => if free then (u.reg e).setWidth 128 else 0
  | 2 => BitVec.ofNat 128 (b2n (u.nxf.getLsbD e) * 2 ^ 64 + (tget (fun _ => (0 : BitVec 64)) u.nx e).toNat)
  | 3 => if free then BitVec.ofNat 128 (b2n u.c) else 0
  | 4 => queueWord (u.queue (e / 16 % 2)) (e % 16)
  | _ => 0

/-- The WU with a store written (R140). -/
def Wu.accWrite (u : Wu) (cmd : BitVec 32) (data : BitVec 128) : Wu :=
  match bits cmd 29 27 with
  | 0 => u.setProg (bits cmd 7 0) data
  | 1 => u.setR (bits cmd 7 0) (data.setWidth 64)
  | 3 => { u with c := data.getLsbD 0 }
  | _ => u

/-- The WU access in progress completes and BUSY clears (R141). -/
def State.wuAccDone (s : State) (t c pw : Nat) : State :=
  let x := s.clu t c
  let u := x.wu pw
  match u.acc with
  | none => s
  | some a =>
    let s := s.setFlag (Reg.cluWaccStat t c pw) 0 false
    if a.cmd.getLsbD 30 then s.setClu t c (x.setWu pw { (u.accWrite a.cmd a.data) with acc := none })
    else
      let d := s.wuAccRead u a.cmd
      let store := bits a.cmd 29 27
      let s := s.setClu t c (x.setWu pw { u with acc := none })
      let s := s.setReg (Reg.cluWaccD0 t c pw) (d.setWidth 32)
      let s := if store = 3 then s else s.setReg (Reg.cluWaccD1 t c pw) (d.extractLsb' 32 32)
      let s := if store = 0 ∨ store = 2 ∨ store = 4 then s.setReg (Reg.cluWaccD2 t c pw) (d.extractLsb' 64 32) else s
      if store = 0 then s.setReg (Reg.cluWaccD3 t c pw) (d.extractLsb' 96 32) else s

/-- The same of a WU's access registers (R84). -/
def State.wuAccess (s : State) (who : Who) (t c pw : Nat) (cmd : BitVec 32) : State :=
  (s.wuAccStart who t c pw (setBit cmd 31 true)).wuAccDone t c pw

/-- The command word of an access: whether it writes, the store, the unit and the entry (R95, R139). -/
def accCmd (wr : Bool) (store unit entry : Nat) : BitVec 32 :=
  BitVec.ofNat 32 (b2n wr * 2 ^ 30 + store * 2 ^ 27 + unit * 2 ^ 20 + entry)

/-- 32 flop entries are written through the access registers (R84, R96). -/
def State.flopPut (s : State) (who : Who) (t c p k : Nat) (v : BitVec 32) : State :=
  (s.setReg (Reg.cluAccD0 t c) v).cluAccess who t c (accCmd true 1 p k)

/-- A register of a WU is written through the access registers (R84, R140). -/
def State.wuRegPut (s : State) (who : Who) (t c pw r : Nat) (v : BitVec 64) : State :=
  ((s.setReg (Reg.cluWaccD0 t c pw) (v.setWidth 32)).setReg (Reg.cluWaccD1 t c pw) (v.extractLsb' 32 32)).wuAccess who t c pw
    (accCmd true 1 0 r)

/-- The carry of a WU is written through the access registers (R84, R140). -/
def State.wuCarryPut (s : State) (who : Who) (t c pw : Nat) (b : Bool) : State :=
  (s.setReg (Reg.cluWaccD0 t c pw) (BitVec.ofNat 32 (b2n b))).wuAccess who t c pw (accCmd true 3 0 0)

/-- Whether an access to a store of a cluster, or of one of its WUs, is in progress: no other begins (R84). -/
def State.cluBusy (s : State) (t c : Nat) : Bool :=
  (s.clu t c).acc.isSome || (List.range 5).any fun pw => ((s.clu t c).wu pw).acc.isSome

/-- The accesses in progress, kept when the stores of a cluster take new content: they still complete (R97). -/
def Cluster.cleared (x : Cluster) : Cluster :=
  (List.range 5).foldl (fun y pw => y.setWu pw { Wu.empty with acc := (x.wu pw).acc }) { Cluster.empty with acc := x.acc }

/-- WU_ACCESS_COMPLETE (R141). -/
def execWuAccessComplete (t row col pw : Nat) (s : State) : Out := .next (s.wuAccDone t (8 * row + col) pw)

end Sys2Proof.Machine
end

