-- ==== Sys2Proof/Machine/Lanes.lean ====
section
/-! DEFINITION. The lanes between clusters: where each output lane takes its lane-bytes from (R147, R152), its chain of
places (R155, R158), merge sequences (R150), parity faults (R166) and the merge-store accesses (R173, R174). -/

namespace Sys2Proof.Machine

/-- Physical coordinates of a tile. -/
def tileX (t : Nat) : Nat := t % 8 + 1
def tileY (t : Nat) : Nat := t / 8 + 1

/-- Tile index at physical coordinates, when a tile stands there (R6). -/
def tileAt (x y : Nat) : Option Nat := if 1 ≤ x ∧ x ≤ 8 ∧ 1 ≤ y ∧ y ≤ 8 then some (8 * (y - 1) + (x - 1)) else none

/-- The tile to the N, E, S or W (0 to 3) of a tile. -/
def nextTile (t d : Nat) : Option Nat :=
  match d with
  | 0 => tileAt (tileX t) (tileY t + 1)
  | 1 => tileAt (tileX t + 1) (tileY t)
  | 2 => tileAt (tileX t) (tileY t - 1)
  | _ => tileAt (tileX t - 1) (tileY t)

/-- Whether a tile hop crosses a die boundary: between phys x or y 4 and 5 (R160). -/
def crossesDie (t d : Nat) : Bool :=
  match d with
  | 0 => tileY t == 4
  | 1 => tileX t == 4
  | 2 => tileY t == 5
  | _ => tileX t == 5

/-- The native cost of a die crossing (R158, R189). -/
def State.nativeC (s : State) : Nat := if s.dev.native = 1 then 2 else 1

/-- Number of eyelet registers of an output lane's chain (R155). -/
def eyelets (l : LaneId) : Nat :=
  match l.kind with
  | 1 => 3
  | 2 => 15
  | _ => 0

/-- Number of places of an output lane's chain: its eyelets, then the physical stages that follow (R158, R585). -/
def State.chainLen (s : State) (l : LaneId) : Nat :=
  match l.kind with
  | 1 => if l.out = 5 then 5 else 4
  | 2 =>
    if 8 ≤ l.out ∧ l.out ≤ 11 then 18 + (if crossesDie l.tile (l.out - 8) then s.nativeC else 0)
    else if 12 ≤ l.out then 17
    else 15
  | _ => 1

/-- Output k of the router at (row, col) of a tile. -/
def routerLane (t row col out lane : Nat) : LaneId :=
  { kind := 1, tile := t, row := row, col := col, out := out, lane := lane }

/-- Output of a tile's gateway. -/
def gatewayLane (t out lane : Nat) : LaneId := { kind := 2, tile := t, row := 0, col := 0, out := out, lane := lane }

/-- The receiving port-side lane of a port gateway. -/
def portInLane (t lane : Nat) : LaneId := { kind := 3, tile := t, row := 0, col := 0, out := 0, lane := lane }

/-- The lane an outbound welt drives while its region is out (R413). -/
def weltLane (t i : Nat) : LaneId := { kind := 4, tile := t, row := 0, col := 0, out := 0, lane := i }

/-- Side N, E, S, W (0 to 3) and attachment lane of a welt lane (R411). -/
def weltIdx (side lane : Nat) : Nat := 36 * side + lane

/-- The attachment lane of a router, as side and lane of the gateway (R152): lanes 0 to 3 of the single attachment or of
the N or S attachment of a corner router, 4 to 7 its W or E attachment. -/
def attachOf (row col lane : Nat) : Option (Nat × Nat) :=
  let ns := row == 8 || row == 0
  let we := col == 0 || col == 7
  let vert := if lane < 4 then some (if row = 8 then 0 else 2, 4 * col + lane) else none
  let horiz := fun k => some (if col = 7 then 1 else 3, 4 * row + k)
  if ns && we then (if lane < 4 then vert else if lane < 8 then horiz (lane - 4) else none)
  else if ns then vert
  else if we then (if lane < 4 then horiz lane else none)
  else none

/-- The router output lane behind an attachment lane of the gateway: row, column and lane (R152). -/
def routerOf (side lane : Nat) : Option (Nat × Nat × Nat) :=
  if side = 0 ∨ side = 2 then
    if lane < 32 then some (if side = 0 then 8 else 0, lane / 4, lane % 4) else none
  else if lane < 36 then
    let row := lane / 4
    let corner := row == 0 || row == 8
    some (row, if side = 1 then 7 else 0, lane % 4 + (if corner then 4 else 0))
  else none

/-- The output lane from which an entry with SRC and LANE takes, and the welt lane it passes, if any (R147, R152). An
attachment input of a gateway is the router while the region is ACTIVE and the welt's own lane while it is out. -/
def State.sourceOf (s : State) (l : LaneId) (src lane : Nat) : Option (LaneId × Option Nat) :=
  if l.kind = 1 then
    match src with
    | 0 => if lane < 4 then some (outLane l.tile (8 * l.row + l.col) lane, none) else none
    | 1 => if lane < 8 ∧ l.row < 8 then some (routerLane l.tile (l.row + 1) l.col 3 lane, none) else none
    | 2 => if lane < 8 ∧ l.col < 7 then some (routerLane l.tile l.row (l.col + 1) 4 lane, none) else none
    | 3 => if lane < 8 ∧ 0 < l.row then some (routerLane l.tile (l.row - 1) l.col 1 lane, none) else none
    | 4 => if lane < 8 ∧ 0 < l.col then some (routerLane l.tile l.row (l.col - 1) 2 lane, none) else none
    | 5 => (attachOf l.row l.col lane).map fun p => (gatewayLane l.tile (12 + p.1) p.2, some (weltIdx p.1 p.2))
    | _ => none
  else
    match src with
    | 6 => if lane < 128 then some (portInLane l.tile lane, none) else none
    | 8 => if lane < 32 then (nextTile l.tile 0).map fun n => (gatewayLane n 10 lane, none) else none
    | 9 => if lane < 32 then (nextTile l.tile 1).map fun n => (gatewayLane n 11 lane, none) else none
    | 10 => if lane < 32 then (nextTile l.tile 2).map fun n => (gatewayLane n 8 lane, none) else none
    | 11 => if lane < 32 then (nextTile l.tile 3).map fun n => (gatewayLane n 9 lane, none) else none
    | 12 | 13 | 14 | 15 =>
      (routerOf (src - 12) lane).map fun p =>
        let i := weltIdx (src - 12) lane
        if s.tileOut l.tile then (weltLane l.tile i, none)
        else (routerLane l.tile p.1 p.2.1 5 p.2.2, some i)
    | _ => none

/-- A lane parity fault in a tile (R25, R40, R166): kind 0 a lane-byte, 1 a merge entry; the lane's chain is closed at
the place. TILE_LFAULT keeps the first fault; the record names this one (R171, R586). -/
def State.laneFault (s : State) (l : LaneId) (place kind rtag : Nat) : State :=
  let k := Reg.tileLfault l.tile
  let gw := l.kind == 2
  let w := 2 ^ 31 + kind * 2 ^ 30 + b2n gw * 2 ^ 29 +
    (if gw then 0 else l.row * 2 ^ 25 + l.col * 2 ^ 22) + l.out * 2 ^ 18 + l.lane * 2 ^ 11 + rtag % 16
  let s := if s.flag k 31 then s
    else (s.setReg k (BitVec.ofNat 32 w)).setReg (Reg.tileLfcyc l.tile) (s.seq.cycle.setWidth 32)
  let s := s.setLane l { s.lane l with stuck := place :: (s.lane l).stuck }
  let room := s.ledgerRoom
  let s := s.record 2 2 (kind + 1) (tileNode l.tile) 0 w 0
  ((s.seqFaultBit 4).nameTile (s.lastTile l.tile) room).stopRun

/-- A lane-byte enters place i of a lane (R146, R155): a counted place checks its parity, advances ST and regenerates P;
an uncounted eyelet holds it unchanged. none where the check fails. Of a chain of more registers than EYE, the first EYE count
(log 76). -/
def enterPlace (l : LaneId) (i eye : Nat) (b : LaneByte) : Option LaneByte :=
  if i < eyelets l ∧ eye ≤ i then some b
  else if oddOk b then some (advance b)
  else none

/-- Whether a place takes nothing more because of a parity fault (R166). -/
def Lane.closedAt (x : Lane) (i : Nat) : Bool := x.stuck.contains i

/-- Tile of the port gateway of a port (R181). -/
def portTile (p : Nat) : Nat :=
  (if p < 4 then 0 else 56) + (match p % 4 with | 0 => 1 | 1 => 2 | 2 => 5 | _ => 6)

/-- The port whose gateway stands in a tile (R181). -/
def portAt (t : Nat) : Option Nat := (List.range 8).find? fun p => portTile p == t

/-- A lane-byte waits at a gateway output for want of an acknowledgement: counted once (R172). -/
def State.countHeld (s : State) (l : LaneId) (i : Nat) (h : Held) : State :=
  if l.kind = 2 ∧ !h.waited then
    let s := s.setLane l ((s.lane l).setPlace i (some { h with waited := true }))
    if 8 ≤ l.out ∧ l.out ≤ 11 then s.count (Reg.tileGwwait l.tile) 31 16 1
    else if l.out = 6 ∧ (portAt l.tile).isSome then s.count (Reg.tileGwwait l.tile) 15 0 1
    else s
  else s

/-- The lane-byte in place i of a lane moves to the next place, or holds under backpressure (R20, R146). -/
def State.stagePass (s : State) (l : LaneId) (i : Nat) (err : LaneByte) : State :=
  let x := s.lane l
  match x.place i with
  | none => s
  | some h =>
    if i + 1 < s.chainLen l ∧ (x.place (i + 1)).isNone ∧ !x.closedAt (i + 1) then
      match enterPlace l (i + 1) h.eye (h.b ^^^ err) with
      | some b => s.setLane l ((x.setPlace i none).setPlace (i + 1) (some { h with b := b }))
      | none => s.laneFault l (i + 1) 0 (tagOf (h.b ^^^ err))
    else s.countHeld l i h

/-- LANE_STAGE_PASS (R146). -/
def execLaneStagePass (lane : LaneId) (stage : Nat) (err : LaneByte) (s : State) : Out :=
  .next (s.stagePass lane stage err)

/-- A welt lane of a tile (R411). -/
def State.welt (s : State) (t i : Nat) : Welt := tget (fun _ => Welt.empty) (s.tile t).welts i

def State.setWelt (s : State) (t i : Nat) (w : Welt) : State :=
  s.setTile t { s.tile t with welts := tput (fun _ => Welt.empty) i w (s.tile t).welts }

/-- A lane-byte passes a welt of an ACTIVE region (R412): outbound its ST and data are recorded, inbound it counts. -/
def State.weltPass (s : State) (t : Nat) (i : Option Nat) (inbound : Bool) (b : LaneByte) : State :=
  match i with
  | none => s
  | some i =>
    let w := s.welt t i
    if inbound then s.setWelt t i { w with inb := w.inb + 1 }
    else if w.rcd.length < 1024 then s.setWelt t i { w with rcd := w.rcd ++ [b.extractLsb' 0 11] }
    else s

/-- Whether a router input takes anything from its attachments: the inbound welts pass only while the region is ACTIVE
(R412, R413). -/
def State.weltOpen (s : State) (l : LaneId) (src : Nat) : Bool := !(l.kind == 1 && src == 5) || s.tileActive l.tile

/-- The CREDIT record that returns one credit of a link lane (R307, R323). -/
def creditRecord (cls lane n : Nat) : BitVec 64 := BitVec.ofNat 64 (4 * 2 ^ 56 + cls * 2 ^ 54 + lane * 2 ^ 47 + n)

/-- The head of a lane has been taken: at a receiving port side its place in the SCHED buffer is free, and the credit returns
(R307, R585). -/
def State.headTaken (s : State) (u : LaneId) : State :=
  let s := s.setLane u ((s.lane u).setPlace (s.chainLen u - 1) none)
  match u.kind == 3, portAt u.tile with
  | true, some p => s.ctrlSend p (creditRecord 0 u.lane 1)
  | _, _ => s

/-- An output lane takes the head of the input its current merge entry names, and moves to the next entry (R150, R166). -/
def State.mergeTake (s : State) (l : LaneId) (err : LaneByte) (flip : BitVec 16) : State :=
  let x := s.lane l
  if 0 < x.n ∧ (x.place 0).isNone ∧ !x.closedAt 0 then
    let e := x.entry x.idx ^^^ flip
    if !oddOk e then s.laneFault l 0 1 0
    else
      let src := bits e 15 12
      let eye := if l.kind = 1 then bits e 4 1 % 4 else bits e 4 1
      match s.sourceOf l src (bits e 11 5) with
      | none => s
      | some (u, welt) =>
        match (s.lane u).place (s.chainLen u - 1) with
        | none => s
        | some h =>
          if s.weltOpen l src then
            let b := h.b ^^^ err
            match enterPlace l 0 eye b with
            | none => s.laneFault l 0 0 (tagOf b)
            | some b' =>
              let s := s.headTaken u
              let y := s.lane l
              let s := s.setLane l { (y.setPlace 0 (some { b := b', eye := eye, waited := false })) with
                idx := if x.idx + 1 < x.n then x.idx + 1 else 0 }
              s.weltPass l.tile welt (l.kind == 1) b
          else s
  else s

/-- MERGE_TAKE (R150). -/
def execMergeTake (lane : LaneId) (err : LaneByte) (flip : BitVec 16) (s : State) : Out :=
  .next (s.mergeTake lane err flip)

/-! ### The port side (R161, R162) -/

/-- The receiving bridge shows the head of a link lane at its port-side lane, ST advanced by P mod 8, CP and data
unchanged, parity regenerated (R162, R313). The lane-byte is still one of the 1,024 of the SCHED buffer (R585). -/
def State.portDeliver (s : State) (p lane : Nat) : State :=
  let x := s.port p
  let l := portInLane (portTile p) lane
  match tget (fun _ => []) x.rx lane with
  | [] => s
  | b :: rest =>
    if ((s.lane l).place 0).isNone then
      let pl := s.fld (Reg.lnkChrx p lane) 18 9
      let b' := mkLaneByte (8 * b2n (b.getLsbD 11) + (bits b 10 8 + pl) % 8) (b.extractLsb' 0 8)
      let s := s.setPort p { x with rx := tput (fun _ => []) lane rest x.rx }
      s.setLane l ((s.lane l).setPlace 0 (some { b := b', eye := 0, waited := false }))
    else s

/-- PORT_SIDE_DELIVER (R162). -/
def execPortSideDeliver (port lane : Nat) (s : State) : Out := .next (s.portDeliver port lane)

/-! ### Accesses to the merge store (R173, R174) -/

/-- Whether an output lane of a router or a gateway lies within R152 and its router has it. -/
def laneExists (l : LaneId) : Bool :=
  if l.kind = 2 then
    match l.out with
    | 6 => decide (l.lane < 128)
    | 8 | 9 | 10 | 11 => decide (l.lane < 32)
    | 12 | 14 => decide (l.lane < 32)
    | 13 | 15 => decide (l.lane < 36)
    | _ => false
  else
    decide (l.row < 9) &&
    match l.out with
    | 0 => decide (l.lane < 4)
    | 1 | 2 | 3 | 4 => decide (l.lane < 8)
    | 5 => (attachOf l.row l.col l.lane).isSome
    | _ => false

/-- The output lane an access names, when there is one. -/
def raccLane (t : Nat) (cmd : BitVec 32) : Option LaneId :=
  let out := bits cmd 21 18
  let lane := bits cmd 17 11
  let l := if cmd.getLsbD 29 then gatewayLane t out lane else routerLane t (bits cmd 28 25) (bits cmd 24 22) out lane
  if laneExists l then some l else none

/-- TILE_RACC_CTRL is written (R173, R174). -/
def State.raccStart (s : State) (who : Who) (t : Nat) (v : BitVec 32) : State :=
  let s := s.setReg (Reg.tileRaccCtrl t) (v &&& 0x7FFFFFFF#32)
  if v.getLsbD 31 then
    let entry := bits v 10 0
    let data := s.reg (Reg.tileRaccData t)
    let wr := v.getLsbD 30
    let ok := (s.tile t).racc.isNone && (raccLane t v).isSome && (decide (entry < 1024) || entry == 0x7FF) &&
      (!wr || (s.codeWritable t && !(entry == 0x7FF && decide (1024 < bits data 10 0))))
    if ok then
      let s := s.setTile t { s.tile t with racc := some { cmd := v, who := who, data := data.setWidth 128 } }
      let s := s.setFlag (Reg.tileRaccStat t) 0 true
      if wr then s.unbarIfHalted t else s
    else s.setFlag (Reg.tileRaccStat t) 2 true
  else s

/-- The merge-store access in progress completes (R174). -/
def State.raccDone (s : State) (t : Nat) : State :=
  match (s.tile t).racc with
  | none => s
  | some a =>
    let s := s.setTile t { s.tile t with racc := none }
    let s := s.setFlag (Reg.tileRaccStat t) 0 false
    match raccLane t a.cmd with
    | none => s
    | some l =>
      let x := s.lane l
      let entry := bits a.cmd 10 0
      if a.cmd.getLsbD 30 then
        if entry = 0x7FF then s.setLane l { x with n := bits a.data 10 0 }
        else s.setLane l { x with ent := tput (fun _ => 0) entry (a.data.setWidth 16) x.ent }
      else
        let d := if entry = 0x7FF then BitVec.ofNat 32 x.n else (x.entry entry).setWidth 32
        s.setReg (Reg.tileRaccData t) d

/-- MERGE_ACCESS_COMPLETE (R174). -/
def execMergeAccessComplete (t : Nat) (s : State) : Out := .next (s.raccDone t)

end Sys2Proof.Machine
end

