-- ==== Sys2Proof/Machine/Noc.lean ====
section
/-! DEFINITION. The packet network: addresses (R269, R270), the checks of a master interface (R276, R282), violations
(R283), unfreezing (R284), sending, forwarding and admission at a node (R265 to R268, R286 to R288), responses and
timeouts (R279 to R281), locks (R277, R278). -/

namespace Sys2Proof.Machine

/-- NoC address fields (R269, R207). -/
def aSpace (a : BitVec 48) : Nat := bits a 47 46
def aX (a : BitVec 48) : Nat := bits a 45 42
def aY (a : BitVec 48) : Nat := bits a 41 38
def aPh (a : BitVec 48) : Bool := a.getLsbD 37
def aOff (a : BitVec 48) : Nat := bits a 19 0
def aBank (a : BitVec 48) : Nat := bits a 21 18
def aWord (a : BitVec 48) : Nat := bits a 17 3
def aHbm (a : BitVec 48) : Nat := bits a 45 0

/-- The end of the user HBM space: 279 GiB (R235). -/
def hbmTop : Nat := 279 * 2 ^ 30

namespace State

variable (s : State)

/-- Physical tile of last tile (tx,ty), when the loaded image holds it (R179, R270). -/
def physTile (tx ty : Nat) : Option Nat :=
  (List.range 64).find? fun t =>
    s.flag (Reg.tilePlace t) 31 && s.fld (Reg.tilePlace t) 29 27 == tx && s.fld (Reg.tilePlace t) 26 24 == ty

/-- Where an HBM byte address lies under MC_CTRL.MAP: stack, logical pseudo-channel, offset (R236). -/
def hbmPlace (a : Nat) : Nat × Nat × Nat :=
  let b := a / 256
  if s.flag (Reg.mcCtrl 0) 2 then
    let st := a / 0xBA0000000
    let q := a % 0xBA0000000 / 256
    (st, q % 62, 256 * (q / 62) + a % 256)
  else (b % 6, b / 6 % 62, 256 * (b / 6 / 62) + a % 256)

/-- The destination node of an address (R270); none where a last tile is named that the image does not hold. -/
def destOf (a : BitVec 48) : Option Nat :=
  if aSpace a = 2 then some (mcNode (s.hbmPlace (aHbm a)).1)
  else if aPh a then some (10 * aY a + aX a)
  else (s.physTile (aX a) (aY a)).map tileNode

/-! ### Masters -/

/-- The context of a master's requests (R275); asked is what the task descriptor or the sender gives. -/
def ctxOf (node mid asked : Nat) : Nat :=
  match nodeKind node with
  | .tile t => s.fld (Reg.nocMctx t) 5 0
  | .hp => if mid < 16 then 0 else s.fld (Reg.hpAp (mid - 16)) 5 0
  | .ss => asked
  | .port _ => s.fld Reg.fabCtrl 21 16
  | _ => 0

/-- Outstanding requests a master may have (R275). -/
def outLimit (node : Nat) : Nat :=
  match nodeKind node with
  | .tile _ => 32
  | .dm | .pm | .tio => 16
  | _ => 64

/-- Whether a node's master sends on the service channel (R266). -/
def serviceClass (node : Nat) : Bool :=
  match nodeKind node with
  | .ss | .dm | .pm | .ce => true
  | _ => false

/-- Whether a master never freezes: the BAR0 path, the CE and the PM (R283). -/
def neverFreezes (node mid : Nat) : Bool := (node == hpNode && mid == 0) || node == ceNode || node == pmNode

/-- Data flits or registers, words, bursts a command moves (R273). -/
def lenOk (cmd len : Nat) : Bool :=
  match cmd with
  | 0 | 1 => decide (1 ≤ len ∧ len ≤ 8)
  | 2 | 6 | 8 => len == 0
  | 3 | 4 | 5 => len == 1
  | _ => false

/-- Whether a command may address a space (R273). -/
def cmdSpaceOk (cmd space : Nat) : Bool :=
  match cmd with
  | 0 | 1 => true
  | 2 | 3 => space == 2 || space == 3
  | 4 | 5 | 6 => space != 2
  | 8 => space != 2 && space != 1
  | _ => false

/-- The kind of node that an address with PH = 0 or 1 names: a last tile, or the node at the coordinates. -/
def namesPort (a : BitVec 48) : Bool :=
  aPh a && (match nodeKind (10 * aY a + aX a) with
    | .port _ => true
    | _ => false)

/-- The size in data flits that a request touches at its target. -/
def touched (cmd len : Nat) : Nat := if cmd = 0 ∨ cmd = 1 ∨ cmd = 4 ∨ cmd = 5 then len else 0

/-- Whether the data of a request stay inside its unit: 256-byte block, bank, window, remote window (R208, R238, R273,
R328). -/
def extentOk (cmd len : Nat) (a : BitVec 48) : Bool :=
  let n := touched cmd len
  match aSpace a with
  | 0 =>
    let o := aOff a
    let win := !(namesPort a && decide (0x80000 ≤ o ∧ o < 0xC0000)) || decide (o % 0x10000 + 32 * n ≤ 0x10000)
    decide (o + 32 * n ≤ 0x100000) && win
  | 1 => decide (aWord a + 4 * n ≤ 32768)
  | 2 => decide (aHbm a % 256 / 32 + n ≤ 8)
  | _ => true

/-- The format checks of R282 in their order: CMD (4), ADDR (5), DEST (6), LEN (7); 0 where none fails. -/
def formatCause (pk : Packet) : Nat :=
  let a := pk.addr
  let sp := aSpace a
  let node := 10 * aY a + aX a
  if !cmdSpaceOk pk.cmd sp then 4
  else if sp = 3 ∨ (sp = 0 ∧ (bits a 36 20 ≠ 0 ∨ (pk.cmd ≠ 8 ∧ aOff a % 4 ≠ 0))) ∨ (sp = 1 ∧ bits a 36 22 ≠ 0) then 5
  else if (sp = 0 ∨ sp = 1) ∧ (9 < aX a ∨ 9 < aY a ∨ (aPh a ∧ nodeKind node = .empty)) then 6
  else if sp = 1 ∧ aPh a ∧ (tileAt (aX a) (aY a)).isNone then 6
  else if !lenOk pk.cmd pk.len || !extentOk pk.cmd pk.len a then 7
  else 0

/-- The bytes of an HBM request: first and last address (R238). -/
def hbmSpan (pk : Packet) : Nat × Nat :=
  let a := aHbm pk.addr
  if pk.cmd = 2 ∨ pk.cmd = 3 then (a / 8 * 8, a / 8 * 8 + 7) else (a / 32 * 32, a / 32 * 32 + 32 * pk.len - 1)

/-- The checks of R276 for contexts 1 to 63: CTX (8), PERM (3), REGION (2); 0 where none fails. -/
def contextCause (pk : Packet) : Nat :=
  if pk.ctx = 0 then 0
  else
    let perm := s.reg (Reg.nocCtxPerm pk.ctx)
    let h := s.reg (Reg.nocCtxHbm pk.ctx)
    let sp := aSpace pk.addr
    if !perm.getLsbD 31 then 8
    else if !(if sp = 0 then perm.getLsbD 2 else if sp = 1 then perm.getLsbD 1 else perm.getLsbD 0) then 3
    else if sp = 2 then
      let span := hbmSpan pk
      if bits h 12 0 ≤ span.1 / 2 ^ 26 ∧ span.2 / 2 ^ 26 ≤ bits h 28 16 then 0 else 2
    else 0

/-- A fault record and the first-violation record of a violation (R283, R293, R586). tgt is the target node when the
target found it. -/
def recordViolation (node mid : Nat) (pk : Packet) (cause : Nat) (tgt : Option Nat) : State :=
  let a := pk.addr.toNat
  let tdet := match tgt with
    | some n => 2 ^ 11 + n % 10 * 2 ^ 7 + n / 10 * 2 ^ 3
    | none => 0
  let s := s.record 2 3 cause node (mid * 64 + pk.ctx) (a % 2 ^ 32) (a / 2 ^ 32 * 2 ^ 16 + pk.cmd * 2 ^ 12 + tdet)
  if s.flag Reg.nocVrec0 31 then s
  else
    let w := 2 ^ 31 + node % 10 * 2 ^ 27 + node / 10 * 2 ^ 23 + mid * 2 ^ 13 + pk.ctx * 2 ^ 7 + cause * 2 ^ 3 +
      b2n tgt.isSome * 4
    ((s.setReg Reg.nocVrec0 (BitVec.ofNat 32 w)).setReg Reg.nocVrec1 (BitVec.ofNat 32 a)).setReg Reg.nocVrec2
      (BitVec.ofNat 32 (a / 2 ^ 32 * 2 ^ 16 + pk.cmd))

/-- The response a violation ends with: ERROR for REGION, VIOL otherwise (R282). -/
def violResp (cause : Nat) : Nat := if cause = 2 then 1 else 6

/-- The response packet to a request (R272, R274): source and destination exchanged, class 01b for a class 00b request. -/
def respOf (pk : Packet) (node code : Nat) (data : List (BitVec 256)) : Packet :=
  { pk with dx := pk.sx, dy := pk.sy, sx := node % 10, sy := node / 10, cmd := 7, cls := if pk.cls = 2 then 2 else 1,
            len := data.length, resp := code, data := data }

/-- The physical cluster and WU of a tile's master interface (R275). -/
def wuOfMid (mid : Nat) : Nat × Nat := (mid / 5, mid % 5)

/-- Responses of one WU queue are returned in the order of its requests (R242): an entry takes the response the interface
holds for it once no earlier entry awaits one. Answers the queue and the codes returned. -/
def returnInOrder : List QEnt → List QEnt × List Nat
  | [] => ([], [])
  | e :: t =>
    if e.state = 1 then
      match e.resp with
      | some (code, d) =>
        let r := returnInOrder t
        ({ e with state := if code = 0 then 2 else 8 + code % 8, data := d, resp := none } :: r.1, code :: r.2)
      | none => (e :: t, [])
    else
      let r := returnInOrder t
      (e :: r.1, r.2)

/-- A non-OK response to a WU's access: CLU_WERR and SEQ_LOSS.WUERR (R38, R129, R137). An uncorrected error loses no
promise by itself. -/
def wuErr (t c pw code : Nat) : State :=
  if code = 0 then s
  else
    let s := (s.setFld (Reg.cluWerr t c pw) 31 28 (code % 8)).count (Reg.cluWerr t c pw) 7 0 1
    if code = 5 then s else s.loss 3

/-- A response reaches a WU's queue (R126, R129): the entry that travels under the slot takes it. -/
def wuRespond (t c pw : Nat) (rsp : Packet) : State :=
  let x := s.clu t c
  let u := x.wu pw
  let q := if rsp.q then 1 else 0
  let d := match rsp.data with
    | w :: _ => w.setWidth 64
    | [] => 0
  let set := (u.queue q).map fun e =>
    if e.state = 1 ∧ e.slot = some rsp.slot then
      { e with resp := some (rsp.resp, if !e.wr && (rsp.resp == 0 || rsp.resp == 5) then d else 0), slot := none }
    else e
  let r := returnInOrder set
  let s := s.setClu t c (x.setWu pw (u.setQueue q r.1))
  r.2.foldl (fun s code => s.wuErr t c pw code) s

/-- A response is handed to its master: a WU's queue, or the master's last response. -/
def handOver (node mid : Nat) (rsp : Packet) : State :=
  match nodeKind node with
  | .tile t => s.wuRespond t (wuOfMid mid).1 (wuOfMid mid).2 rsp
  | .port p =>
    let x := s.port p
    let s := s.setMaster node mid { s.master node mid with last := some rsp }
    match tget (fun _ => none) x.remote rsp.slot with
    | some f =>
      let back : FabPkt := { f with dest := f.src, src := s.fld Reg.fabCtrl 10 0, hops := 0, port := 8, late := false,
                                    e := s.flag Reg.fabRtCtrl 30,
                                    pk := { rsp with slot := f.pk.slot, gen := f.pk.gen, mid := f.pk.mid,
                                                     dx := f.pk.sx, dy := f.pk.sy, addr := f.pk.addr } }
      s.setPort p { x with remote := tput (fun _ => none) rsp.slot none x.remote, arrived := x.arrived ++ [back] }
    | none => s
  | .tt => { s with tt := { s.tt with resps := s.tt.resps ++ [rsp] } }
  | _ => s.setMaster node mid { s.master node mid with last := some rsp }

/-- Ends a request at its own interface with a code, without a packet. -/
def endLocal (node mid : Nat) (pk : Packet) (code : Nat) : State :=
  s.handOver node mid { (respOf pk node code []) with mid := mid }

/-- The lowest slot a master may use: neither outstanding nor waiting for a late response (R281). -/
def freeSlot (node mid : Nat) : Option Nat :=
  (List.range (outLimit node)).find? fun k =>
    let x := tget (fun _ => Slot.empty) (s.master node mid).slots k
    x.req.isNone && !x.late

/-- A violation at a master interface (R283): recorded; the interface freezes with its offending request, or the request
ends with VIOL at once. -/
def violate (node mid : Nat) (pk : Packet) (cause : Nat) : State :=
  let s := s.recordViolation node mid pk cause none
  if neverFreezes node mid then s.endLocal node mid pk 6
  else
    s.setMaster node mid { s.master node mid with
      frozen := true, bad := some (respOf pk node (violResp cause) []) }

/-- A request leaves its interface under a slot; a WU's queue entry takes the slot (R281). -/
def launch (node mid : Nat) (pk : Packet) (dest slot : Nat) : State :=
  let m := s.master node mid
  let old := tget (fun _ => Slot.empty) m.slots slot
  let pk := { pk with slot := slot, gen := (old.gen + 1) % 64, dx := dest % 10, dy := dest / 10 }
  let live : Slot := { gen := pk.gen, req := some pk, late := false }
  let s := s.setMaster node mid { m with slots := tput (fun _ => Slot.empty) slot live m.slots }
  let s := { s with net := s.net ++ [{ pk := pk, pos := node }] }
  match nodeKind node with
  | .tile t =>
    let c := (wuOfMid mid).1
    let x := s.clu t c
    let u := x.wu (wuOfMid mid).2
    let q := if pk.q then 1 else 0
    let l := u.queue q
    match l.findIdx? fun e => e.state = 1 ∧ e.slot.isNone ∧ e.resp.isNone with
    | some i => s.setClu t c (x.setWu (wuOfMid mid).2 (u.setQueue q (l.modify i fun e => { e with slot := some slot })))
    | none => s
  | _ => s

/-- The first queue entry of a WU that awaits a response and has not been sent takes a local response. -/
def wuLocal (t c pw : Nat) (pk : Packet) (code : Nat) : State :=
  let x := s.clu t c
  let u := x.wu pw
  let q := if pk.q then 1 else 0
  let l := u.queue q
  match l.findIdx? fun e => e.state = 1 ∧ e.slot.isNone ∧ e.resp.isNone with
  | some i =>
    let s := s.setClu t c (x.setWu pw (u.setQueue q (l.modify i fun e => { e with slot := some 64 })))
    s.wuRespond t c pw { (respOf pk 0 code []) with slot := 64 }
  | none => s

/-- A request ends at its interface before it is sent. -/
def endUnsent (node mid : Nat) (pk : Packet) (code : Nat) : State :=
  match nodeKind node with
  | .tile t => s.wuLocal t (wuOfMid mid).1 (wuOfMid mid).2 pk code
  | _ => s.endLocal node mid pk code

/-- Records a hit of a range unit and acts (R502, R510). -/
def rangeAct (t r : Nat) (pk : Packet) (record act : Bool) : State :=
  let k := Reg.dbgRuCtrl t r
  let s := if record then s.setTile t { s.tile t with ruHist := setBit (s.tile t).ruHist r true } else s
  let s := if record && !s.flag k 15 then
      let s := s.setFlag k 15 true
      let h := pk.sx * 2 ^ 28 + pk.sy * 2 ^ 24 + pk.mid * 2 ^ 14 + pk.ctx * 2 ^ 8 + pk.cmd * 2 ^ 4
      let s := s.setReg (Reg.dbgRuHinfo t r) (BitVec.ofNat 32 h)
      let s := s.setReg (Reg.dbgRuHaddr t r) (pk.addr.setWidth 32)
      s.setReg (Reg.dbgRuHcyc t r) (s.seq.cycle.setWidth 32)
    else s
  if act then
    match s.fld k 17 16 with
    | 1 => s.irq (tileNode t)
    | 2 => s.armPoint 5 s.seq.cycle 0x7FF false true
    | 3 => if s.fabWide false then s.armPoint 5 s.seq.cycle 0 false true
           else { s with dbg := { s.dbg with now := true, nowCause := 5 } }
    | _ => s
  else s

/-- Whether range unit r of a tile matches a request (R502): from the WUs of the tile, or inbound. -/
def rangeHit (t r : Nat) (pk : Packet) (fromWu : Bool) : Bool :=
  let k := Reg.dbgRuCtrl t r
  let src := s.fld k 30 29
  let watched := if fromWu then src == 1 || src == 2 else src != 1
  let wr := pk.cmd == 1 || pk.cmd == 3 || pk.cmd == 5
  let rd := pk.cmd == 0 || pk.cmd == 2 || pk.cmd == 4
  let kind := (wr && s.flag k 28) || (rd && s.flag k 27)
  let lo := (s.reg (Reg.dbgRuLoL t r)).toNat + 2 ^ 32 * s.fld (Reg.dbgRuLoH t r) 15 0
  let hi := (s.reg (Reg.dbgRuHiL t r)).toNat + 2 ^ 32 * s.fld (Reg.dbgRuHiH t r) 15 0
  s.flag k 31 && watched && kind && (!s.flag k 26 || s.fld k 25 20 == pk.ctx) &&
    decide (lo ≤ pk.addr.toNat ∧ pk.addr.toNat ≤ hi)

/-- The range units of a tile see a request (R502): a linked unit A only records; B acts under LINK. -/
def rangeUnits (t : Nat) (pk : Packet) (fromWu : Bool) : State :=
  (List.range 8).foldl (fun s r =>
    let link := fun b => s.fld (Reg.dbgRuCtrl t b) 19 18
    if s.rangeHit t r pk fromWu then
      if r % 2 = 0 then
        let l := link (r + 1)
        if l = 1 then s.rangeAct t r pk true false
        else if l = 2 then
          let s := s.rangeAct t r pk true false
          if (s.tile t).ruHist.getLsbD (r + 1) then s.rangeAct t (r + 1) pk false true else s
        else s.rangeAct t r pk true true
      else
        let l := link r
        let a := (s.tile t).ruHist.getLsbD (r - 1)
        if l = 1 then (if a then s.rangeAct t r pk true true else s)
        else if l = 2 then s.rangeAct t r pk true a
        else s.rangeAct t r pk true true
    else s) s

/-- A request is checked and sent, or held while the interface is frozen, or ends at once (R270, R276, R282, R283). It
waits when no slot is free. -/
def request (node mid : Nat) (pk0 : Packet) : State :=
  let pk := { pk0 with sx := node % 10, sy := node / 10, mid := mid, ctx := s.ctxOf node mid pk0.ctx,
                       cls := if serviceClass node then 2 else 0, resp := 0 }
  let m := s.master node mid
  if m.frozen then s.setMaster node mid { m with held := m.held ++ [{ req := pk, expired := false }] }
  else
    let f := formatCause pk
    if f ≠ 0 then s.violate node mid pk f
    else
      let cc := s.contextCause pk
      if cc ≠ 0 then s.violate node mid pk cc
      else if aSpace pk.addr = 2 ∧ hbmTop ≤ (hbmSpan pk).2 then s.endUnsent node mid pk 1
      else
        match s.destOf pk.addr with
        | none => s.endUnsent node mid pk 1
        | some d =>
          if pk.cmd = 8 then
            { s with net := s.net ++ [{ pk := { pk with dx := 0, dy := 0, cls := 2 }, pos := node }] }
          else
            match s.freeSlot node mid with
            | some k =>
              let s := match nodeKind node with
                | .tile t => s.rangeUnits t pk true
                | _ => s
              s.launch node mid pk d k
            | none => s.setMaster node mid { m with want := m.want ++ [pk0] }

/-- Domain of a node (R285): tiles 0 to 63, MCs 64 to 69, ports 70 to 77, TT 78, SS 79, TIO 80. -/
def domainOf (node : Nat) : Option Nat :=
  match nodeKind node with
  | .tile t => some t
  | .mc m => some (64 + m)
  | .port p => some (70 + p)
  | .tt => some 78
  | .ss => some 79
  | .tio => some 80
  | _ => none

/-- Whether a domain is privileged (R285). -/
def privileged (k : Nat) : Bool := decide (64 ≤ k ∧ k ≤ 77)

/-- Whether the masters of a node may issue: those of an ordinary domain only while it is ON (R287). -/
def mastersOn (node : Nat) : Bool :=
  match domainOf node with
  | some k => privileged k || s.domState k == 2
  | none => true

/-- A request is sent, or joins those that wait for a slot at the interface (R267, R283). -/
def handIn (node mid : Nat) (pk : Packet) : State :=
  let m := s.master node mid
  if m.want.isEmpty || m.frozen then s.request node mid pk
  else s.setMaster node mid { m with want := m.want ++ [pk] }

/-- The NoC address that the host port forms from an offset in a BAR, and PEEK of reads through BAR2 (R271). Offsets of BAR0 from
100 MiB on name no node: the host port drops the access (R11). -/
def hostMap (node mid : Nat) (pk : Packet) : Option Packet :=
  if node ≠ hpNode then some pk
  else if mid = 0 then
    let o := pk.addr.toNat % 2 ^ 27
    let n := o / 0x100000
    if n < 100 then some { pk with addr := BitVec.ofNat 48 (n % 10 * 2 ^ 42 + n / 10 * 2 ^ 38 + 2 ^ 37 + o % 0x100000) } else none
  else if 16 ≤ mid ∧ mid < 32 then
    some { pk with addr := BitVec.ofNat 48 (s.fld (Reg.hpAp (mid - 16)) 31 16 * 2 ^ 32 + pk.addr.toNat % 2 ^ 32),
                   peek := pk.peek || pk.cmd % 2 == 0 }
  else none

/-- A master hands a request over, or the interface takes the oldest one that waits, once a slot is free (R276). The host names
offsets in its BARs. -/
def nocSend (node mid : Nat) (req : Option Packet) : State :=
  if !s.mastersOn node then s
  else match req with
  | some pk => match s.hostMap node mid pk with
    | some pk => s.handIn node mid pk
    | none => s
  | none =>
    let m := s.master node mid
    match m.want with
    | pk :: rest => if (s.freeSlot node mid).isNone then s else (s.setMaster node mid { m with want := rest }).request node mid pk
    | [] => s

/-! ### Domains and admission at a node -/

/-- The domain that an access at an offset of a node's window needs to be on (R286): in a tile only the CLU blocks,
SEQ_TSTEP, router merge-store accesses and the probe table (R475; log 35); all of TT, SS and TIO; the remote windows of a
port. gw is TILE_RACC's GW bit where the access writes it. -/
def winNeeds (node o : Nat) (gw : Option Bool) : Option Nat :=
  match nodeKind node with
  | .tile t =>
    if (0x80000 ≤ o ∧ o < 0xD0000) ∨ o = 0x40000 ∨ (0xE0000 ≤ o ∧ o < 0xE8000) then some t
    else if 0x50010 ≤ o ∧ o < 0x5001C ∧ !gw.getD (s.flag (Reg.tileRaccCtrl t) 29) then some t
    else none
  | .tt => some 78
  | .ss => some 79
  | .tio => some 80
  | .port p => if 0x80000 ≤ o ∧ o < 0xC0000 then some (70 + p) else none
  | _ => none

/-- Register m of a data flit (R273). -/
def flitReg (f : BitVec 256) (m : Nat) : BitVec 32 := f.extractLsb' (32 * m) 32

/-- The numbers of the registers, from its address on, that a control-space request reaches (R273): in the last flit of a write BE
names them, and in the read of one register through BAR0 (log 90). -/
def regsOf (pk : Packet) : List Nat :=
  if pk.cmd = 6 then [0]
  else
    let named := pk.cmd = 1 ∨ pk.cmd = 5 ∨ (pk.cmd = 0 ∧ 10 * pk.sy + pk.sx = hpNode ∧ pk.mid = 0 ∧ pk.be ≠ 0)
    (List.range (8 * pk.len)).filter fun i => decide (i / 8 + 1 < pk.len) || pk.be.getLsbD (i % 8) || !decide named

/-- The GW bit that a write of TILE_RACC_CTRL carries. -/
def gwOf (pk : Packet) : Option Bool :=
  let i := (0x50010 - aOff pk.addr) / 4
  if (pk.cmd = 1 ∨ pk.cmd = 5) ∧ aOff pk.addr ≤ 0x50010 ∧ (regsOf pk).contains i then
    some ((flitReg (pk.data.getD (i / 8) 0) (i % 8)).getLsbD 29)
  else none

/-- The domain that a request needs to be on; HBM requests are checked by the controller (R254). -/
def needsDomain (node : Nat) (pk : Packet) : Option Nat :=
  if aSpace pk.addr ≠ 0 then none
  else (regsOf pk).findSome? fun i => s.winNeeds node (aOff pk.addr + 4 * i) (gwOf pk)

/-- The lock of a node. -/
def lock (node : Nat) : Lock := tget (fun _ => Lock.empty) s.locks node

def setLock (node : Nat) (l : Lock) : State := { s with locks := tput (fun _ => Lock.empty) node l s.locks }

/-- Whether the lock of a node keeps a request waiting (R277, R497): held by another master, the CE excepted; or it would
open a lock during the lock wait of a halt. -/
def lockWaits (node : Nat) (pk : Packet) : Bool :=
  let l := s.lock node
  let from_ := 10 * pk.sy + pk.sx
  if l.isOpen then !(l.node == from_ && l.mid == pk.mid) && from_ != ceNode
  else s.flag Reg.dbgStat 26 && (pk.cmd == 4 || pk.cmd == 5) && !l.broken.contains (from_, pk.mid)

/-- Whether a request goes to a tile whose region is under reconfiguration (R288), the CE's own excepted. -/
def regionWaits (node : Nat) (pk : Packet) : Bool :=
  match nodeKind node with
  | .tile t => s.rgnState t == 2 && (s.needsDomain node pk).isSome && 10 * pk.sy + pk.sx != ceNode
  | _ => false

/-- What a node does with an arriving request: serve 0, hold 1, FENCED 2, ERROR 3, cancel the power-down 4, after which it serves or
holds. -/
def admission (node : Nat) (pk : Packet) : Nat :=
  match s.needsDomain node pk with
  | some k =>
    let st := s.domState k
    if privileged k then
      (if st = 2 ∨ (st = 5 ∧ (s.pw k).fence = false) then (if s.lockWaits node pk then 1 else 0) else if st = 6 then 3 else 2)
    else if st = 6 then 3
    else if st = 0 ∨ st = 1 ∨ st = 4 then 1
    else if st = 3 then 4
    else if s.regionWaits node pk || s.lockWaits node pk then 1
    else 0
  | none => if s.regionWaits node pk || s.lockWaits node pk then 1 else 0

def queueAt (node : Nat) : List Packet := tget (fun _ => []) s.epq node

def setQueueAt (node : Nat) (l : List Packet) : State := { s with epq := tput (fun _ => []) node l s.epq }

def srvAt (node : Nat) : List Packet := tget (fun _ => []) s.srv node

def setSrvAt (node : Nat) (l : List Packet) : State := { s with srv := tput (fun _ => []) node l s.srv }

/-- A response leaves a node. -/
def respond (node : Nat) (pk : Packet) (code : Nat) (data : List (BitVec 256)) : State :=
  { s with net := s.net ++ [{ pk := respOf pk node code data, pos := node }] }

/-! ### Owners of the banks (R209 to R212, R217) -/

/-- BNK_OWNER.OWN: 1 WU group, 2 host, 3 service engine, 4 trace engine (R209). -/
def bankOwn (t b : Nat) : Nat := s.fld (Reg.bnkOwner t b) 2 0
def bankCeng (t b : Nat) : Nat := s.fld (Reg.bnkOwner t b) 7 4
/-- BNK_STAT.HSTATE: 0 IDLE, 1 WAITMN, 2 DRAIN, 3 CLEAR (R226). -/
def bankH (t b : Nat) : Nat := s.fld (Reg.bnkStat t b) 29 28

/-- Whether the handover in progress keeps the owner and engine (R220). -/
def sameOwner (t b : Nat) : Bool :=
  (s.bank t b).new == s.bankOwn t b && ((s.bank t b).new != 3 || (s.bank t b).eng == s.bankCeng t b)

/-- Whether the old owner is fenced off the bank (R217). -/
def bankFenced (t b : Nat) : Bool := decide (2 ≤ s.bankH t b) && !s.sameOwner t b

/-- Whether a bank's owner lets a master use it (R209 to R212). -/
def nocOwns (t b : Nat) (pk : Packet) : Bool :=
  let own := s.bankOwn t b
  match nodeKind (10 * pk.sy + pk.sx) with
  | .dm => true
  | .hp => own == 2
  | .tt => own == 4
  | .ss => (own == 3 && s.bankCeng t b == pk.mid) || (own == 1 && s.barrierWriter (.engine pk.mid) && s.seq.midnight)
  | _ => false

/-- Whether a request that reaches a bank's arbiter is accepted there: its master may use the bank, and no handover fences
the old owner off (R209 to R212, R217). -/
def nocMayUse (t b : Nat) (pk : Packet) : Bool :=
  s.nocOwns t b pk && (nodeKind (10 * pk.sy + pk.sx) == .dm || s.bankOwn t b == 1 || !s.bankFenced t b)

/-- A violation found by the target (R282, R283): recorded; the master's interface freezes and holds the VIOL response;
for a master that never freezes the response travels. -/
def violateAt (node : Nat) (pk : Packet) (cause : Nat) : State :=
  let from_ := 10 * pk.sy + pk.sx
  let s := s.recordViolation from_ pk.mid pk cause (some node)
  if neverFreezes from_ pk.mid then s.respond node pk 6 []
  else
    let m := s.master from_ pk.mid
    s.setMaster from_ pk.mid { m with frozen := true, viols := m.viols ++ [{ (respOf pk node 6 []) with mid := pk.mid }] }

/-- Whether a locked request of a master finds its broken lock (R278). -/
def findsBroken (node : Nat) (pk : Packet) : Bool :=
  let l := s.lock node
  l.broken.contains (10 * pk.sy + pk.sx, pk.mid)

/-- A node takes a request to be served, oldest first. A bank accepts it or finds the violation here, at its arbiter (R212,
R217, R219); what a bank has accepted is served whatever handover follows. -/
def take (node : Nat) (pk : Packet) : State :=
  let on := s.setSrvAt node (s.srvAt node ++ [pk])
  match nodeKind node with
  | .tile t =>
    if aSpace pk.addr = 1 ∧ pk.cmd ≠ 6 ∧ s.findsBroken node pk = false ∧ s.nocMayUse t (aBank pk.addr) pk = false then
      (s.rangeUnits t pk false).violateAt node pk 1
    else on
  | _ => on

/-- A request waits in the endpoint queue, or finds it full (R288). -/
def hold (node : Nat) (pk : Packet) : State :=
  if (s.queueAt node).length < 8 then s.setQueueAt node (s.queueAt node ++ [pk])
  else (s.respond node pk 3 []).count (Reg.nocNcnt node) 31 16 1

/-- A request that reaches a node whose domain powers down cancels that (R287). -/
def arriving (node : Nat) (pk : Packet) : State :=
  match s.admission node pk, domainOf node with
  | 4, some k => s.cancelDown k
  | _, _ => s

/-- A request is admitted, held, answered or refused at its node (R287, R288). -/
def letIn (node : Nat) (pk : Packet) : State :=
  let s := s.arriving node pk
  match s.admission node pk with
  | 0 => s.take node pk
  | 2 => s.respond node pk 2 []
  | 3 => s.respond node pk 1 []
  | _ => s.hold node pk

/-- The endpoint queue of a node releases what it may, in arrival order (R288). -/
def drainQueue (node : Nat) : State :=
  let l := s.queueAt node
  l.foldl (fun s pk => s.letIn node pk) (s.setQueueAt node [])

/-! ### Forwarding -/

/-- The next router under X-then-Y routing (R265). -/
def nextHop (pos : Nat) (pk : Packet) : Nat :=
  let x := pos % 10
  let y := pos / 10
  if x < pk.dx then pos + 1 else if pk.dx < x then pos - 1
  else if y < pk.dy then pos + 10 else if pk.dy < y then pos - 10
  else pos

/-- Header words [255:224] and [223:192] of a packet (R272). -/
def headerHi (pk : Packet) : Nat × Nat :=
  (pk.dx * 2 ^ 28 + pk.dy * 2 ^ 24 + pk.sx * 2 ^ 20 + pk.sy * 2 ^ 16 + pk.mid * 2 ^ 6 + pk.ctx,
   pk.cmd * 2 ^ 28 + pk.cls * 2 ^ 26 + pk.len * 2 ^ 22 + pk.slot * 2 ^ 16 + pk.gen * 2 ^ 10 + pk.addr.toNat / 2 ^ 38)

/-- The router output at which a packet waits (R265): that to the next router, or to the node. -/
def outOf (f : Flight) : Nat := 100 * f.pos + nextHop f.pos f.pk

/-- Transfers that a packet takes on a link (R265). -/
def transfers (pk : Packet) : Nat := (pk.data.length + 8) / 8

/-- Whether a channel has a packet at an output. -/
def channelWaits (o c : Nat) : Bool := s.net.any fun f => outOf f == o && f.pk.cls == c

/-- Transfers that a channel at an output has waited. -/
def waitedFor (o c : Nat) : Nat := tget (fun _ => 0) s.chanWait (4 * o + c)

/-- Whether the channel of a class takes the next transfer of an output (R266): the first that has waited 64 transfers, else
service before response before request. -/
def channelNext (o c : Nat) : Bool :=
  let l := [2, 1, 0].filter (s.channelWaits o)
  match l.find? fun k => decide (64 ≤ s.waitedFor o k) with
  | some k => k == c
  | none => l.headD c == c

/-- A packet at place i leaves by its output: the channels that wait there have let its transfers pass. -/
def depart (i : Nat) (f : Flight) : State :=
  let o := outOf f
  let put := fun (m : Tab Nat) c => tput (fun _ => 0) (4 * o + c)
    (if c ≠ f.pk.cls ∧ s.channelWaits o c = true then s.waitedFor o c + transfers f.pk else 0) m
  { s with net := s.net.eraseIdx i, chanWait := [0, 1, 2].foldl put s.chanWait }

/-- A router forwards a packet, corrects or discards it; at the router of its destination a request is admitted by the
node, an EVT reaches HP (R265, R266, R268, R288, R291). A packet keeps its place behind earlier ones of its class, source and
destination (R267). -/
def forward (i : Nat) (err : FlitErr) : State :=
  match s.net[i]? with
  | none => s
  | some f =>
    let dest := 10 * f.pk.dy + f.pk.dx
    let ahead := (s.net.take i).any fun g =>
      g.pk.dx == f.pk.dx && g.pk.dy == f.pk.dy && g.pk.sx == f.pk.sx && g.pk.sy == f.pk.sy && g.pk.mid == f.pk.mid &&
        g.pk.cls == f.pk.cls && g.pos == f.pos
    if ahead || !s.channelNext (outOf f) f.pk.cls then s
    else
      let s' := s.depart i f
      match err with
      | .uncorrected =>
        let h := headerHi f.pk
        (s'.count Reg.nocLink 15 0 1).record 1 3 0x10 f.pos 0 h.1 h.2
      | e =>
        let count := fun (s : State) => if e = .corrected then s.count Reg.nocLink 31 16 1 else s
        if f.pos = dest then
          if f.pk.cmd = 7 then count s
          else if f.pk.cmd = 8 then { count s' with evts := s'.evts ++ [f.pk.addr.toNat % 256] }
          else (count s').letIn dest f.pk
        else
          { count s' with net := (s.net.take i) ++ { pk := f.pk, pos := nextHop f.pos f.pk } :: s.net.drop (i + 1) }

/-! ### Responses, timeouts, unfreezing -/

/-- A late response is discarded and counted (R280, R281). -/
def countLate (node mid : Nat) : State :=
  let s := s.count (Reg.nocNcnt node) 15 0 1
  match nodeKind node with
  | .tile t => s.count (Reg.cluWerr t (wuOfMid mid).1 (wuOfMid mid).2) 15 8 1
  | _ => s

/-- A response reaches its master interface: it completes its request, is collected while the interface is frozen, or is
late (R279 to R281, R284). -/
def deliver (node : Nat) (rsp : Packet) : State :=
  let m := s.master node rsp.mid
  let x := tget (fun _ => Slot.empty) m.slots rsp.slot
  if x.gen = rsp.gen ∧ x.req.isSome ∧ rsp.resp < 8 then
    let m := { m with slots := tput (fun _ => Slot.empty) rsp.slot { x with req := none } m.slots }
    if m.frozen then s.setMaster node rsp.mid { m with collected := m.collected ++ [rsp] }
    else (s.setMaster node rsp.mid m).handOver node rsp.mid rsp
  else
    let m := if x.gen = rsp.gen ∧ x.late then
        { m with slots := tput (fun _ => Slot.empty) rsp.slot { x with late := false } m.slots } else m
    (s.setMaster node rsp.mid m).countLate node rsp.mid

/-- Whether a domain's masters have lost their interfaces: their responses are discarded as late (R287). -/
def mastersGone (node : Nat) : Bool :=
  match domainOf node with
  | some k => s.domState k == 4 || s.domState k == 0
  | none => false

/-- The response at place i of the network reaches its master's node, when its channel has its turn (R266). wu selects the WU masters' row. -/
def respArrive (i : Nat) (wu : Bool) : State :=
  match s.net[i]? with
  | none => s
  | some f =>
    let node := 10 * f.pk.dy + f.pk.dx
    let isWu := match nodeKind node with
      | .tile _ => true
      | _ => false
    if f.pk.cmd = 7 ∧ f.pos = node ∧ isWu = wu ∧ s.channelNext (outOf f) f.pk.cls = true then
      let s := s.depart i f
      if s.mastersGone node then s.countLate node f.pk.mid else s.deliver node f.pk
    else s

/-- A request's timer expires first: it ends with TIMEOUT (R280); slot 64 + k names the k-th request a frozen interface
holds (R283). -/
def timeout (node mid k : Nat) : State :=
  let m := s.master node mid
  if k < 64 then
    let x := tget (fun _ => Slot.empty) m.slots k
    match x.req with
    | some pk =>
      let m := { m with slots := tput (fun _ => Slot.empty) k { x with req := none, late := true } m.slots }
      let rsp := { (respOf pk node 4 []) with mid := mid }
      if m.frozen then s.setMaster node mid { m with collected := m.collected ++ [rsp] }
      else (s.setMaster node mid m).handOver node mid rsp
    | none => s
  else s.setMaster node mid { m with held := m.held.modify (k - 64) fun h => { h with expired := true } }

/-- A slot becomes reusable (R281). -/
def slotReuse (node mid k : Nat) : State :=
  let m := s.master node mid
  let x := tget (fun _ => Slot.empty) m.slots k
  s.setMaster node mid { m with slots := tput (fun _ => Slot.empty) k { x with late := false } m.slots }

/-- A WU's bank violation ends after the unfreeze: LD writes 0, ST writes nothing, the code is VIOL (R124). -/
def endBankViol (node mid : Nat) : State :=
  match nodeKind node with
  | .tile t =>
    let c := (wuOfMid mid).1
    let pw := (wuOfMid mid).2
    let x := s.clu t c
    let u := x.wu pw
    match u.sp with
    | some r =>
      if r.viol then
        (s.setClu t c (x.setWu pw { u with sp := some { r with viol := false, granted := true, got := 0 } })).wuErr t c pw 6
      else s
    | none => s
  | _ => s

/-- The offending request that an interface found itself ends with its code (R282, R284). -/
def endBad (node mid : Nat) (r : Packet) : State :=
  match nodeKind node with
  | .tile t => s.wuLocal t (wuOfMid mid).1 (wuOfMid mid).2 r r.resp
  | _ => s.handOver node mid { r with mid := mid }

/-- Unfreezes a master (R284): the responses collected are delivered in order, the offending requests end as R282 gives,
and the requests held are sent in order or, expired, end with TIMEOUT. -/
def unfreeze (node mid : Nat) : State :=
  let m := s.master node mid
  if m.frozen then
    let s := s.setMaster node mid { m with frozen := false, bad := none, viols := [], held := [], collected := [] }
    let s := m.collected.foldl (fun s r => s.handOver node mid r) s
    let s := m.viols.foldl (fun s r => s.deliver node r) s
    let s := match m.bad with
      | some r => s.endBad node mid r
      | none => s
    let s := s.endBankViol node mid
    m.held.foldl (fun s h => if h.expired then s.endUnsent node mid h.req 4 else s.handIn node mid h.req) s
  else s

/-- Number of frozen interfaces (R294). -/
def frozenCount : Nat := (s.masters.filter fun e => e.2.frozen).length

/-! ### Locks (R277, R278) -/

/-- Breaks the lock of a node: the holder's next locked request finds LKBRK (R278). -/
def breakLock (node : Nat) : State :=
  let l := s.lock node
  if l.isOpen then
    let who := (l.node, l.mid)
    (s.setLock node { l with isOpen := false,
                             broken := if l.broken.contains who then l.broken else l.broken ++ [who] }).drainQueue node
  else s

/-- The holder learns of the break: LKBRK, and the break is gone (R278). -/
def answerBroken (node : Nat) (pk : Packet) : State :=
  let l := s.lock node
  (s.setLock node { l with broken := l.broken.filter fun w => w != (10 * pk.sy + pk.sx, pk.mid) }).respond node pk 7 []

/-- Whether a master locks: WUs and the trace engine do not (R277). -/
def mayLock (pk : Packet) : Bool :=
  match nodeKind (10 * pk.sy + pk.sx) with
  | .tile _ | .tt => false
  | _ => true

/-- Whether a request comes from the holder of a node's lock. -/
def holdsLock (node : Nat) (pk : Packet) : Bool :=
  let l := s.lock node
  l.isOpen && l.node == 10 * pk.sy + pk.sx && l.mid == pk.mid

/-- A locked request is about to be executed: it opens the lock if none is open (R277). -/
def openLock (node : Nat) (pk : Packet) : State :=
  let l := s.lock node
  if l.isOpen || !mayLock pk then s
  else s.setLock node { l with isOpen := true, node := 10 * pk.sy + pk.sx, mid := pk.mid, count := 0 }

/-- A locked request of the holder has completed: it counts, and the 16th without UNLK breaks the lock (R278). The CE's within a lock
of another master does not count. -/
def countLock (node : Nat) (pk : Packet) : State :=
  if s.holdsLock node pk then
    let l := s.lock node
    let s := s.setLock node { l with count := l.count + 1 }
    if l.count + 1 = 16 then s.breakLock node else s
  else s

/-- Releases the lock of a node and what waits for it (R278, R288). -/
def releaseLock (node : Nat) : State :=
  (s.setLock node { s.lock node with isOpen := false, count := 0 }).drainQueue node

/-! ### Accesses to one register -/

/-- The master by which a writer reaches registers (R275); any other is a far device's. -/
def masterOf : Who → Nat × Nat
  | .host => (hpNode, 0)
  | .debug => (dmNode, 0)
  | .engine e => (ssNode, e)
  | .ce => (ceNode, 0)
  | .pm => (pmNode, 0)
  | .trace => (ttNode, 0)
  | .other => (portNode 0, 0)

/-- Whether an access goes on through a port's remote window (R325). -/
def isRemote (node : Nat) (pk : Packet) : Bool :=
  match nodeKind node with
  | .port _ => decide (0x80000 ≤ aOff pk.addr ∧ aOff pk.addr < 0xC0000)
  | _ => false

/-- The request for one register: its data flit holds eight, of which BE names the one (R273; log 90). -/
def regPacket (who : Who) (key : Nat) (wr peek : Bool) (v : BitVec 32) : Packet :=
  let n := key / 0x100000
  let m := key % 32 / 4
  { dx := n % 10, dy := n / 10, sx := (masterOf who).1 % 10, sy := (masterOf who).1 / 10, mid := (masterOf who).2, ctx := 0,
    cmd := b2n wr, cls := if serviceClass (masterOf who).1 then 2 else 0, len := 1, slot := 0, gen := 0,
    addr := BitVec.ofNat 48 (n % 10 * 2 ^ 42 + n / 10 * 2 ^ 38 + 2 ^ 37 + key % 0x100000 / 32 * 32), resp := 0, peek := peek,
    q := false, be := BitVec.ofNat 8 (2 ^ m), data := if wr then [BitVec.ofNat 256 (v.toNat * 2 ^ (32 * m))] else [] }

/-- Whether an earlier request of a master to a node is still to be served there (R267). -/
def stillAhead (node : Nat) (pk : Packet) : Bool :=
  let same := fun (g : Packet) => g.sx == pk.sx && g.sy == pk.sy && g.mid == pk.mid
  (s.net.any fun f => f.pk.cmd != 7 && f.pk.cmd != 8 && 10 * f.pk.dy + f.pk.dx == node && same f.pk) ||
    (s.queueAt node).any same || (s.srvAt node).any same

/-- Whether no request keeps an access to a register of a node waiting on its way: its master is not frozen, none of its
requests is ahead of it, and the register is the device's own (R267, R283, R325). -/
def regFree (who : Who) (key : Nat) (wr peek : Bool) (v : BitVec 32) : Bool :=
  let node := key / 0x100000
  let pk := regPacket who key wr peek v
  nodeKind node != .empty && !(s.master (masterOf who).1 (masterOf who).2).frozen && !s.stillAhead node pk && !isRemote node pk

/-- Whether an access to a register is made at once: no device reset is in force, and nothing keeps it waiting (R267, R277, R283,
R287, R288); an access beyond the nodes' windows waits for none. -/
def regNow (who : Who) (key : Nat) (wr peek : Bool) (v : BitVec 32) : Bool :=
  !s.inReset && (decide (100 ≤ key / 0x100000) ||
    (s.regFree who key wr peek v && s.admission (key / 0x100000) (regPacket who key wr peek v) == 0))

/-- A master reads or writes one register (R9, R271): where nothing keeps the access waiting it is made at once, and else it is a
request of the network like any other (R267, R277, R283, R287, R288). Keys from 100 MiB on name no node (R11). While
a device reset is in force no register can be reached. -/
def regAccess (who : Who) (key : Nat) (wr peek : Bool) (v : BitVec 32) (f : State → State) : State :=
  let node := key / 0x100000
  let pk := regPacket who key wr peek v
  let t := s.arriving node pk
  if s.inReset then s
  else if s.regNow who key wr peek v then f s
  else if s.regFree who key wr peek v && s.admission node pk == 4 && t.admission node pk == 0 then f t
  else s.handIn (masterOf who).1 (masterOf who).2 pk

/-- A master writes one register. -/
def regWrite (who : Who) (key : Nat) (v : BitVec 32) (f : State → BitVec 32 → State) : State :=
  s.regAccess who key true false v fun s => f s v

end State

/-- NOC_REQUEST_SEND (R276). -/
def execNocRequestSend (node mid : Nat) (req : Option Packet) (s : State) : Out := .next (s.nocSend node mid req)

/-- ROUTER_FORWARD (R265). -/
def execRouterForward (idx : Nat) (err : FlitErr) (s : State) : Out := .next (s.forward idx err)

/-- RESP (R280). -/
def execResp (idx : Nat) (s : State) : Out := .next (s.respArrive idx false)

/-- HBM_RESPONSE_ARRIVAL (R129). -/
def execHbmResponseArrival (idx : Nat) (s : State) : Out := .next (s.respArrive idx true)

/-- EVT (R291): the EVT at place idx of those under way to HP raises the MSI-X vector it names. -/
def execEvt (idx : Nat) (s : State) : Out :=
  match s.evts[idx]? with
  | some v => .next { s with evts := s.evts.eraseIdx idx, msix := s.msix ||| (1#256 <<< v) }
  | none => .next s

/-- NOC_REQUEST_TIMEOUT (R280). -/
def execNocRequestTimeout (node mid slot : Nat) (s : State) : Out := .next (s.timeout node mid slot)

/-- SLOT_REUSE_TIMEOUT (R281). -/
def execSlotReuseTimeout (node mid slot : Nat) (s : State) : Out := .next (s.slotReuse node mid slot)

/-- LOCK_IDLE_EXPIRY (R278). -/
def execLockIdleExpiry (node : Nat) (s : State) : Out := .next (s.breakLock node)

/-- NOC_UNFREEZE is written (R294): its RW fields take the value; ALL = 1 unfreezes every master, GO = 1 the named
one, where the coordinates name a node. -/
def State.unfreezeWrite (s : State) (v : BitVec 32) : State :=
  let s := s.setReg Reg.nocUnfreeze (v &&& 0x7FFFE000#32)
  if v.getLsbD 12 then
    (s.masters.filter fun e => e.2.frozen).foldl (fun s e => s.unfreeze (e.1 / 1024) (e.1 % 1024)) s
  else if v.getLsbD 31 ∧ bits v 26 23 ≤ 9 ∧ bits v 30 27 ≤ 9 then s.unfreeze (10 * bits v 26 23 + bits v 30 27) (bits v 22 13)
  else s

/-- NOC_UNFREEZE_MASTER (R284). -/
def execNocUnfreezeMaster (v : BitVec 32) (s : State) : Out := 
  .next (s.regWrite .host Reg.nocUnfreeze (setBit (setBit v 12 false) 31 true) State.unfreezeWrite)

/-- NOC_UNFREEZE_ALL (R284). -/
def execNocUnfreezeAll (v : BitVec 32) (s : State) : Out := 
  .next (s.regWrite .host Reg.nocUnfreeze (setBit v 12 true) State.unfreezeWrite)

end Sys2Proof.Machine
end

