-- ==== Sys2Proof/Machine/Tasks.lean ====
section
/-! DEFINITION. The descriptors of the service scheduler as the rest of the block sees them (R423, R428), and the barrier
set of a midnight (R436). -/

namespace Sys2Proof.Machine

namespace State

variable (s : State)

/-- Word w of descriptor d (R423). -/
def dword (d w : Nat) : BitVec 32 := s.reg (Reg.ssDesc d w)

def dType (d : Nat) : Nat := bits (s.dword d 0) 31 28
def dPrio (d : Nat) : Nat := bits (s.dword d 0) 27 25
def dBar (d : Nat) : Bool := (s.dword d 0).getLsbD 24
def dWhen (d : Nat) : Nat := bits (s.dword d 0) 23 22
def dCtx (d : Nat) : Nat := bits (s.dword d 0) 21 16
def dMask (d : Nat) : BitVec 32 := s.dword d 0 &&& 0xFFFF#32
/-- KEY (R423). -/
def dKey (d : Nat) : BitVec 48 := ((s.dword d 3).setWidth 16 ++ s.dword d 2).setWidth 48

/-- SS_DSTAT_d.STATE: 0 FREE, 1 WAIT, 2 READY, 3 RUN, 4 DONE, 5 FAILED (R428). -/
def dState (d : Nat) : Nat := s.fld (Reg.ssDstat d) 31 29

/-- Whether a task is in WAIT, READY or RUN. -/
def dLive (d : Nat) : Bool := s.dState d == 1 || s.dState d == 2 || s.dState d == 3

/-- Whether an engine runs a task (R446). -/
def engBusy (e : Nat) : Bool := s.flag (Reg.ssEng e) 31
def engCur (e : Nat) : Nat := s.fld (Reg.ssEng e) 25 16

/-- Whether an engine has a task in hand: a task in RUN that no engine has is with the loader or awaits the host
(R434). -/
def inEngine (d : Nat) : Bool := (List.range 16).any fun e => s.engBusy e && s.engCur e == d

/-- Whether a task stands in the barrier set of the current midnight and has not left it (R436): a barrier task keyed on
the current cycle, or one that has become due (a RESTORE may have changed the count since). A REGION_LOAD leaves the set
when the loader has it. -/
def inBarrierSet (d : Nat) : Bool :=
  s.dLive d && s.dBar d && (s.dKey d == s.seq.cycle || s.dState d != 1) &&
    !(s.dType d == 6 && s.dState d == 3 && !s.inEngine d)

/-- The descriptors that are not FREE, in ascending order: their SS_DSTAT_d differs from its Reset value. -/
def usedTasks : List Nat :=
  s.regs.filterMap fun e =>
    if Reg.ssDstat 0 ≤ e.1 ∧ e.1 ≤ Reg.ssDstat 1023 then some ((e.1 - Reg.ssDstat 0) / 4) else none

/-- Whether the barrier set has tasks not yet ended, one of them left out (R217, R436). -/
def barrierOpen (but : Option Nat) : Bool := s.usedTasks.any fun d => s.inBarrierSet d && but != some d

end State

end Sys2Proof.Machine
end

