-- ==== Sys2Proof/Machine/Banks.lean ====
section
/-! DEFINITION. The scratchpad banks: the WU order (R122, R213, R214), accesses of the network (R209 to R216), the handover
(R217 to R220), errors and scrubbing (R221 to R223). -/

namespace Sys2Proof.Machine

namespace State

variable (s : State)

/-! ### Errors (R221) -/

/-- An uncorrected error of a bank word: counted, the first recorded, reported under R40 when the WU group owns the bank.
src is BNK_UEADDR.SRC. -/
def bankUe (t b w src : Nat) : State :=
  let s := s.count (Reg.bnkEcc t b) 15 8 1
  let s := if s.flag (Reg.bnkUeaddr t b) 31 then s
    else ((s.setReg (Reg.bnkUeaddr t b) (BitVec.ofNat 32 (2 ^ 31 + src * 2 ^ 29 + w))).setReg (Reg.bnkUecyc t b)
      (s.seq.cycle.setWidth 32)).irqIf (s.flag (Reg.bnkCtrl t) 2) (tileNode t)
  if s.bankOwn t b = 1 then s.memError (tileNode t) (s.lastTile t) b (src * 2 ^ 30 + w) 0 else s

/-- What a read of a bank word does beside returning it. -/
def bankRead (t b w src : Nat) (e : Ecc) : State :=
  match e with
  | .ok | .onDie => s
  | .corrected => s.count (Reg.bnkEcc t b) 31 16 1
  | .uncorrected _ => s.bankUe t b w src

/-! ### The WU order -/

/-- Last cluster index 8 * cy + cx of a physical cluster (R213, R90). -/
def lastIdx (t c : Nat) : Nat := 8 * s.fld (Reg.cluId t c) 12 10 + s.fld (Reg.cluId t c) 9 7

/-- Whether a physical cluster is in the user set of a bank (R213). -/
def inUsers (t b c : Nat) : Bool :=
  let k := s.lastIdx t c
  if k < 32 then s.flag (Reg.bnkUsersLo t b) k else s.flag (Reg.bnkUsersHi t b) (k - 32)

/-- Whether a cluster has reached a step: it has completed the step before and presented its requests (R122). -/
def reached (x : Cluster) (st : Nat) : Bool := x.done || decide (st < x.step) || (x.step == st && x.turned)

/-- Whether every user cluster of a bank has reached a step (R122). -/
def usersReached (t b st : Nat) : Bool :=
  (List.range 72).all fun c => !(s.takesPart t c && s.inUsers t b c) || reached (s.clu t c) st

/-- The requests that wait at a bank, as (step, last cluster index, last WU index, physical cluster, physical WU). -/
def bankWaiting (t b : Nat) : List (Nat × Nat × Nat × Nat × Nat) :=
  (List.range 72).flatMap fun c =>
    if s.takesPart t c then
      let x := s.clu t c
      (List.range 5).filterMap fun pw =>
        match (x.wu pw).sp with
        | some r =>
          if r.bank = b ∧ !r.granted ∧ !r.viol then
            some (x.step, s.lastIdx t c, lastUnit [s.wuSkip t c] pw, c, pw)
          else none
        | none => none
    else []

/-- Order of grants: by step, then last cluster index, then last WU index (R122). -/
def grantBefore (a b : Nat × Nat × Nat × Nat × Nat) : Bool :=
  decide (a.1 < b.1) || (a.1 == b.1 && (decide (a.2.1 < b.2.1) || (a.2.1 == b.2.1 && decide (a.2.2.1 < b.2.2.1))))

/-- The request a bank considers next. -/
def bankFirst (t b : Nat) : Option (Nat × Nat × Nat × Nat × Nat) :=
  (s.bankWaiting t b).foldl (fun o a => match o with
    | none => some a
    | some m => if grantBefore a m then some a else some m) none

/-- Whether a WU of a cluster may access a bank (R209, R213, R217). -/
def wuMayUse (t b c : Nat) : Bool := s.bankOwn t b == 1 && s.inUsers t b c && !s.bankFenced t b

/-- A WU's access against the ownership rules: recorded, its interface freezes, the access ends after the unfreeze (R124,
R212, R283). The record's ADDR holds bank and word; the spec gives no PH, X, Y and CMD for an access that does not travel
on the network, so they are free (log 17). -/
def wuViolation (t c pw : Nat) (r : SpReq) : State :=
  let x := s.clu t c
  let u := x.wu pw
  let a := 2 ^ 46 + bits s.drawn 8 0 * 2 ^ 37 + r.bank * 2 ^ 18 + r.word * 8
  let n := tileNode t
  let pk : Packet :=
    { dx := n % 10, dy := n / 10, sx := n % 10, sy := n / 10, mid := wuMid c pw, ctx := s.fld (Reg.nocMctx t) 5 0,
      cmd := bits s.drawn 12 9, cls := 0, len := 1, slot := 0, gen := 0, addr := BitVec.ofNat 48 a, resp := 0,
      peek := false, q := false, be := r.mask, data := [] }
  let s := { s with free := s.free + 1 }
  let s := s.setClu t c (x.setWu pw { u with sp := some { r with viol := true } })
  let s := s.recordViolation n (wuMid c pw) pk 1 (some n)
  s.setMaster n (wuMid c pw) { s.master n (wuMid c pw) with frozen := true }

/-- The word a store leaves (R121, R222): the bytes the mask names from the data, the others as read. -/
def mergeBytes (mask : BitVec 8) (old new : BitVec 64) : Nat → BitVec 64
  | 0 => old
  | n + 1 =>
    let w := mergeBytes mask old new n
    if mask.getLsbD n then setBits w (8 * n + 7) (8 * n) (bits new (8 * n + 7) (8 * n)) else w

/-- The access takes its bank cycle: a load reads, a store writes (R121, R123, R125, R222). -/
def bankAccess (t b c pw : Nat) (r : SpReq) (e : Ecc) : State :=
  let old := eccWord e (s.spWord t b r.word)
  let got := if r.wr then 0 else old
  let x := s.clu t c
  let s := s.setClu t c (x.setWu pw { (x.wu pw) with sp := some { r with granted := true, got := got } })
  if r.wr then
    if r.mask = 0 then s
    else if r.mask = 0xFF then s.setSpWord t b r.word 0xFF r.data
    else (s.bankRead t b r.word 3 e).setSpWord t b r.word 0xFF (mergeBytes r.mask old r.data 8)
  else
    let s := s.bankRead t b r.word 0 e
    match e with
    | .uncorrected _ => s.wuErr t c pw 5
    | _ => s

/-- The banks without what they remember of the step they served last: the cycle count starts anew. -/
def grantsForgotten : Tab Bank :=
  tmap (fun _ => Bank.empty) (fun x => { x with lastCyc := 0, lastStep := 0, served := false }) s.banks

/-- Every grant of a step to a bank after the first adds to BNK_WAIT.CONF (R214). -/
def countGrant (t b st : Nat) : State :=
  let k := s.bank t b
  let again := k.served && k.lastStep == st && k.lastCyc == s.seq.cycle
  let s := s.setBank t b { k with served := true, lastStep := st, lastCyc := s.seq.cycle }
  if again then s.count (Reg.bnkWait t b) 15 0 1 else s

/-- The next access of the WU group at a bank: a violation ends it, the user set may hold it, else it is granted
(R122, R124, R212, R213). -/
def bankGrant (t b : Nat) (e : Ecc) : State :=
  match s.bankFirst t b with
  | none => s
  | some (st, _, _, c, pw) =>
    match ((s.clu t c).wu pw).sp with
    | none => s
    | some r =>
      if !s.wuMayUse t b c then s.wuViolation t c pw r
      else if s.usersReached t b st then (s.bankAccess t b c pw r e).countGrant t b st
      else s

end State

/-- BANK_GRANT (R122): one bank access cycle. -/
def execBankGrant (t bank : Nat) (ecc : Ecc) (s : State) : Out := .next (s.bankGrant t bank ecc)

namespace State

variable (s : State)

/-! ### Accesses of the network -/

/-- Whether a request writes (R273). -/
def isWrite (pk : Packet) : Bool := pk.cmd == 1 || pk.cmd == 3 || pk.cmd == 5

/-- The words of a bank read from word w on, n of them, as they are returned; k counts the words read. -/
def readWords (t b w : Nat) (ecc : List EccAt) (k : Nat) : Nat → List (BitVec 64)
  | 0 => []
  | n + 1 => eccWord (eccOf ecc k) (s.spWord t b (w + k)) :: readWords t b w ecc (k + 1) n

/-- Four words as a data flit, word 0 lowest (R273). -/
def flitOf (l : List (BitVec 64)) : BitVec 256 :=
  l.getD 3 0 ++ l.getD 2 0 ++ l.getD 1 0 ++ l.getD 0 0

/-- The words as data flits. -/
def flitsOf (l : List (BitVec 64)) : Nat → List (BitVec 256)
  | 0 => []
  | n + 1 => flitOf (l.take 4) :: flitsOf (l.drop 4) n

/-- Word m of a data flit. -/
def flitWord (f : BitVec 256) (m : Nat) : BitVec 64 := f.extractLsb' (64 * m) 64

/-- The words a write stores, with their index: in the last flit BE names the words written (R273). -/
def writeWords (pk : Packet) : List (Nat × BitVec 64) :=
  (List.range (4 * pk.len)).filterMap fun i =>
    if i / 4 + 1 < pk.len ∨ pk.be.getLsbD (i % 4) then some (i, flitWord (pk.data.getD (i / 4) 0) (i % 4)) else none

/-- Whether any of the first n words read has an uncorrected error. -/
def anyUe (ecc : List EccAt) (n : Nat) : Bool :=
  (List.range n).any fun k => match eccOf ecc k with
    | .uncorrected _ => true
    | _ => false

/-- A bank serves the words of a packet and answers (R208 to R216, R221); an owner set directly since the bank accepted the
packet (R231, R232) may make it a violation. -/
def scratchServe (t : Nat) (pk : Packet) (ecc : List EccAt) : State :=
  let b := aBank pk.addr
  let w := aWord pk.addr
  let n := 4 * pk.len
  if !s.nocOwns t b pk then s.violateAt (tileNode t) pk 1
  else if isWrite pk then
    let s := (writeWords pk).foldl (fun s p => s.setSpWord t b (w + p.1) 0xFF p.2) s
    let s := if 10 * pk.sy + pk.sx = dmNode ∧ s.bankOwn t b = 1 then s.loss 1 else s
    s.respond (tileNode t) pk 0 []
  else
    let l := s.readWords t b w ecc 0 n
    let s := (List.range n).foldl (fun s k => s.bankRead t b (w + k) 1 (eccOf ecc k)) s
    s.respond (tileNode t) pk (if anyUe ecc n then 5 else 0) (flitsOf l pk.len)

/-! ### Handover -/

/-- Words of requests accepted at a bank and not yet served (R226). -/
def bankInfl (t b : Nat) : Nat :=
  ((s.srvAt (tileNode t)).filter fun pk => aSpace pk.addr == 1 && aBank pk.addr == b).foldl (fun n pk => n + 4 * pk.len) 0

/-- Whether a handover must wait for a midnight (R217). -/
def handoverWaits (t b : Nat) : Bool :=
  (s.bankOwn t b == 1 || (s.bank t b).new == 1) && (s.seqState == 1 || s.seqState == 2 || s.seqState == 3)

/-- The bank switches owner (R217 step 5). -/
def bankSwitch (t b : Nat) : State :=
  let k := s.bank t b
  let s := (s.setFld (Reg.bnkOwner t b) 2 0 k.new).setFld (Reg.bnkOwner t b) 7 4 k.eng
  let old := s.flag (Reg.bnkStat t b) 31
  ((s.setFld (Reg.bnkStat t b) 29 28 0).setFlag (Reg.bnkStat t b) 31 true).irqIf
    (!old && s.flag (Reg.bnkCtrl t) 1) (tileNode t)

/-- After the drain: the clear, or the switch (R217 steps 4 and 5). -/
def bankDrained (t b : Nat) : State :=
  if (s.bank t b).clr then s.setFld (Reg.bnkStat t b) 29 28 3 else s.bankSwitch t b

/-- The fence; a handover to the current owner skips it and the drain (R217, R220). -/
def bankFence (t b : Nat) : State :=
  if s.sameOwner t b then s.bankDrained t b else s.setFld (Reg.bnkStat t b) 29 28 2

/-- Whether the writer is the CE or a service engine (R220). -/
def lockExempt (w : Who) : Bool :=
  match w with
  | .ce | .engine _ => true
  | _ => false

/-- The barrier task an engine runs. -/
def taskOf (w : Who) : Option Nat :=
  match w with
  | .engine e => if s.barrierWriter w then some (s.engCur e) else none
  | _ => none

/-- BNK_OWNER is written (R217, R220, R225). -/
def ownerWrite (who : Who) (t b : Nat) (v : BitVec 32) : State :=
  let k := Reg.bnkOwner t b
  let new := (s.reg k &&& 0xFF#32) ||| (v &&& 0x40F70000#32)
  if v.getLsbD 31 then
    let n := bits v 18 16
    if s.bankH t b ≠ 0 ∨ n = 0 ∨ 5 ≤ n ∨ (s.flag (Reg.bnkCtrl t) 0 ∧ !lockExempt who) then
      s.setFlag (Reg.bnkStat t b) 30 true
    else
      let s := s.setReg k new
      let s := s.setBank t b { s.bank t b with
        new := n, eng := bits v 23 20, clr := v.getLsbD 30, task := s.taskOf who, holds := false }
      if s.handoverWaits t b then
        (s.setBank t b { s.bank t b with holds := true }).setFld (Reg.bnkStat t b) 29 28 1
      else s.bankFence t b
  else s.setReg k new

/-- Whether the midnight wait of a handover is over: the device stands between local midnight and release, and every
barrier task but the one that made the write has ended (R217); a run that has ended has no midnight to wait for (log 74). -/
def handoverReady (t b : Nat) : Bool :=
  (s.seq.midnight || s.seqState == 0 || s.seqState == 4) && !s.barrierOpen (s.bank t b).task

/-- Whether a handover holds the release of a midnight (R218). -/
def handoverHolds : Bool :=
  s.banks.any fun e => e.2.holds && s.bankH (e.1 / 16) (e.1 % 16) != 0

/-- The scrub of a bank (R223). -/
def bankScrub (t b : Nat) (e : Ecc) : State :=
  if s.fld (Reg.bnkCtrl t) 15 8 = 0 ∨ (s.bankFirst t b).isSome = true ∨ s.bankInfl t b ≠ 0 then s
  else
    let k := s.bank t b
    let s := s.bankRead t b k.scrub 2 e
    s.setBank t b { s.bank t b with scrub := (k.scrub + 1) % 32768 }

end State

/-- BANK_HANDOVER_START (R217). -/
def execBankHandoverStart (who : Who) (t bank : Nat) (v : BitVec 32) (s : State) : Out :=
  .next (s.regWrite who (Reg.bnkOwner t bank) (setBit v 31 true) fun s v => s.ownerWrite who t bank v)

/-- BANK_HANDOVER_FENCE (R217 steps 1 to 3). -/
def execBankHandoverFence (t bank : Nat) (s : State) : Out :=
  .next (if s.bankH t bank = 1 ∧ s.handoverReady t bank then s.bankFence t bank else s)

/-- BANK_HANDOVER_DRAINED (R217 step 3): no access stands between its acceptance and its response. -/
def execBankHandoverDrained (t bank : Nat) (s : State) : Out :=
  .next (if s.bankH t bank = 2 ∧ s.bankInfl t bank = 0 then s.bankDrained t bank else s)

/-- BANK_HANDOVER_CLEARED (R217 step 4): every word is 0, and the bank switches. -/
def execBankHandoverCleared (t bank : Nat) (s : State) : Out :=
  .next (if s.bankH t bank = 3 then
    { s with spad := tdrop (fun a => decide (State.spAddr t bank 0 ≤ a ∧ a < State.spAddr t bank 32768)) s.spad }.bankSwitch
      t bank
  else s)

/-- BANK_SCRUB_READ (R223). -/
def execBankScrubRead (t bank : Nat) (ecc : Ecc) (s : State) : Out := .next (s.bankScrub t bank ecc)

end Sys2Proof.Machine
end

