-- ==== Sys2Proof/Machine/Hbm.lean ====
section
/-! DEFINITION. The HBM controllers: acceptance (R242, R254, R258), the choice of commands (R243), pages (R244), refresh
(R246), row-disturb protection (R247, R248), accesses (R245, R250, R251), scrub (R252), migration (R240, R241) and
initialisation (R257). -/

namespace Sys2Proof.Machine

/-- Blocks of 256 bytes in a pseudo-channel (R233, R240). -/
def pcBlocks : Nat := 3145728

/-- Bank of a pseudo-channel that an offset selects, as 16 * SID + 4 * bank group + bank (R237). -/
def bankOfOff (o : Nat) : Nat := o / 2 ^ 28 % 4 * 16 + o / 2 ^ 10 % 4 * 4 + o / 2 ^ 12 % 4

/-- Row that an offset selects (R237). -/
def rowOfOff (o : Nat) : Nat := o / 2 ^ 14 % 16384

/-- What a list of check results says of the words from the k-th on. -/
def eccFrom (ecc : List EccAt) (k : Nat) : List EccAt :=
  (ecc.filter fun e => decide (k ≤ e.word)).map fun e => { e with word := e.word - k }

/-- Key of a bank of a controller. -/
def bankKey (pch bank : Nat) : Nat := 64 * pch + bank

/-! ### The activate-count table (R247, R248) -/

/-- Index of the first entry that holds a row. -/
def actFind (l : List (Option (Nat × Nat))) (x : Nat) : Option Nat :=
  l.findIdx? fun e => match e with
    | some p => p.1 == x
    | none => false

/-- The 32 entries of a table; a table nothing has written is free. -/
def actEntries (l : List (Option (Nat × Nat))) : List (Option (Nat × Nat)) := (l ++ List.replicate 32 none).take 32

/-- Index of the entry with the lowest count, the lowest index among equals. -/
def actLowest (l : List (Option (Nat × Nat))) : Nat :=
  ((List.range l.length).foldl (fun (b : Nat × Nat) i => match l.getD i none with
    | some p => if p.2 < b.2 then (i, p.2) else b
    | none => b) (0, 2 ^ 16)).1

/-- Row x is activated: the table after it, with the entry and the count of x (R247). -/
def actStep (l : List (Option (Nat × Nat))) (x : Nat) : List (Option (Nat × Nat)) × Nat × Nat :=
  let l := actEntries l
  let put := fun i n => (l.set i (some (x, n)), i, n)
  match actFind l x with
  | some i => put i (match l.getD i none with | some p => p.2 + 1 | none => 1)
  | none =>
    match l.findIdx? fun e => e.isNone with
    | some i => put i 1
    | none =>
      let i := actLowest l
      put i (match l.getD i none with | some p => p.2 + 1 | none => 1)

namespace State

variable (s : State)

def mc (m : Nat) : Mc := tget (fun _ => Mc.empty) s.mcs m

def setMc (m : Nat) (x : Mc) : State := { s with mcs := tput (fun _ => Mc.empty) m x s.mcs }

/-- MC_STAT.STATE: 0 OFF, 1 INIT, 2 READY, 3 FENCED, 4 SELFREF, 5 FAILED (R260). -/
def mcState (m : Nat) : Nat := s.fld (Reg.mcStat m) 2 0

/-- The physical pseudo-channel that serves logical pseudo-channel k of stack m (R239). -/
def pcOf (m k : Nat) : Nat := s.fld (Reg.mcPcmap m k) 5 0

/-- Address of a byte in the model's flat HBM memory (R236, R237, R239). -/
def hbmFlat (a : Nat) : Nat :=
  let p := s.hbmPlace a
  2 ^ 30 * (64 * p.1 + s.pcOf p.1 p.2.1) + p.2.2

/-- User byte address of offset o of logical pseudo-channel k of stack m (R236). -/
def hbmUser (m k o : Nat) : Nat :=
  let q := 62 * (o / 256) + k
  if s.flag (Reg.mcCtrl 0) 2 then m * 0xBA0000000 + 256 * q + o % 256 else 256 * (6 * q + m) + o % 256

/-- The flat address in the spare to which a write of a byte goes as well, while its pseudo-channel migrates and its block
has been copied (R240). -/
def hbmTwin (a : Nat) : Option Nat :=
  let p := s.hbmPlace a
  match (s.mc p.1).mig with
  | some g => if g.lpc = p.2.1 ∧ p.2.2 / 256 < g.next then some (2 ^ 30 * (64 * p.1 + g.spare) + p.2.2) else none
  | none => none

/-- n bytes of the user HBM space from address a on; they lie in one block. -/
def hbmGet (a n : Nat) : List (BitVec 8) := Memory.getN s.hbm (s.hbmFlat a) n

/-- n bytes are written from an address of the flat HBM memory on, with valid check bits. -/
def hbmFlatPut (f : Nat) (l : List (BitVec 8)) : State :=
  { s with hbm := Memory.putN s.hbm f l, hbmBad := tdrop (fun k => decide (f < k + 8 ∧ k < f + l.length)) s.hbmBad }

/-- Bytes are written to the user HBM space from address a on; they lie in one block. -/
def hbmPut (a : Nat) (l : List (BitVec 8)) : State :=
  let s' := s.hbmFlatPut (s.hbmFlat a) l
  match s.hbmTwin a with
  | some b => s'.hbmFlatPut b l
  | none => s'

/-! ### Errors (R250) -/

/-- An uncorrected error at user byte address a: counted, the first recorded, reported. src is MC_UEADDR_HI.SRC. -/
def hbmUe (m a src : Nat) (report : Bool) : State :=
  let s := s.count (Reg.mcEcc m) 15 8 1
  let s := if s.flag (Reg.mcUeaddrHi m) 31 then s
    else (((s.setReg (Reg.mcUeaddrHi m) (BitVec.ofNat 32 (2 ^ 31 + src * 2 ^ 29 + a / 2 ^ 32 % 2 ^ 14))).setReg
      (Reg.mcUeaddrLo m) (BitVec.ofNat 32 a)).setReg (Reg.mcUecyc m) (s.seq.cycle.setWidth 32)).irqIf
        (s.flag (Reg.mcIrq m) 0) (mcNode m)
  if report then s.memError (mcNode m) none (2 ^ 14) (a % 2 ^ 32) (src * 2 ^ 30 + a / 2 ^ 32 % 2 ^ 14) else s

/-- What a read of an HBM word does beside returning it. -/
def hbmRead (m a src : Nat) (e : Ecc) : State :=
  match e with
  | .ok => s
  | .onDie => s.count (Reg.mcEcc m) 7 0 1
  | .corrected => s.count (Reg.mcEcc m) 31 16 1
  | .uncorrected _ => s.hbmUe m a src true

/-- What the check bits say of the k-th word from address a on: a word whose check bits do not fit has an uncorrected error at
every read (R240). -/
def hbmEcc (a : Nat) (ecc : List EccAt) (k : Nat) : Ecc :=
  match eccOf ecc k with
  | .uncorrected f => .uncorrected f
  | e => if tget (fun _ => false) s.hbmBad (s.hbmFlat (a + 8 * k)) then .uncorrected 0 else e

/-- Whether one of n words from address a on reads with an uncorrected error. -/
def hbmAnyUe (a : Nat) (ecc : List EccAt) (n : Nat) : Bool :=
  (List.range n).any fun k => match s.hbmEcc a ecc k with
    | .uncorrected _ => true
    | _ => false

/-- The k-th word from address a on, as read. -/
def hbmWord (a : Nat) (ecc : List EccAt) (k : Nat) : BitVec 64 :=
  eccWord (s.hbmEcc a ecc k) (BitVec.ofNat 64 (wordOf (s.hbmGet (a + 8 * k) 8)))

/-- A bit of MC_MIGSTAT becomes 1, with its interrupt (R263). -/
def migBit (m b : Nat) : State :=
  let old := s.flag (Reg.mcMigstat m) b
  (s.setFlag (Reg.mcMigstat m) b true).irqIf (!old && s.flag (Reg.mcIrq m) 2) (mcNode m)

/-- A migration in progress ends without a switch (R241). -/
def migAbort (m : Nat) : State :=
  match (s.mc m).mig with
  | some _ => ((s.setMc m { s.mc m with mig := none }).setFlag (Reg.mcMigstat m) 28 false).migBit m 30
  | none => s

/-- The controller enters FAILED: recorded, a migration ends, and every request it holds ends with ERROR (R258; log 85). cause as R586
codes it. -/
def mcFail (m cause : Nat) : State :=
  let s := s.migAbort m
  let x := s.mc m
  let held := (x.queue.flatMap fun e => e.2) ++ x.ready
  let s := s.setMc m { x with queue := [], ready := [] }
  let s := (s.setFld (Reg.mcStat m) 2 0 5).record 2 5 1 (mcNode m) cause 0 0
  held.foldl (fun s r => s.respond (mcNode m) r.pk 1 []) s

/-! ### Requests -/

def mcQueue (m pch : Nat) : List HbmReq := tget (fun _ => []) (s.mc m).queue pch

def setMcQueue (m pch : Nat) (l : List HbmReq) : State :=
  s.setMc m { s.mc m with queue := tput (fun _ => []) pch l (s.mc m).queue }

/-- Whether two requests have one source and touch a common burst (R242). -/
def sameSource (a b : Packet) : Bool :=
  a.sx == b.sx && a.sy == b.sy && a.mid == b.mid &&
  ((match nodeKind (10 * a.sy + a.sx) with
    | .tile _ => a.q == b.q
    | _ => true)) &&
  decide ((hbmSpan a).1 / 32 ≤ (hbmSpan b).2 / 32 ∧ (hbmSpan b).1 / 32 ≤ (hbmSpan a).2 / 32)

/-- A request reaches a controller: accepted while READY, answered FENCED while the stack is fenced or off, ERROR while
FAILED (R242, R254, R258), a lock at the node notwithstanding; during INIT it waits (log 18). A request that a source sent
after another to a common burst does not pass it (R130, R242). dt ns have passed since its pseudo-channel's last choice. -/
def hbmAccept (m i dt : Nat) : State :=
  let node := mcNode m
  match (s.srvAt node)[i]? with
  | none => s
  | some pk =>
    if aSpace pk.addr ≠ 2 ∨ ((s.srvAt node).take i).any (fun g => sameSource g pk) = true then s
    else
      let rest := s.setSrvAt node ((s.srvAt node).eraseIdx i)
      match s.mcState m with
      | 1 => s
      | 2 =>
        if s.lockWaits node pk then s
        else if hbmTop ≤ (hbmSpan pk).2 then rest.respond node pk 1 []
        else if !extentOk pk.cmd pk.len pk.addr then rest.violateAt node pk 7
        else
          let p := s.hbmPlace (hbmSpan pk).1
          let pch := s.pcOf m p.2.1
          rest.setMcQueue m pch (s.mcQueue m pch ++ [{ pk := pk, pch := pch, off := p.2.2, age := 0, late := dt, repeats := 0 }])
      | 5 => rest.respond node pk 1 []
      | _ => rest.respond node pk 2 []

/-- Whether the i-th request of a list must wait for an earlier one of its source to a common burst (R242, R243). -/
def burstBlocked (ready l : List HbmReq) (i : Nat) : Bool :=
  match l[i]? with
  | some r => ready.any (fun e => sameSource e.pk r.pk) || (l.take i).any fun e => sameSource e.pk r.pk
  | none => true

/-! ### Rows, refresh and row-disturb protection -/

/-- The open row of a bank. -/
def openRow (m pch bank : Nat) : Option Nat :=
  let n := tget (fun _ => 0) (s.mc m).row (bankKey pch bank)
  if n = 0 then none else some (n - 1)

def setRow (m pch bank n : Nat) : State :=
  s.setMc m { s.mc m with row := tput (fun _ => 0) (bankKey pch bank) n (s.mc m).row }

/-- MC_RDP.TH as it acts (R249). -/
def rdpTh (m : Nat) : Nat := max 64 (s.fld (Reg.mcRdp m) 15 0)

/-- A row is activated: the bank opens it, the table counts it, and a count that reaches TH triggers (R247, R248). -/
def activate (m pch bank row : Nat) : State :=
  let s := s.setRow m pch bank (row + 1)
  let k := bankKey pch bank
  let r := actStep (tget (fun _ => []) (s.mc m).acts k) row
  if s.rdpTh m ≤ r.2.2 then
    let x := s.mc m
    let nbr := if s.fld (Reg.mcRdp m) 31 30 = 0 then x.nbr else x.nbr ++ [(k, row)]
    (s.setMc m { x with acts := tput (fun _ => []) k (r.1.set r.2.1 none) x.acts, nbr := nbr }).count
      (Reg.mcRdpcnt m) 31 16 1
  else s.setMc m { s.mc m with acts := tput (fun _ => []) k r.1 (s.mc m).acts }

/-- A neighbour refresh is done: one RFM command, or the activates of the neighbours, which enter no table (R248). -/
def neighbourRefresh (m : Nat) (e : Nat × Nat) : State :=
  let x := s.mc m
  let s := s.setMc m { x with nbr := x.nbr.erase e, row := tput (fun _ => 0) e.1 0 x.row }
  if s.fld (Reg.mcRdp m) 31 30 = 1 ∧ x.rfm then s.count (Reg.mcRdpcnt m) 15 0 1 else s

/-- A per-bank refresh is issued (R246). -/
def refreshBank (m k : Nat) : State :=
  let x := s.mc m
  (s.setMc m { x with owed := tput (fun _ => 0) k (tget (fun _ => 0) x.owed k - 1) x.owed,
                      row := tput (fun _ => 0) k 0 x.row }).count (Reg.mcRef m) 31 0 1

/-- The banks of a pseudo-channel that owe at least n refreshes, the lowest first. -/
def owedBank (m pch n : Nat) : Option Nat :=
  ((List.range 48).map (bankKey pch)).find? fun k =>
    decide (0 < tget (fun _ => 0) (s.mc m).owed k ∧ n ≤ tget (fun _ => 0) (s.mc m).owed k)

/-- Request i of a pseudo-channel is served: its column access to the open row, else its row is activated (R244). -/
def selectReq (m pch i : Nat) : State :=
  let l := s.mcQueue m pch
  match l[i]? with
  | none => s
  | some r =>
    let bank := bankOfOff r.off
    if s.openRow m pch bank = some (rowOfOff r.off) then
      let s := s.setMcQueue m pch (l.eraseIdx i)
      let s := s.setMc m { s.mc m with ready := (s.mc m).ready ++ [r] }
      if s.fld (Reg.mcPage m) 8 0 = 0 then s.setRow m pch bank 0 else s
    else s.activate m pch bank (rowOfOff r.off)

/-- Index of the first request of a pseudo-channel that no earlier one blocks and that p names. -/
def firstReq (m pch : Nat) (p : HbmReq → Bool) : Option Nat :=
  let l := s.mcQueue m pch
  (List.range l.length).find? fun i =>
    !burstBlocked (s.mc m).ready l i && (match l[i]? with | some r => p r | none => false)

/-- A pseudo-channel chooses its next command by the first rule of R243 that selects one. -/
def commandSelect (m pch : Nat) : State :=
  match s.owedBank m pch Config.refreshPostpone with
  | some k => s.refreshBank m k
  | none =>
    match (s.mc m).nbr.find? fun e => e.1 / 64 == pch with
    | some e => s.neighbourRefresh m e
    | none =>
      match s.firstReq m pch fun r => decide (max 100 (s.fld (Reg.mcSched m) 15 0) ≤ r.age) with
      | some i => s.selectReq m pch i
      | none =>
        match s.firstReq m pch fun r => s.openRow m pch (bankOfOff r.off) == some (rowOfOff r.off) with
        | some i => s.selectReq m pch i
        | none =>
          match s.owedBank m pch 1 with
          | some k => s.refreshBank m k
          | none =>
            match s.firstReq m pch fun _ => true with
            | some i => s.selectReq m pch i
            | none => s

/-- Time passes for the requests of a pseudo-channel, for those that came since its last choice from their arrival on. -/
def ageReqs (m pch dt : Nat) : State :=
  s.setMcQueue m pch ((s.mcQueue m pch).map fun r => { r with age := r.age + (dt - r.late), late := 0 })

/-! ### Accesses (R245, R250) -/

/-- Whether a request comes from a WU. -/
def fromWu (pk : Packet) : Bool :=
  match nodeKind (10 * pk.sy + pk.sx) with
  | .tile _ => true
  | _ => false

/-- Every word from address a on is checked; k counts the words. -/
def hbmCheck (m a n src : Nat) (ecc : List EccAt) : State :=
  let e := s.hbmEcc a ecc
  (List.range n).foldl (fun s k => s.hbmRead m (a + 8 * k) src (e k)) s

/-- The four words of a burst as read. -/
def burstWords (a : Nat) (ecc : List EccAt) : List (BitVec 64) := (List.range 4).map fun k => s.hbmWord a ecc k

/-- A WU write is a read-modify-write of its burst (R245). -/
def hbmMerge (m : Nat) (pk : Packet) (ecc : List EccAt) : State :=
  let a := aHbm pk.addr / 8 * 8
  let b := a / 32 * 32
  let old := s.burstWords b ecc
  let i := a % 32 / 8
  let new := old.set i (mergeBytes pk.be (old.getD i 0) (flitWord (pk.data.getD 0 0) 0) 8)
  (s.hbmCheck m b 4 3 ecc).hbmPut b (new.flatMap fun w => bytesOf 8 w.toNat)

/-- A request whose column access has been issued is done and answered (R245, R250). -/
def hbmServe (m : Nat) (pk : Packet) (ecc : List EccAt) : State :=
  let node := mcNode m
  let src := if fromWu pk then 0 else 1
  let a := (hbmSpan pk).1
  match pk.cmd with
  | 0 =>
    let n := 4 * pk.len
    let l := (List.range n).map fun k => s.hbmWord a ecc k
    (s.hbmCheck m a n src ecc).respond node pk (if s.hbmAnyUe a ecc n then 5 else 0) (flitsOf l pk.len)
  | 2 =>
    let w := s.hbmWord a ecc 0
    (s.hbmCheck m a 1 src ecc).respond node pk (if s.hbmAnyUe a ecc 1 then 5 else 0) [w.setWidth 256]
  | 1 =>
    let l := (List.range (4 * pk.len)).flatMap fun k =>
      bytesOf 8 (flitWord (pk.data.getD (k / 4) 0) (k % 4)).toNat
    (s.hbmPut a l).respond node pk 0 []
  | _ => if pk.be = 0 then s.respond node pk 0 [] else (s.hbmMerge m pk ecc).respond node pk 0 []

/-- Request i of those whose column access has been issued leaves the controller. -/
def hbmTake (m i : Nat) : State := s.setMc m { s.mc m with ready := (s.mc m).ready.eraseIdx i }

/-- A parity error makes the controller repeat a command, up to three times; then the request ends with ERROR (R251). An index
beyond the requests whose column access has been issued names a command of no request: its repeat counts. -/
def parityRetry (m i : Nat) : State :=
  match (s.mc m).ready[i]? with
  | none => s.count (Reg.mcLink m) 31 16 1
  | some r =>
    if r.repeats < 3 then
      (s.setMc m { s.mc m with ready := (s.mc m).ready.set i { r with repeats := r.repeats + 1 } }).count
        (Reg.mcLink m) 31 16 1
    else
      (((s.hbmTake m i).count (Reg.mcLink m) 7 0 1).irqIf (s.flag (Reg.mcIrq m) 1) (mcNode m)).respond (mcNode m) r.pk 1 []

/-! ### Scrub and migration -/

/-- Whether a request to a pseudo-channel waits. -/
def pcWaits (m pch : Nat) : Bool := !(s.mcQueue m pch).isEmpty || (s.mc m).ready.any fun r => r.pch == pch

/-- Whether a request to a bank of a pseudo-channel waits. -/
def hbmBankWaits (m pch bank : Nat) : Bool :=
  (s.mcQueue m pch).any (fun r => bankOfOff r.off == bank) ||
  (s.mc m).ready.any fun r => r.pch == pch && bankOfOff r.off == bank

/-- The row of an offset is open, activated if it was not. -/
def opened (m pch o : Nat) : State :=
  if s.openRow m pch (bankOfOff o) = some (rowOfOff o) then s else s.activate m pch (bankOfOff o) (rowOfOff o)

/-- With IDLE = 0 the row of an offset is precharged after the access (R244). -/
def rowDone (m pch o : Nat) : State := if s.fld (Reg.mcPage m) 8 0 = 0 then s.setRow m pch (bankOfOff o) 0 else s

/-- Whether a bank waits for a neighbour refresh and accepts no activate (R248). -/
def nbrWaits (m pch bank : Nat) : Bool := (s.mc m).nbr.any fun e => e.1 == bankKey pch bank

/-- What a bank waits for before it takes an activate is done (R248). -/
def clearNbr (m pch bank : Nat) : State :=
  ((s.mc m).nbr.filter fun e => e.1 == bankKey pch bank).foldl (fun s e => s.neighbourRefresh m e) s

/-- An access that is served as it is made opens the rows of its n bytes from address a on, as every access does (R244, R247). -/
def hbmTouch (a n : Nat) : State :=
  (List.range ((a + n + 255) / 256 - a / 256)).foldl (fun s i =>
    let p := s.hbmPlace (256 * (a / 256 + i))
    let pch := s.pcOf p.1 p.2.1
    ((s.clearNbr p.1 pch (bankOfOff p.2.2)).opened p.1 pch p.2.2).rowDone p.1 pch p.2.2) s

/-- n words from address a on are read at once: the state after, the words as read, and whether one has an uncorrected error. -/
def hbmReadNow (a n src : Nat) (ecc : List EccAt) : State × List (BitVec 64) × Bool :=
  ((s.hbmTouch a (8 * n)).hbmCheck (s.hbmPlace a).1 a n src ecc, (List.range n).map (s.hbmWord a ecc), s.hbmAnyUe a ecc n)

/-- n blocks of 256 bytes from a block's address on are read as hbmReadNow reads one. -/
def hbmReadBlocks (a n src : Nat) (ecc : List EccAt) : State × List (BitVec 64) × Bool :=
  (List.range n).foldl (fun (r : State × List (BitVec 64) × Bool) i =>
    let x := r.1.hbmReadNow (a + 256 * i) 32 src (eccFrom ecc (32 * i))
    (x.1, r.2.1 ++ x.2.1, r.2.2 || x.2.2)) (s, [], false)

/-- Bytes from address a on are written at once; those that do not fill whole bursts are written by a read-modify-write, whose
read ecc describes (R245). They lie in one block. -/
def hbmWriteNow (a : Nat) (l : List (BitVec 8)) (ecc : List EccAt) : State :=
  let t := s.hbmTouch a l.length
  if a % 32 = 0 ∧ l.length % 32 = 0 then t.hbmPut a l
  else
    let b := a / 32 * 32
    let n := 4 * ((a + l.length + 31) / 32 - a / 32)
    let old := ((List.range n).map (s.hbmWord b ecc)).flatMap fun w => bytesOf 8 w.toNat
    (t.hbmCheck (s.hbmPlace b).1 b n 3 ecc).hbmPut b (old.take (a - b) ++ l ++ old.drop (a - b + l.length))

/-- The patrol scrub reads the next block of logical pseudo-channel k (R252). -/
def hbmScrub (m k : Nat) (ecc : List EccAt) : State :=
  let x := s.mc m
  let blk := tget (fun _ => 0) x.scrub k
  let migrating := match x.mig with
    | some g => g.lpc == k
    | none => false
  if 62 ≤ k ∨ s.mcState m ≠ 2 ∨ !s.flag (Reg.mcCtrl m) 1 ∨ s.fld (Reg.mcScrub m) 15 0 = 0 ∨ migrating = true ∨
      s.hbmBankWaits m (s.pcOf m k) (bankOfOff (256 * blk)) = true ∨
      s.nbrWaits m (s.pcOf m k) (bankOfOff (256 * blk)) = true then s
  else
    let s := (s.opened m (s.pcOf m k) (256 * blk)).rowDone m (s.pcOf m k) (256 * blk)
    let e := s.hbmEcc (s.hbmUser m k (256 * blk)) ecc
    let s := (List.range 32).foldl (fun s i => s.hbmRead m (s.hbmUser m k (256 * blk)) 2 (e i)) s
    s.setMc m { s.mc m with scrub := tput (fun _ => 0) k ((blk + 1) % pcBlocks) (s.mc m).scrub }

/-- MC_MIGRATE is written (R240, R241, R263): ABORT acts before GO (log 19); a refused start changes nothing but ERR. -/
def migWrite (m : Nat) (v : BitVec 32) : State :=
  let s := if v.getLsbD 30 then s.migAbort m else s
  if v.getLsbD 31 then
    let lpc := bits v 5 0
    let spare := bits v 11 6
    if (s.mc m).mig.isSome ∨ 61 < lpc ∨ (List.range 62).any (fun k => s.pcOf m k == spare) = true then s.migBit m 29
    else
      let s := s.setReg (Reg.mcMigrate m) (v &&& 0xFFF#32)
      ((s.setMc m { s.mc m with mig := some { lpc := lpc, spare := spare, next := 0 } }).setFlag
        (Reg.mcMigstat m) 28 true).setFld (Reg.mcMigstat m) 21 0 0
  else s.setReg (Reg.mcMigrate m) (v &&& 0xFFF#32)

/-- The repair map changes: the copy that is not in force takes it with the next generation (R351, R549). -/
def mapWrite (d : Device) : State :=
  { s with dev := { d with gen := d.gen + 1 },
           store := { s.store with mapPrev := if s.store.factoryUsed then none else some s.dev, factoryUsed := false } }

/-- The migration of a controller switches (R240 step 4). -/
def migSwitch (m : Nat) (g : Migration) : State :=
  let s := s.setMc m { s.mc m with mig := none }
  let s := (s.setFld (Reg.mcPcmap m g.lpc) 5 0 g.spare).setFlag (Reg.mcMigstat m) 28 false
  (s.mapWrite { s.dev with pcmap := tput (fun k => k % 62) (62 * m + g.lpc) g.spare s.dev.pcmap }).migBit m 31

/-- The migration copies its next block, data and check bits as read; an error counts once (R240). -/
def migCopy (m : Nat) (ecc : List EccAt) : State :=
  match (s.mc m).mig with
  | none => s
  | some g =>
    let old := s.pcOf m g.lpc
    let o := 256 * g.next
    if s.mcState m ≠ 2 ∨ s.pcWaits m old = true ∨ s.pcWaits m g.spare = true ∨
        s.nbrWaits m old (bankOfOff o) = true ∨ s.nbrWaits m g.spare (bankOfOff o) = true then s
    else
      let src := 2 ^ 30 * (64 * m + old) + o
      let dst := 2 ^ 30 * (64 * m + g.spare) + o
      let a := s.hbmUser m g.lpc o
      let e := s.hbmEcc a ecc
      let ue := s.hbmAnyUe a ecc 32
      let l := (List.range 32).flatMap fun k =>
        bytesOf 8 (eccWord (e k) (BitVec.ofNat 64 (wordOf (Memory.getN s.hbm (src + 8 * k) 8)))).toNat
      let s := (((s.opened m old o).rowDone m old o).opened m g.spare o).rowDone m g.spare o
      let s := (List.range 32).foldl (fun s k => match e k with
        | .uncorrected _ => s
        | x => s.hbmRead m 0 3 x) s
      let s := if ue then s.hbmUe m a 3 false else s
      let s := s.hbmFlatPut dst l
      let bad := (List.range 32).foldl (fun t k => match e k with
        | .uncorrected _ => tput (fun _ => false) (dst + 8 * k) true t
        | _ => t) s.hbmBad
      let s := { s with hbmBad := bad }
      let g := { g with next := g.next + 1 }
      let s := (s.setMc m { s.mc m with mig := some g }).setFld (Reg.mcMigstat m) 21 0 g.next
      if g.next = pcBlocks then s.migSwitch m g else s

/-! ### Initialisation (R233, R257) -/

/-- The geometry of R233 as MC_GEOM holds it. -/
def fittedGeom : BitVec 32 := BitVec.ofNat 32 (3 * 2 ^ 22 + 4 * 2 ^ 19 + 4 * 2 ^ 16 + 16)

/-- A controller ends its initialisation: after a power-on reset every burst of the stack is zero; an unsupported geometry
or a failed training leaves it FAILED. -/
def mcInitDone (m : Nat) (geom : BitVec 32) (ok : Bool) (lrep : Nat) : State :=
  if s.mcState m ≠ 1 then s
  else
    let s := (s.setReg (Reg.mcGeom m) (geom &&& 0x00FFFFFF#32)).setFld (Reg.mcLink m) 15 8 lrep
    if !ok then s.mcFail m 3
    else if geom &&& 0x00FFFFFF#32 ≠ fittedGeom then s.mcFail m 1
    else
      let s := { s with hbm := tdrop (fun a => a / 2 ^ 36 == m) s.hbm, hbmBad := tdrop (fun a => a / 2 ^ 36 == m) s.hbmBad }
      s.setFld (Reg.mcStat m) 2 0 2

end State

/-- HBM_REQUEST_ARRIVAL (R242): dt ns have passed since the last choice of the pseudo-channel it goes to. -/
def execHbmRequestArrival (mc : Nat) (r : ReqEntry) (s : State) : Out := .next (s.hbmAccept mc r.idx r.dt)

/-- HBM_COMMAND_SELECT (R243): dt ns have passed since the pseudo-channel's last choice. -/
def execHbmCommandSelect (mc pch dt : Nat) (s : State) : Out :=
  .next (if s.mcState mc = 2 ∨ s.mcState mc = 3 then (s.ageReqs mc pch dt).commandSelect mc pch else s)

/-- PAGE_IDLE_EXPIRY (R244): the bank is precharged. -/
def execPageIdleExpiry (mc pch bank : Nat) (s : State) : Out := .next (s.setRow mc pch bank 0)

/-- PER_BANK_REFRESH_DUE (R246): a refresh becomes owed; trate is the factor the temperature readout asks for. -/
def execPerBankRefreshDue (mc pch bank trate : Nat) (s : State) : Out :=
  .next (if s.mcState mc = 2 then
    let x := s.mc mc
    let k := bankKey pch bank
    (s.setMc mc { x with owed := tput (fun _ => 0) k (tget (fun _ => 0) x.owed k + 1) x.owed }).setFld
      (Reg.mcStat mc) 7 6 (min trate 2)
  else s)

/-- REFRESH_WINDOW_END (R247): the bank's activate-count table clears. -/
def execRefreshWindowEnd (mc pch bank : Nat) (s : State) : Out :=
  .next (s.setMc mc { s.mc mc with acts := tput (fun _ => []) (bankKey pch bank) [] (s.mc mc).acts })

/-- HBM_PARITY_RETRY (R251). -/
def execHbmParityRetry (mc idx : Nat) (s : State) : Out := .next (s.parityRetry mc idx)

/-- HBM_SCRUB_READ (R252): pch is the logical pseudo-channel. -/
def execHbmScrubRead (mc pch : Nat) (ecc : List EccAt) (s : State) : Out := .next (s.hbmScrub mc pch ecc)

/-- MIGRATION_START (R240): a write of MC_MIGRATE with GO = 1. -/
def execMigrationStart (mc : Nat) (v : BitVec 32) (s : State) : Out := 
  .next (s.regWrite .host (Reg.mcMigrate mc) (setBit v 31 true) fun s v => s.migWrite mc v)

/-- MIGRATION_ABORT (R241): a write of MC_MIGRATE with ABORT = 1. -/
def execMigrationAbort (mc : Nat) (v : BitVec 32) (s : State) : Out := 
  .next (s.regWrite .host (Reg.mcMigrate mc) (setBit v 30 true) fun s v => s.migWrite mc v)

/-- MIGRATION_BLOCK_COPY (R240). -/
def execMigrationBlockCopy (mc : Nat) (ecc : List EccAt) (s : State) : Out := .next (s.migCopy mc ecc)

/-- MC_INIT_DONE (R257). -/
def execMcInitDone (mc : Nat) (geom : BitVec 32) (ok : Bool) (lrep : Nat) (s : State) : Out :=
  .next (s.mcInitDone mc geom ok lrep)

end Sys2Proof.Machine
end

