-- ==== Sys2Proof/Machine/Halts.lean ====
section
/-! DEFINITION. Run control: reaching a halt point, the lock wait, the halt, and the commands of DBG_RUN (R493 to R500). -/

namespace Sys2Proof.Machine

namespace State

variable (s : State)

/-- Whether every cluster holds at a step point, or the device stands at the point's midnight; once every cluster has completed
the cycle, a step point acts at the midnight (R494, R495). -/
def pointReached (p : HaltPt) : Bool :=
  s.seq.run &&
  if s.atMidnight p then s.seq.midnight && p.cyc == s.seq.cycle
  else if s.allDone then s.seq.midnight
  else
    (List.range 64).all fun t => !s.tileActive t || (List.range 72).all fun c =>
      !s.takesPart t c || s.pointHolds p (s.stepsDone (s.clu t c))

/-- Whether some cluster has gone past a step point, or begun it (R494). -/
def pointRagged (p : HaltPt) : Bool :=
  (List.range 64).any fun t => s.tileActive t && (List.range 72).any fun c =>
    s.takesPart t c && (p.cyc != s.seq.cycle || decide (p.step < s.stepsDone (s.clu t c)))

/-- Where a point that has been reached halts the device, and whether the halt is ragged. -/
def haltAt (p : HaltPt) : HaltPt × Bool :=
  if s.atMidnight p then ({ p with step := 0x7FF }, false)
  else if s.allDone then ({ p with cyc := s.seq.cycle, step := 0x7FF }, false)
  else (p, s.pointRagged p)

/-- The halts that the device has reached, HALTNOW among them (R493, R495). -/
def haltCands : List (HaltPt × Bool) :=
  (s.haltPoints.filter s.pointReached).map s.haltAt ++
  (if s.dbg.now && s.seq.run then
    if s.allDone then
      if s.seq.midnight then [({ cyc := s.seq.cycle, step := 0x7FF, cause := s.dbg.nowCause }, false)] else []
    else [({ cyc := s.seq.cycle, step := s.minStep, cause := s.dbg.nowCause }, true)]
  else [])

/-- The order in which causes that fall together are recorded: the lowest CAUSE; the end of a STEP or CYCLE last. -/
def causeRank (p : HaltPt) : Nat := if p.cause = 0 then 8 else p.cause

/-- The halt recorded among those reached. -/
def haltPick : Option (HaltPt × Bool) :=
  s.haltCands.foldl (fun o c => match o with
    | none => some c
    | some b => if causeRank c.1 < causeRank b.1 then some c else some b) none

/-- SEQ_HOLD.HALT: a halt at the midnight the device stands at (R495, R496). -/
def haltHolds : Bool :=
  s.seq.midnight && (s.flag Reg.dbgStat 31 || s.dbg.reached.isSome || !s.haltCands.isEmpty)

/-- Nodes whose lock another master than the DM holds (R497). -/
def openLocks : List Nat := (s.locks.filter fun e => e.2.isOpen && e.2.node != dmNode).map fun e => e.1

/-- Every endpoint queue releases what it may. -/
def drainAll : State := (s.epq.map fun e => e.1).foldl (fun s n => s.drainQueue n) s

/-- Every participating cluster holds: the lock wait begins (R497 step 1). -/
def haltReached : State :=
  if s.dbg.reached.isSome || s.flag Reg.dbgStat 31 then s
  else
    match s.haltPick with
    | none => s
    | some (p, ragged) =>
      let s := { s with dbg := { s.dbg with reached := some p } }
      let s := (s.setFlag Reg.dbgStat 29 ragged).setFld Reg.dbgStat 25 23 p.cause
      s.setFlag Reg.dbgStat 26 (!s.openLocks.isEmpty)

/-- 4 µs after step 1, the locks still open are broken (R497 step 2). -/
def haltBreak : State :=
  if s.flag Reg.dbgStat 26 then s.openLocks.foldl (fun s n => (s.breakLock n).count Reg.dbgLkbrk 15 0 1) s else s

/-- The halt completes (R497 step 3, R505): every point is withdrawn. -/
def haltDone : State :=
  match s.dbg.reached with
  | none => s
  | some p =>
    if !s.flag Reg.dbgStat 26 || s.openLocks.isEmpty then
      let s := { s with dbg := { s.dbg with points := [], now := false, reached := none, target := none } }
      let s := (s.setReg Reg.dbgHcycLo (p.cyc.setWidth 32)).setReg Reg.dbgHcycHi
        (BitVec.ofNat 32 (p.step * 2 ^ 16 + p.cyc.toNat / 2 ^ 32))
      let s := ((s.setFlag Reg.dbgStat 31 true).setFlag Reg.dbgStat 26 false).setFld Reg.dbgStat 15 0 0
      ((s.setFlag Reg.wdgStat 30 true).irqIf (s.flag Reg.dbgCtrl 2) dmNode).drainAll
    else s

/-- Every cluster turns anew to its step when it goes on (R82). -/
def unturn : State := { s with clus := tmap (fun _ => Cluster.empty) (fun x => { x with turned := false }) s.clus }

/-- The stall watchdog restarts its full interval (R503, R505). -/
def stallRestart : State :=
  { s.setReg Reg.wdgStrem (BitVec.ofNat 32 (100 * s.fld Reg.wdgStall 15 0)) with
    dbg := { s.dbg with stallAt := some (s.seq.cycle, s.minStep) } }

/-- The halt ends and the step wave may run on (R500, R505); a tick from before it pairs with no midnight (R520). -/
def haltEnd : State :=
  let s := { s with dbg := { s.dbg with now := false, reached := none } }
  let s := (((s.setFlag Reg.dbgStat 31 false).setFlag Reg.dbgStat 29 false).setFlag Reg.dbgStat 22 false).setFlag
    Reg.dbgStat 26 false
  (s.setFlag Reg.tioCadStat 30 false).unturn.stallRestart

/-- The heartbeat resumes its remainder plus 1 ms (R505). -/
def heartResume : State :=
  let s := s.setFlag Reg.wdgStat 30 false
  if s.flag Reg.wdgCtrl 0 then s.count Reg.wdgStat 27 0 1000 else s

/-- RESUME takes effect (R500, R505). -/
def resume : State := s.haltEnd.heartResume

/-- A halt that has not completed is given up: no cluster is held by it, and locks may open (R497, R500). -/
def haltDrop : State :=
  if s.flag Reg.dbgStat 31 then s
  else
    let was := s.dbg.reached.isSome
    let s := { s with dbg := { s.dbg with reached := none } }
    let s := ((s.setFlag Reg.dbgStat 29 false).setFlag Reg.dbgStat 22 false).setFlag Reg.dbgStat 26 false
    if was then s.unturn.drainAll else s

/-- CANCEL: every point is withdrawn, and the target of a STEP or CYCLE, after which the wave runs on as after RESUME
(R493, R500). -/
def cancelPoints : State :=
  let stepping := s.dbg.target.isSome
  let s := { s with dbg := { s.dbg with points := [], now := false, target := none } }
  let s := (s.setFld Reg.dbgStat 15 0 0).haltDrop
  if stepping then s.stallRestart.heartResume else s

/-- A command of DBG_RUN is refused. -/
def dbgErr : State :=
  let old := s.flag Reg.dbgStat 27
  (s.setFlag Reg.dbgStat 27 true).irqIf (!old && s.flag Reg.dbgCtrl 1) dmNode

/-- Position of a halt within its cycle: its step, or L for the midnight (R500). -/
def haltIdx : Nat := min s.len (s.fld Reg.dbgHcycHi 26 16)

/-- The cycle of the halt in force. -/
def haltCyc : BitVec 48 := ((s.reg Reg.dbgHcycHi).setWidth 16 ++ s.reg Reg.dbgHcycLo).setWidth 48

/-- The device runs from the halt to the position k positions on (R500). -/
def runTo (k steps : Nat) : State :=
  let i := s.haltIdx + k
  let cyc := s.haltCyc + BitVec.ofNat 48 (i / (s.len + 1))
  let step := if i % (s.len + 1) = s.len then 0x7FF else i % (s.len + 1)
  let s := s.haltEnd.setFld Reg.dbgStat 15 0 steps
  { s with dbg := { s.dbg with target := some { cyc := cyc, step := step, cause := 0 } } }

/-- Whether STEP and CYCLE may act: from a halt that is not ragged, on this device alone (R499, R500). -/
def mayStepRun (fab : Bool) : Bool := s.seqState == 3 && !s.flag Reg.dbgStat 29 && !s.fabWide fab

/-- A command of DBG_RUN is carried out (R493, R495, R499, R500). -/
def dbgCommand (cmd count : Nat) (fab : Bool) : State :=
  match cmd with
  | 1 => s.armPoint 1 (((s.reg Reg.dbgHptHi).setWidth 16 ++ s.reg Reg.dbgHptLo).setWidth 48)
      (s.fld Reg.dbgHptHi 26 16) fab false
  | 2 =>
    if s.seqState = 3 then (if s.fabWide fab then s.floodStart 3 0 else s).resume else s.dbgErr
  | 3 => if s.mayStepRun fab then s.runTo (max 1 count) (max 1 count) else s.dbgErr
  | 4 => if s.mayStepRun fab then s.runTo (if s.haltIdx = s.len then s.len + 1 else s.len - s.haltIdx) 0 else s.dbgErr
  | 5 =>
    if s.fabWide fab then s.armPoint 2 s.seq.cycle 0 fab true
    else { s with dbg := { s.dbg with now := true, nowCause := if s.dbg.now then min 2 s.dbg.nowCause else 2 } }
  | 6 => s.cancelPoints
  | _ => s.dbgErr

/-- DBG_RUN is written (R508): FAB is forced to 1 on a device with midnight neighbours. -/
def dbgRunWrite (v : BitVec 32) : State :=
  let v := if s.fld Reg.seqNbr 11 0 ≠ 0 then setBit v 27 true else v
  let s := s.setReg Reg.dbgRun (v &&& 0x7800FFFF#32)
  if v.getLsbD 31 then s.dbgCommand (bits v 30 28) (bits v 15 0) (v.getLsbD 27) else s

/-- A HALT record reaches the DM: it arms the midnight named (R499). -/
def fabricHalt (cyc : BitVec 48) : State := (s.armAt 6 cyc 0x7FF true).setFlag Reg.dbgStat 22 true

/-- A RESUME record reaches the DM: it resumes, or withdraws a fabric point not yet reached; on a device with midnight
neighbours every point is one (R499). -/
def fabricResume : State :=
  if s.flag Reg.dbgStat 31 || s.dbg.reached.isSome then (if s.seqState = 4 then s else s.resume)
  else
    let keep := fun (p : HaltPt) => p.cause ≠ 6 && s.fld Reg.seqNbr 11 0 == 0
    { s with dbg := { s.dbg with points := s.dbg.points.filter keep } }.setFlag Reg.dbgStat 22 false

end State

/-- The word of DBG_RUN with GO = 1 and a command. -/
def runWord (v : BitVec 32) (cmd : Nat) : BitVec 32 := setBits v 31 28 (8 + cmd)

/-- DBG_HALT (R493). -/
def execDbgHalt (v : BitVec 32) (s : State) : Out := .next (s.regWrite .host Reg.dbgRun (runWord v 1) State.dbgRunWrite)

/-- DBG_RESUME (R500). -/
def execDbgResume (v : BitVec 32) (s : State) : Out := .next (s.regWrite .host Reg.dbgRun (runWord v 2) State.dbgRunWrite)

/-- DBG_STEP (R500). -/
def execDbgStep (v : BitVec 32) (s : State) : Out := .next (s.regWrite .host Reg.dbgRun (runWord v 3) State.dbgRunWrite)

/-- DBG_CYCLE (R500). -/
def execDbgCycle (v : BitVec 32) (s : State) : Out := .next (s.regWrite .host Reg.dbgRun (runWord v 4) State.dbgRunWrite)

/-- DBG_HALTNOW (R495). -/
def execDbgHaltnow (v : BitVec 32) (s : State) : Out := .next (s.regWrite .host Reg.dbgRun (runWord v 5) State.dbgRunWrite)

/-- DBG_CANCEL (R500). -/
def execDbgCancel (v : BitVec 32) (s : State) : Out := .next (s.regWrite .host Reg.dbgRun (runWord v 6) State.dbgRunWrite)

/-- HALT_POINT_REACHED (R497 step 1). -/
def execHaltPointReached (s : State) : Out := .next s.haltReached

/-- HALT_LOCK_BREAK (R497 step 2). -/
def execHaltLockBreak (s : State) : Out := .next s.haltBreak

/-- HALT_COMPLETE (R497 step 3). -/
def execHaltComplete (s : State) : Out := .next s.haltDone

/-- WDG_KICK (R504): the heartbeat restarts its full period. -/
def execWdgKick (v : BitVec 32) (s : State) : Out :=
  .next (s.regWrite .host Reg.wdgKick (setBit v 31 true) fun s _ => s.setFld Reg.wdgStat 27 0 (1000 * max 1 (s.fld Reg.wdgHb 15 0)))

end Sys2Proof.Machine
end

