-- ==== Sys2Proof/Machine/Fabric.lean ====
section
/-! DEFINITION. The fabric: port states (R332 to R336), the Etvel link (R304 to R308), slices and transit (R311 to R313),
CTRL records, discovery and floods (R320 to R324, R338, R339), and remote packets with their routes (R325 to R331,
R335). -/

namespace Sys2Proof.Machine

namespace State

variable (s : State)

/-! ### Link errors (R313, R346) -/

/-- A link error: the first is recorded, each writes a fault record (R586). kind as LNK_ERR.KIND. -/
def linkErr (p kind lane det1 det2 : Nat) : State :=
  let k := Reg.lnkErr p
  let s := if s.flag k 31 then s
    else (s.setReg k (BitVec.ofNat 32 (2 ^ 31 + kind * 2 ^ 28 + lane % 128))).irqIf (s.flag (Reg.lnkIrq p) 1) (portNode p)
  s.record 2 6 kind (portNode p) (lane % 128) det1 det2

/-- A lane parity fault at a port bridge (R26, R40, R313, R316): it names no last tile. -/
def bridgeFault (p kind lane det1 det2 : Nat) : State :=
  ((s.linkErr p kind lane det1 det2).seqFaultBit 4).stopRun

/-! ### Retraining (R306, R333) -/

def setLnk (p st : Nat) : State := s.setFld (Reg.lnkStat p) 31 29 st

/-! ### CTRL records (R323) -/

/-- The kind of a CTRL record. -/
def recKind (w : BitVec 64) : Nat := bits w 63 56

/-- Drops fill words, which are zero, and reserved records from the head of the CTRL words received (R323; log 21). -/
def ctrlTrim (p : Nat) : Nat → State → State
  | 0, s => s
  | n + 1, s =>
    match (s.port p).ctrlIn with
    | [] => s
    | w :: rest =>
      let k := recKind w
      if w = 0 then ctrlTrim p n (s.setPort p { s.port p with ctrlIn := rest })
      else if k = 0 ∨ 0x0B < k then ctrlTrim p n ((s.setPort p { s.port p with ctrlIn := rest }).linkErr p 7 0 0 0)
      else s

/-- The state with the first n CTRL words of a port taken. -/
def ctrlDrop (p n : Nat) : State :=
  let l := (s.port p).ctrlIn.drop n
  ctrlTrim p l.length (s.setPort p { s.port p with ctrlIn := l })

/-- The record at the head of the CTRL words received, when it has the kind and all its words have come. -/
def ctrlHead (p kind words : Nat) : Option (List (BitVec 64)) :=
  let l := (s.port p).ctrlIn
  match l with
  | w :: _ => if recKind w = kind ∧ words ≤ l.length then some (l.take words) else none
  | [] => none

/-- Sends a record of two words. -/
def ctrlSend2 (p : Nat) (a b : BitVec 64) : State :=
  let x := s.port p
  s.setPort p { x with ctrlOut := x.ctrlOut ++ [a, b] }

/-- The device's fabric identity, as the device record gave it at the last start (R348, R370, R383). -/
def fabIdentity : BitVec 64 := s.fabId.getD Config.fabIdentity

/-- FAB_CTRL.ADDR and AV (R341). -/
def fabAddr : Nat := s.fld Reg.fabCtrl 10 0
def fabAv : Bool := s.flag Reg.fabCtrl 11

/-- Whether an address names this device. -/
def fabOwn (a : Nat) : Bool := s.fabAv && s.fabAddr == a

/-- The route entry to an address in the bank of an epoch (R329). -/
def route (e : Bool) (a : Nat) : BitVec 32 := s.reg (if e then Reg.fabRt1 a else Reg.fabRt0 a)

/-- Bank 0 takes a route (R322). -/
def setRoute0 (a out : Nat) : State := s.setReg (Reg.fabRt0 a) (BitVec.ofNat 32 (2 ^ 31 + out))

/-- The port on which a route entry sends: OUT when UP, else ALT when valid and UP (R329). -/
def routePort (r : BitVec 32) : Option Nat :=
  if s.lnkState (bits r 2 0) = 2 then some (bits r 2 0)
  else if r.getLsbD 30 ∧ s.lnkState (bits r 6 4) = 2 then some (bits r 6 4)
  else none

/-- FAB_RT_CTRL.CUR (R330). -/
def epoch : Bool := s.flag Reg.fabRtCtrl 30

/-! ### Midnight tokens (R338) -/

/-- A TOKEN is discarded: FAB_TOK.ERR and a fault record; reason 0 not a neighbour, 1 cycle out of range, 2 no route. -/
def tokenDrop (e : Bool) (dst src reason : Nat) (cyc : BitVec 32) : State :=
  let old := s.flag Reg.fabTok 30
  ((s.record 1 6 9 ceNode (reason * 2 ^ 12 + b2n e * 2 ^ 11 + src) cyc.toNat dst).setFlag Reg.fabTok 30 true).irqIf
    (!old && s.flag Reg.fabCtrl 27) ceNode

/-- A TOKEN reaches its destination (R338). -/
def tokenTake (e : Bool) (dst src : Nat) (cyc : BitVec 32) : State :=
  let n : BitVec 32 := s.seq.cycle.setWidth 32
  if !s.seq.neigh.contains src then s.tokenDrop e dst src 0 cyc
  else if cyc = n ∨ cyc = n + 1 then
    { s with seq := { s.seq with tok := if s.seq.tok.contains ⟨src, cyc⟩ then s.seq.tok else s.seq.tok ++ [⟨src, cyc⟩] } }
  else s.tokenDrop e dst src 1 cyc

/-- A TOKEN is routed (R329): taken here, sent, waiting at its port, or without a route. -/
def tokenRoute (e : Bool) (dst src : Nat) (cyc : BitVec 32) : State :=
  if s.fabOwn dst then s.tokenTake e dst src cyc
  else
    let r := s.route e dst
    if r.getLsbD 31 then
      let w := BitVec.ofNat 64 (2 ^ 56 + b2n e * 2 ^ 55 + dst * 2 ^ 44 + src * 2 ^ 33 + cyc.toNat)
      s.ctrlSend ((s.routePort r).getD (bits r 2 0)) w
    else s.tokenDrop e dst src 2 cyc

/-- The tokens held for want of an address leave in cycle order (R338). -/
def tokensOut : State :=
  if s.fabAv then
    let l := s.seq.tokOut
    l.foldl (fun s t => s.tokenRoute s.epoch t.src s.fabAddr t.cyc) { s with seq := { s.seq with tokOut := [] } }
  else s

/-! ### Discovery (R320 to R324) -/

/-- The device's PREPLY record (R323, R346). -/
def preply (p : Nat) : State :=
  s.ctrlSend2 p
    (BitVec.ofNat 64 (7 * 2 ^ 56 + b2n s.fabAv * 2 ^ 55 + s.fabAddr * 2 ^ 44 + p * 2 ^ 41 + bits s.fab.root 40 0))
    s.fabIdentity

/-- Every UP port announces the device's address (R346), and waiting tokens leave. -/
def announce : State :=
  ((List.range 8).foldl (fun s p => if s.lnkState p = 2 then s.preply p else s) s).tokensOut

/-- The device's address, discovery state and both banks clear (R324). -/
def fabClear : State :=
  let s := { s with regs := tdrop (fun k => decide (Reg.fabRt0 0 ≤ k ∧ k ≤ Reg.fabRt1 2047)) s.regs }
  let s := ((s.setFld Reg.fabCtrl 11 0 0).setReg Reg.fabDstat 0)
  { s with fab := { s.fab with probing := none, topo := [], queue := [], now := none, next := 0 } }

/-- The root's topology entry of an address. -/
def topoDev (a : Nat) : TopoDev := tget (fun _ => TopoDev.empty) s.fab.topo a

def setTopo (a : Nat) (x : TopoDev) : State :=
  { s with fab := { s.fab with topo := tput (fun _ => TopoDev.empty) a x s.fab.topo } }

/-- The root claims the device behind port k of device e with address n: through itself or on the bank 0 route (R322). -/
def claim (e k n : Nat) : State :=
  let r := if e = 0 then k else bits (s.route false e) 2 0
  let s := s.setRoute0 n r
  s.ctrlSend r (BitVec.ofNat 64 (8 * 2 ^ 56 + e * 2 ^ 45 + n * 2 ^ 34 + k * 2 ^ 31))

/-- FAB_DSTAT.STATE becomes DONE (2) or CONFLICT (3) (R342). -/
def discoveryEnd (st : Nat) : State :=
  let s := { s with fab := { s.fab with queue := [], now := none } }
  (s.setFld Reg.fabDstat 31 29 st).irqIf (s.flag Reg.fabCtrl 28) ceNode

/-- The root goes on to the next device of its queue, or is done (R321). -/
def exploreNext : State :=
  match s.fab.queue with
  | [] => s.discoveryEnd 2
  | e :: rest =>
    ({ s with fab := { s.fab with queue := rest, now := some e } }).ctrlSend (bits (s.route false e) 2 0)
      (BitVec.ofNat 64 (9 * 2 ^ 56 + e * 2 ^ 45))

/-- A report reaches the root (R321, R323): port k of device e, the result, the far address and port, the far
identity. A device that was probed before its claim reached it is not unclaimed any more (log 67). -/
def rootReport (e k res fa fp : Nat) (id : BitVec 64) : State :=
  if s.fab.now ≠ some e then s
  else
    let put := fun (s : State) (res fa : Nat) =>
      s.setTopo e { s.topoDev e with
        ports := tput (fun _ => 0) k (BitVec.ofNat 32 (res * 2 ^ 30 + fa * 2 ^ 16 + fp)) (s.topoDev e).ports }
    if res = 3 ∧ id ≠ 0 then (put s res fa).discoveryEnd 3
    else
      let s :=
        if res = 1 then
          let n := s.fab.next
          match s.fab.topo.find? fun x => x.2.id == id with
          | some x => put s 2 x.1
          | none =>
          if n ≤ 2047 then
            let s := ((put s 2 n).setTopo n { (put s 2 n).topoDev n with id := id }).claim e k n
            ({ s with fab := { s.fab with queue := s.fab.queue ++ [n], next := n + 1 } }).setFld Reg.fabDstat 27 16 (n + 1)
          else (put s 3 fa).setFlag Reg.fabDstat 28 true
        else put s res fa
      if k = 7 then s.exploreNext else s

/-- A device reports a port to the root (R321, R323). -/
def report (k res fa fp : Nat) (id : BitVec 64) : State :=
  if s.fabAddr = 0 then s.rootReport 0 k res fa fp id
  else
    s.ctrlSend2 (bits (s.route false 0) 2 0)
      (BitVec.ofNat 64 (10 * 2 ^ 56 + s.fabAddr * 2 ^ 45 + k * 2 ^ 42 + res * 2 ^ 40 + fa * 2 ^ 29 + fp * 2 ^ 26)) id

/-- The device probes its ports from k on: a port that is not UP is reported without a link at once (R321). -/
def probeFrom : Nat → Nat → State → State
  | 0, _, s => { s with fab := { s.fab with probing := none } }
  | n + 1, k, s =>
    if s.lnkState k = 2 then
      let w := BitVec.ofNat 64 (6 * 2 ^ 56 + s.fabAddr * 2 ^ 45 + k * 2 ^ 42 + bits s.fab.root 41 0)
      { s with fab := { s.fab with probing := some k } }.ctrlSend k w
    else probeFrom n (k + 1) (s.report k 0 0 0 0)

/-- The port now probed is reported, and the next one is probed (R321). -/
def probed (k res fa fp : Nat) (id : BitVec 64) : State :=
  probeFrom (7 - k) (k + 1) (s.report k res fa fp id)

/-- Whether a scheduled channel is loaded: a receive entry, a named far end or a midnight neighbour (R324). -/
def channelLoaded : Bool :=
  s.fld Reg.seqNbr 11 0 != 0 || (s.fab.peers.any fun e => e.2.isSome) ||
  s.regs.any fun e => e.2.getLsbD 31 && decide (0x400 ≤ e.1 % 0x100000 ∧ e.1 % 0x100000 < 0x600) &&
    match nodeKind (e.1 / 0x100000) with
    | .port _ => true
    | _ => false

/-- Discovery starts at the root (R320, R324). -/
def discover : State :=
  let s := (s.floodStart 0x0B 0).fabClear
  let s := { s with fab := { s.fab with root := s.fabIdentity, next := 1, now := some 0 } }
  let s := s.setTopo 0 { TopoDev.empty with id := s.fabIdentity }
  let s := (s.setFld Reg.fabCtrl 11 0 0x800).setReg Reg.fabDstat 0x20010000#32
  probeFrom 8 0 s.announce

/-- FAB_CTRL is written (R341, R324): a DGO at a root that has a scheduled channel loaded has no effect but ERR. -/
def fabCtrlWrite (v : BitVec 32) : State :=
  let mask : BitVec 32 := if s.flag Reg.fabCtrl 29 then 0x18000000#32 else 0x783F0000#32
  let t := s.setReg Reg.fabCtrl ((s.reg Reg.fabCtrl &&& ~~~mask) ||| (v &&& mask))
  if v.getLsbD 31 ∧ t.flag Reg.fabCtrl 30 then
    if s.channelLoaded then s.setFlag Reg.fabRtCtrl 29 true else t.discover
  else t

/-- The device is claimed through port p with an address (R322). -/
def claimed (p n : Nat) : State :=
  let s := (s.setFld Reg.fabCtrl 11 0 (0x800 + n)).setReg Reg.fabDstat (BitVec.ofNat 32 (4 * 2 ^ 29 + 2 ^ 15 + p * 2 ^ 12))
  ((List.range 2048).foldl (fun s a => s.setRoute0 a p) s).announce

/-! ### Remote packets (R325 to R331) -/

/-- Data flits that a packet carries: a response as many as LEN, a write its own, a read none (R272). -/
def dataFlits (pk : Packet) : Nat :=
  match pk.cmd with
  | 1 | 3 | 5 | 7 => pk.len
  | _ => 0

/-- The header flit of a packet (R272). -/
def headerFlit (pk : Packet) : BitVec 256 :=
  BitVec.ofNat 256 (pk.dx % 16 * 2 ^ 252 + pk.dy % 16 * 2 ^ 248 + pk.sx % 16 * 2 ^ 244 + pk.sy % 16 * 2 ^ 240 +
    pk.mid % 1024 * 2 ^ 230 + pk.ctx % 64 * 2 ^ 224 + pk.cmd % 16 * 2 ^ 220 + pk.cls % 4 * 2 ^ 218 +
    pk.len % 16 * 2 ^ 214 + pk.slot % 64 * 2 ^ 208 + pk.gen % 64 * 2 ^ 202 + pk.addr.toNat * 2 ^ 154 +
    pk.resp % 16 * 2 ^ 150 + b2n pk.peek * 2 ^ 149 + b2n pk.q * 2 ^ 148 + pk.be.toNat * 2 ^ 140)

/-- The packet a header flit and its data flits spell. -/
def packetOf (h : BitVec 256) (data : List (BitVec 256)) : Packet :=
  { dx := bits h 255 252, dy := bits h 251 248, sx := bits h 247 244, sy := bits h 243 240, mid := bits h 239 230,
    ctx := bits h 229 224, cmd := bits h 223 220, cls := bits h 219 218, len := bits h 217 214, slot := bits h 213 208,
    gen := bits h 207 202, addr := BitVec.ofNat 48 (bits h 201 154), resp := bits h 153 150, peek := h.getLsbD 149,
    q := h.getLsbD 148, be := BitVec.ofNat 8 (bits h 147 140), data := data }

/-- The words of a flit on a stream, the most significant first. -/
def wordsOfFlit (f : BitVec 256) : List (BitVec 64) := [flitWord f 3, flitWord f 2, flitWord f 1, flitWord f 0]

/-- The hop count with which a packet leaves: one more at a device that forwards it (R326). -/
def hopsOut (f : FabPkt) : Nat := if f.port = 8 then f.hops else f.hops + 1

/-- A packet with its envelope as words of a class stream (R326). -/
def streamOf (f : FabPkt) : List (BitVec 64) :=
  BitVec.ofNat 64 (f.dest % 2048 * 2 ^ 53 + f.src % 2048 * 2 ^ 32 + b2n f.e * 2 ^ 31 + hopsOut f % 32 * 2 ^ 26) ::
    ((headerFlit f.pk :: (f.pk.data.take (dataFlits f.pk))).flatMap wordsOfFlit)

/-- Words of a class stream that a packet takes. -/
def streamLen (f : FabPkt) : Nat := 5 + 4 * dataFlits f.pk

/-- The buffer of the class drains as a packet leaves it: its credits return to the port on which it came (R307). -/
def returnCredits (f : FabPkt) : State :=
  if f.port < 8 then s.ctrlSend f.port (creditRecord (if f.bulk then 2 else 1) 0 (streamLen f)) else s

/-- The packets of a class that wait at a port, and the words of the first that have left. -/
def classQ (p : Nat) (bulk : Bool) : List FabPkt × Nat :=
  let x := s.port p
  if bulk then (x.bulkQ, x.bulkPos) else (x.svcQ, x.svcPos)

def setClassQ (p : Nat) (bulk : Bool) (l : List FabPkt) (n : Nat) : State :=
  let x := s.port p
  s.setPort p (if bulk then { x with bulkQ := l, bulkPos := n } else { x with svcQ := l, svcPos := n })

/-- The words of a class that wait at a port. -/
def classWords (p : Nat) (bulk : Bool) : List (BitVec 64) := ((s.classQ p bulk).1.flatMap streamOf).drop (s.classQ p bulk).2

/-- Waiting packets of which k more words leave, from the first on: those left, the words of the first of them that have left, and
those that have left whole. -/
def streamAdvance : List FabPkt → Nat → List FabPkt × Nat × List FabPkt
  | [], _ => ([], 0, [])
  | f :: t, k =>
    if streamLen f ≤ k then
      let r := streamAdvance t (k - streamLen f)
      (r.1, r.2.1, f :: r.2.2)
    else (f :: t, k, [])

/-- Words of a class leave; the credits of a packet return with its last one (R307). -/
def classTake (p : Nat) (bulk : Bool) (n : Nat) : State :=
  let c := s.classQ p bulk
  let r := streamAdvance c.1 (c.2 + n)
  r.2.2.foldl (fun s f => s.returnCredits f) (s.setClassQ p bulk r.1 r.2.1)

/-- A packet joins those that leave on a port. -/
def sendOn (q : Nat) (f : FabPkt) : State :=
  let c := s.classQ q f.bulk
  s.setClassQ q f.bulk (c.1 ++ [f]) c.2

/-- The response that a device returns for a remote request (R326, R328, R335): to its own master, or to the source. A
response that meets the same fate is discarded. p is where the packet stands. -/
def answerRemote (p : Nat) (f : FabPkt) (code : Nat) : State :=
  if f.pk.cmd = 7 ∨ f.pk.cmd = 8 then s
  else if f.port = 8 then s.respond (portNode p) f.pk code []
  else
    let back : FabPkt := { f with dest := f.src, src := s.fabAddr, e := s.epoch, hops := 0, port := 8,
                                  late := false, pk := respOf f.pk (portNode p) code [] }
    let x := s.port p
    s.setPort p { x with arrived := x.arrived ++ [back] }

/-- A packet is held at a port (R335). -/
def holdAt (q : Nat) (f : FabPkt) : State :=
  let x := s.port q
  (s.setPort q { x with heldPk := x.heldPk ++ [f] }).count (Reg.lnkHold q) 31 16 1

/-- A packet that a device sends on: beyond 31 hops it is discarded (R326). -/
def forwardOn (p q : Nat) (f : FabPkt) : State :=
  if hopsOut f ≤ 31 then s.sendOn q f
  else (s.returnCredits f).linkErr p 5 0 0 0

/-- A packet is routed by the bank its E names (R329). -/
def packetRoute (p : Nat) (f : FabPkt) : State :=
  let r := s.route f.e f.dest
  if r.getLsbD 31 then
    match s.routePort r with
    | some q => s.forwardOn p q f
    | none => s.holdAt (bits r 2 0) f
  else (s.returnCredits f).answerRemote p f 1

/-- Whether two packets belong to one flow, whose order is kept (R327). -/
def sameFlow (f g : FabPkt) : Bool := g.dest == f.dest && g.src == f.src && g.bulk == f.bulk

/-- The packets held at a port are looked at in their order: those that need not wait for a switch any more go where the route now
sends them, and the others stay (R331, R335). -/
def heldRoute (p : Nat) : State :=
  let l := (s.port p).heldPk
  l.foldl (fun s f =>
    let r := s.route f.e f.dest
    if f.late || (r.getLsbD 31 && (s.routePort r).isNone) then
      s.setPort p { s.port p with heldPk := (s.port p).heldPk ++ [f] }
    else s.packetRoute p f) (s.setPort p { s.port p with heldPk := [] })

/-- A packet stands at port p and is routed (R329 to R331): a response for this device goes to its master, a request for
it waits for REMOTE_REQUEST_ARRIVE. A packet that came with the other epoch is one of a later epoch, and held, or an
older one, and routed: the device cannot tell which, so a free value does, but for one behind a held one of its flow (R327; log 20). -/
def fabricRoute (p i : Nat) : State :=
  let x := s.port p
  match x.arrived[i]? with
  | none => s
  | some f =>
    if (x.arrived.take i).any (sameFlow f) then s
    else
      let s' := s.setPort p { x with arrived := x.arrived.eraseIdx i }
      if s.fabOwn f.dest then
        if f.pk.cmd = 7 then
          { s'.returnCredits f with net := s'.net ++ [{ pk := f.pk, pos := portNode p }] }
        else s
      else if f.port < 8 ∧ f.e ≠ s.epoch then
        let s' := { s' with free := s'.free + 1 }
        let q := bits (s.route f.e f.dest) 2 0
        if s.drawn.getLsbD 0 || (s.port q).heldPk.any (fun g => sameFlow f g && g.late) then s'.holdAt q { f with late := true }
        else s'.packetRoute p f
      else s'.packetRoute p f

/-- A packet held for 2 ms is NACKed (R335). -/
def holdNack (p i : Nat) : State :=
  let x := s.port p
  match x.heldPk[i]? with
  | none => s
  | some f =>
    ((s.setPort p { x with heldPk := x.heldPk.eraseIdx i }).count (Reg.lnkHold p) 15 8 1).returnCredits f |>.answerRemote
      p f 3

/-- A request to a remote window leaves its port node (R325, R328). -/
def remoteRequest (p i : Nat) : State :=
  let node := portNode p
  match (s.srvAt node)[i]? with
  | none => s
  | some pk =>
    let o := aOff pk.addr
    let ahead := ((s.srvAt node).take i).any fun g => g.sx == pk.sx && g.sy == pk.sy && g.mid == pk.mid
    if aSpace pk.addr ≠ 0 ∨ o < 0x80000 ∨ 0xC0000 ≤ o ∨ ahead = true ∨ s.lockWaits node pk = true then s
    else
      let n := (o - 0x80000) / 0x10000
      let hi := s.reg (Reg.fabRwinHi p n)
      let s := s.setSrvAt node ((s.srvAt node).eraseIdx i)
      if hi.getLsbD 31 then
        let a := ((s.reg (Reg.fabRwinLo p n)) ++ BitVec.ofNat 16 (o % 0x10000) : BitVec 48)
        let f : FabPkt := { dest := bits hi 10 0, src := s.fabAddr, e := s.epoch, hops := 0, bulk := hi.getLsbD 30,
                            port := 8, late := false, pk := { pk with addr := a } }
        let x := s.port p
        s.setPort p { x with arrived := x.arrived ++ [f] }
      else s.respond node pk 1 []

/-- The first request for this device at port p enters the network through the port's master, unless that is frozen
(R327). -/
def remoteArrive (p : Nat) : State :=
  let x := s.port p
  let node := portNode p
  match x.arrived.findIdx? fun f => s.fabOwn f.dest && f.pk.cmd != 7 with
  | none => s
  | some i =>
    match x.arrived[i]?, s.freeSlot node 0 with
    | some f, some k =>
      if (s.master node 0).frozen then s
      else
        let s := s.setPort p { x with arrived := x.arrived.eraseIdx i,
                                      remote := if f.pk.cmd = 8 then x.remote else tput (fun _ => none) k (some f) x.remote }
        (s.returnCredits f).request node 0 { f.pk with slot := k }
    | _, _ => s

/-- FAB_RT_CTRL is written (R330): a switch toggles CUR, and the packets of the new epoch held here are routed, before any that
came after them (R327, R331). -/
def rtCtrlWrite (v : BitVec 32) : State :=
  let s := if v.getLsbD 29 then s.setFlag Reg.fabRtCtrl 29 false else s
  if v.getLsbD 31 then
    let s := s.setFlag Reg.fabRtCtrl 30 !s.epoch
    (List.range 8).foldl (fun s p =>
      let x := s.port p
      (s.setPort p { x with heldPk := x.heldPk.map fun f => { f with late := f.late && f.e != s.epoch } }).heldRoute p) s
  else s

/-! ### Retraining (R306, R333) -/

/-- The packets of a class that wait at a port that is not UP, and of which no word has left, find their port again: ALT, or a hold at
OUT (R329, R335). -/
def spill (p : Nat) (bulk : Bool) : State :=
  let c := s.classQ p bulk
  let k := if c.2 = 0 then 0 else 1
  (c.1.drop k).foldl (fun s f =>
    let r := s.route f.e f.dest
    match s.routePort r with
    | some q => s.sendOn q f
    | none => s.holdAt (bits r 2 0) f) (s.setClassQ p bulk (c.1.take k) c.2)

/-- A port leaves UP for another state: the far end is no longer known (R346), and the packets that wait find another way. -/
def leaveUp (p st : Nat) : State := (((s.setFlag (Reg.lnkPeer p) 31 false).setLnk p st).spill p false).spill p true

/-- A port retrains (R333). -/
def retrain (p : Nat) : State :=
  ((s.leaveUp p 3).count (Reg.lnkHold p) 7 0 1).irqIf (s.flag (Reg.lnkIrq p) 0) (portNode p)

/-- An episode of replay joins those of the last 1 ms: beyond RPLIM a port that is UP retrains (R306, R332, R333). -/
def episode (p : Nat) : State :=
  let x := s.port p
  let recent := s.us.toNat :: x.epis.filter fun t => s.us.toNat < t + 1000
  let s := s.setPort p { x with epis := recent }
  if s.lnkState p = 2 ∧ s.fld (Reg.lnkCtrl p) 15 8 < recent.length then (s.setPort p { s.port p with epis := [] }).retrain p
  else s

/-- An episode begins at this end, and is counted (R306). -/
def episodeCount (p : Nat) : State := (s.count (Reg.lnkReplay p) 31 16 1).episode p

/-! ### What the CTRL records do (R323) -/

/-- A flood record other than a repeated one is passed on (R339), and the next one that starts here follows it (log 68).
Answers none for a repeated one. -/
def flooded (p : Nat) (w : BitVec 64) : Option State :=
  if s.fab.seenSeq = some (bits w 55 48) then none
  else
    let q := bits w 55 48
    some ({ s with fab := { s.fab with seenSeq := some q, nextSeq := (q + 1) % 256 } }.ctrlFlood p w)

/-- A far end that holds an address has told it (R346): LNK_PEER takes it, and the port is checked against the image (R316; log 92). -/
def peerKnown (p a fp : Nat) : State :=
  let s := s.setReg (Reg.lnkPeer p) (BitVec.ofNat 32 (2 ^ 31 + a * 2 ^ 16 + fp))
  match tget (fun _ => none) s.fab.peers p with
  | some want =>
    let s := s.setPort p { s.port p with closed := decide (want ≠ a) }
    if want = a then s else s.bridgeFault p 6 0 want a
  | none => s

/-- What a CTRL record does, by its kind (R323). l holds its words. An unconfigured device answers no PROBE (R377). A replay that a NAK starts is an episode of this end too,
though the end that sent the NAK counts it (log 69). -/
def ctrlAct (p : Nat) (l : List (BitVec 64)) : State :=
  let w := l.getD 0 0
  let x := s.port p
  match recKind w with
  | 1 => s.tokenRoute (w.getLsbD 55) (bits w 54 44) (bits w 43 33) (w.setWidth 32)
  | 2 => match s.flooded p w with
    | some s => s.fabricHalt (w.setWidth 48)
    | none => s
  | 3 => match s.flooded p w with
    | some s => s.fabricResume
    | none => s
  | 4 =>
    let n := bits w 15 0
    match bits w 55 54 with
    | 0 => s.setPort p { x with
        credS := tput (fun _ => 1024) (bits w 53 47) (tget (fun _ => 1024) x.credS (bits w 53 47) + n) x.credS }
    | 1 => s.setPort p { x with credV := x.credV + n }
    | 2 => s.setPort p { x with credB := x.credB + n }
    | _ => s
  | 5 =>
    let i := (bits w 55 44 + 8192 - x.nextSeq + x.replay.length) % 4096
    if i < x.replay.length then (s.setPort p { x with resend := i }).episode p else s
  | 6 =>
    if s.fld Reg.ceStat 31 29 = 5 then s
    else
    let s := if s.fabAv then s else { s with fab := { s.fab with root := (bits w 41 0 : BitVec 64) } }
    s.preply p
  | 7 =>
    let cl := w.getLsbD 55
    let a := bits w 54 44
    let fp := bits w 43 41
    let s := if cl ∧ s.lnkState p = 2 then s.peerKnown p a fp else s
    if s.fab.probing = some p then
      s.probed p (if !cl then 1 else if bits w 40 0 = bits s.fab.root 40 0 then 2 else 3) a fp (l.getD 1 0)
    else s
  | 8 =>
    let e := bits w 55 45
    let n := bits w 44 34
    if !s.fabAv then s.claimed p n
    else
      let r := if s.fabAddr = e then bits w 33 31 else bits (s.route false e) 2 0
      (s.setRoute0 n r).ctrlSend r w
  | 9 =>
    let e := bits w 55 45
    if s.fabOwn e then probeFrom 8 0 s else s.ctrlSend (bits (s.route false e) 2 0) w
  | 10 =>
    if s.fabOwn 0 then
      s.rootReport (bits w 55 45) (bits w 44 42) (bits w 41 40) (bits w 39 29) (bits w 28 26) (l.getD 1 0)
    else s.ctrlSend2 (bits (s.route false 0) 2 0) w (l.getD 1 0)
  | 11 => match s.flooded p w with
    | some s => s.fabClear
    | none => s
  | _ => s

/-- The record at the head of the CTRL words received is taken and acts, when it is of the kind. -/
def ctrlTake (p kind words : Nat) : State :=
  match s.ctrlHead p kind words with
  | some l => (s.ctrlDrop p words).ctrlAct p l
  | none => s


/-! ### Port states (R332 to R336) -/

/-- The 16 lowest-numbered lanes that pass (R303). -/
def lanesOf (pass : BitVec 18) : BitVec 18 :=
  (List.range 18).foldl (fun a i => if pass.getLsbD i && decide (ones a < 16) then setBit a i true else a) 0

/-- TYPE of a flit (R305). -/
def flitType (f : Flit) : Nat := bits f 1023 1020

/-- A SERVICE or BULK flit with its content discarded: it keeps its place in the sequence as a CTRL flit of fill. -/
def emptied (f : Flit) : Flit :=
  if flitType f = 2 ∨ flitType f = 3 then setBits (setBits f 1023 1020 4) 991 32 0 else f

/-- A port fails (R303, R332, R336): it NACKs what it holds, discards its SERVICE and BULK flits and the packets of which words have
left, writes its records. The others found another way when the port left UP. -/
def portFail (p : Nat) : State :=
  let x := s.port p
  let n := x.heldPk.length
  let s := (x.svcQ ++ x.bulkQ).foldl (fun s f => s.returnCredits f) ((s.linkErr p 4 0 0 0).setLnk p 4)
  let s := s.setPort p { s.port p with replay := x.replay.map emptied, svcQ := [], svcPos := 0, bulkQ := [], bulkPos := 0 }
  let s := (List.range n).foldl (fun s _ => s.holdNack p 0) s
  let s := s.record 2 6 8 (portNode p) (min n 65535) (s.fld (Reg.lnkStat p) 17 0) 0
  s.irqIf (s.flag (Reg.lnkIrq p) 2) (portNode p)

/-- A port comes UP: it announces itself, resends from the far end's last ACKSEQ, and the packets held for it, as OUT or as ALT, are
sent (R333, R335, R346, R348). -/
def portUp (p : Nat) : State :=
  let s := ((s.setPort p { s.port p with resend := 0 }).setLnk p 2).preply p
  (List.range 8).foldl (fun s q => s.heldRoute q) s

/-- Training ends with the lanes that pass (R303, R332). -/
def trained (p : Nat) (pass : BitVec 18) (inTime : Bool) : State :=
  if s.lnkState p = 1 ∨ s.lnkState p = 3 then
    let s := s.setFld (Reg.lnkStat p) 17 0 (lanesOf pass).toNat
    if inTime ∧ 16 ≤ ones pass then s.portUp p else s.portFail p
  else s

/-- LNK_CTRL is written (R333, R345): ENABLE = 0 holds the port in DOWN, where no lane is active. -/
def lnkCtrlWrite (p : Nat) (v : BitVec 32) : State :=
  let k := Reg.lnkCtrl p
  let mask : BitVec 32 := if s.flag k 0 then 0xFF00#32 else 0x6000FF01#32
  let s := s.setReg k ((s.reg k &&& ~~~mask) ||| (v &&& mask))
  if !s.flag k 30 ∧ s.lnkState p ≠ 5 then (s.leaveUp p 0).setFld (Reg.lnkStat p) 17 0 0
  else if v.getLsbD 31 then
    if s.lnkState p = 2 then s.retrain p else if s.lnkState p = 4 then s.setLnk p 1 else s
  else s

/-! ### Sending flits (R305 to R308, R312) -/

/-- The gateway output lane that feeds a link lane (R161, R310). -/
def linkSource (p j : Nat) : LaneId := gatewayLane (portTile p) 6 j

/-- The place from which the bridge takes. -/
def lastPlace (l : LaneId) : Nat := s.chainLen l - 1

/-- The head of a link lane: a lane-byte in transit, or the one at the end of the port gateway's lane; none once the bridge
has found a parity error on the lane (R166, R311). -/
def linkHead (p j : Nat) : Option LaneByte :=
  let l := linkSource p j
  if (s.lane l).closedAt (s.chainLen l) then none
  else match tget (fun _ => []) (s.port p).transit j with
    | t :: _ => some t.b
    | [] => ((s.lane l).place (s.lastPlace l)).map fun h => h.b

/-- Credits held for a link lane (R307). -/
def credit (p j : Nat) : Nat := tget (fun _ => 1024) (s.port p).credS j

/-- The lanes of a group that have a head and a credit, with their heads. -/
def groupHeads (p g : Nat) : List (Nat × LaneByte) :=
  (List.range 16).filterMap fun i =>
    let j := 16 * g + i
    if 0 < s.credit p j then (s.linkHead p j).map fun b => (j, b) else none

/-- The bridge checks the parity of every head it would send, as a lane stage does (R311). -/
def bridgeCheck (p g : Nat) : State :=
  (s.groupHeads p g).foldl (fun s e =>
    if oddOk e.2 then s else s.laneFault (linkSource p e.1) (s.chainLen (linkSource p e.1)) 0 (tagOf e.2)) s

/-- A lane-byte leaves the head of its link lane, and its credit is used (R307); one in transit returns its own. -/
def linkTake (p j : Nat) : State :=
  let x := s.port p
  let x := { x with credS := tput (fun _ => 1024) j (s.credit p j - 1) x.credS }
  match tget (fun _ => []) x.transit j with
  | t :: rest =>
    (s.setPort p { x with transit := tput (fun _ => []) j rest x.transit }).ctrlSend t.port (creditRecord 0 t.lane 1)
  | [] =>
    let l := linkSource p j
    (s.setPort p x).setLane l ((s.lane l).setPlace (s.lastPlace l) none)

/-- Bits enter a stream. -/
def pushBits (q : BitQ) (n v : Nat) : BitQ := ⟨q.len + n, q.val * 2 ^ n + v % 2 ^ n⟩

/-- The slice of a group: the tag of its lowest-numbered head, and every head with that tag (R311, R312). -/
def sliceOf (g : Nat) (l : List (Nat × LaneByte)) : BitQ :=
  match l with
  | [] => ⟨0, 0⟩
  | (_, b) :: _ =>
    let m := l.filter fun e => tagOf e.2 = tagOf b
    let mask := m.foldl (fun a e => a + 2 ^ (e.1 % 16)) 0
    m.foldl (fun q e => pushBits q 8 (bits e.2 7 0)) ⟨24, tagOf b * 2 ^ 20 + g * 2 ^ 16 + mask⟩

/-- The next group, from the one the round stands at, that has a head with a credit. -/
def nextGroup (p : Nat) : Option Nat :=
  ((List.range 8).map fun i => ((s.port p).group + i) % 8).find? fun g => !(s.groupHeads p g).isEmpty

/-- Slices join the SCHED stream until it fills a flit or no lane-byte can go (R312). -/
def formSlices (p : Nat) : Nat → State → State
  | 0, s => s
  | n + 1, s =>
    if 960 ≤ (s.port p).schedOut.len then s
    else
      match s.nextGroup p with
      | none => s
      | some g =>
        let s := s.bridgeCheck p g
        let l := s.groupHeads p g
        match l with
        | [] => formSlices p n s
        | (_, b) :: _ =>
          let sl := sliceOf g l
          let s := (l.filter fun e => tagOf e.2 = tagOf b).foldl (fun s e => s.linkTake p e.1) s
          let x := s.port p
          let q := pushBits x.schedOut sl.len sl.val
          formSlices p n (s.setPort p { x with schedOut := q, real := q.len, group := (g + 1) % 8 })

/-- Whether the SCHED class has data and credits; at a port whose far end is not the image's no lane-byte crosses (R316). -/
def schedReady (p : Nat) : Bool := !(s.port p).closed && (0 < (s.port p).real || (s.nextGroup p).isSome)

/-- The next SCHED payload: slices, and slices of MASK 0 as fill (R311). -/
def schedPayload (p : Nat) : BitVec 960 × State :=
  let s := formSlices p 48 s
  let x := s.port p
  let q := x.schedOut
  let q := if q.len < 960 then pushBits q (24 * ((960 - q.len + 23) / 24)) 0 else q
  let rest := q.len - 960
  (BitVec.ofNat 960 (q.val / 2 ^ rest),
   s.setPort p { x with schedOut := ⟨rest, q.val % 2 ^ rest⟩, real := x.real - 960 })

/-- Up to 15 words as a payload, the first most significant; zero words fill it (log 21). -/
def payloadOf (l : List (BitVec 64)) : BitVec 960 :=
  BitVec.ofNat 960 ((List.range 15).foldl (fun a i => a * 2 ^ 64 + (l.getD i 0).toNat) 0)

/-- Whether a class stream has data, and credits for the flit (R307). -/
def streamReady (l : List (BitVec 64)) (cred : Nat) : Bool := !l.isEmpty && decide (min 15 l.length ≤ cred)

/-- The class of the next flit (R308): 0 IDLE, 1 SCHED, 2 SERVICE, 3 BULK, 4 CTRL. -/
def nextClass (p : Nat) : Nat :=
  let x := s.port p
  let svc := streamReady (s.classWords p false) x.credV
  let bulk := streamReady (s.classWords p true) x.credB
  if svc ∧ 32 ≤ x.svcWait then 2
  else if bulk ∧ 32 ≤ x.bulkWait then 3
  else if !x.ctrlOut.isEmpty then 4
  else if s.schedReady p then 1
  else if bulk ∧ 16 ≤ x.bulkSvc then 3
  else if svc then 2
  else if bulk then 3
  else 0

/-- SCHED flits a class has waited through after a flit: one that has waited through 32 takes the next flit it can (R308). -/
def waitedSched (cls : Nat) (gone : Bool) (n : Nat) : Nat :=
  if gone then 0 else if cls = 1 then n + 1 else if 32 ≤ n then n else 0

/-- The waiting counts of R308 after a flit of a class. -/
def waited (x : Port) (cls : Nat) : Port :=
  { x with svcWait := waitedSched cls (cls == 2 || x.svcQ.isEmpty) x.svcWait,
           bulkWait := waitedSched cls (cls == 3 || x.bulkQ.isEmpty) x.bulkWait,
           bulkSvc := if cls = 3 ∨ x.bulkQ.isEmpty then 0 else if cls = 2 then x.bulkSvc + 1 else x.bulkSvc }

/-- A flit with its acknowledgement and CRC (R305). -/
def sealFlit (x : Port) (f : Flit) : Flit :=
  let f := match x.ackOut with
    | some a => setBits f 1007 995 (2 * a + 1)
    | none => setBits f 1007 995 0
  setBits f 31 0 (crc32Bits (bitsDown (f.toNat / 2 ^ 32) 992)).toNat

/-- A flit of a class leaves: it takes the next SEQ and stays in the replay buffer (R306). -/
def flitOut (p cls : Nat) (pay : BitVec 960) : State :=
  let x := waited (s.port p) cls
  let f : Flit := BitVec.ofNat 1024 (cls * 2 ^ 1020 + x.nextSeq * 2 ^ 1008 + pay.toNat * 2 ^ 32)
  s.setPort p { x with replay := x.replay ++ [f], resend := x.replay.length + 1, nextSeq := (x.nextSeq + 1) % 4096,
                       sent := sealFlit x f }

/-- The sender sends a flit (R306, R308): a replay goes on first; a full buffer sends IDLE only, and so does a replay that has come to
a SCHED flit at a port that no lane-byte may cross (R316; log 92). -/
def flitSend (p : Nat) : State :=
  let x := s.port p
  if s.lnkState p ≠ 2 then s
  else
    match x.replay[x.resend]? with
    | some f =>
      if x.closed ∧ flitType f = 1 then s.setPort p { x with sent := sealFlit x 0 }
      else s.setPort p { x with resend := x.resend + 1, sent := sealFlit x f }
    | none =>
      let cls := if x.replay.length < 1024 then s.nextClass p else 0
      match cls with
      | 1 =>
        let r := s.schedPayload p
        r.2.flitOut p 1 r.1
      | 2 =>
        let l := (s.classWords p false).take 15
        ((s.setPort p { x with credV := x.credV - l.length }).classTake p false l.length).flitOut p 2 (payloadOf l)
      | 3 =>
        let l := (s.classWords p true).take 15
        ((s.setPort p { x with credB := x.credB - l.length }).classTake p true l.length).flitOut p 3 (payloadOf l)
      | 4 => (s.setPort p { x with ctrlOut := x.ctrlOut.drop 15 }).flitOut p 4 (payloadOf (x.ctrlOut.take 15))
      | _ => s.setPort p { x with sent := sealFlit x 0 }

/-! ### Receiving flits (R304, R306, R311, R313) -/

/-- A flit is discarded; the first of an episode is answered with a NAK (R306). -/
def flitDrop (p : Nat) : State :=
  let x := s.port p
  if x.episode then s
  else
    ((s.setPort p { x with episode := true }).ctrlSend p (BitVec.ofNat 64 (5 * 2 ^ 56 + x.expSeq * 2 ^ 44))).episodeCount p

/-- An ACKSEQ covers the flits sent up to it (R306). -/
def flitAck (p a : Nat) : State :=
  let x := s.port p
  let n := (a + 1 + 4096 - x.nextSeq + x.replay.length) % 4096
  if n ≤ x.replay.length then s.setPort p { x with replay := x.replay.drop n, resend := x.resend - n } else s

/-- One lane-byte of a slice (R313). -/
def sliceByte (p j tag : Nat) (d : BitVec 8) : State :=
  let e := s.reg (Reg.lnkChrx p j)
  let b := mkLaneByte tag d
  if e.getLsbD 31 ∧ bits e 30 29 = 1 then
    let x := s.port p
    s.setPort p { x with rx := tput (fun _ => []) j (tget (fun _ => []) x.rx j ++ [b]) x.rx }
  else if e.getLsbD 31 ∧ bits e 30 29 = 2 then
    let q := bits e 28 26
    let x := s.port q
    let o := bits e 25 19
    s.setPort q { x with transit := tput (fun _ => []) o (tget (fun _ => []) x.transit o ++ [⟨p, j, b⟩]) x.transit }
  else s.bridgeFault p 1 j 0 0

/-- The lanes a slice names, in ascending order. -/
def maskLanes (mask : Nat) : List Nat := (List.range 16).filter fun i => mask.testBit i

/-- The slices that have come whole are taken from the SCHED stream (R311, R313); at a closed port they wait (R316, R318). -/
def takeSlices (p : Nat) : Nat → State → State
  | 0, s => s
  | n + 1, s =>
    let x := s.port p
    let q := x.schedIn
    if q.len < 24 ∨ x.closed then s
    else
      let h := q.val / 2 ^ (q.len - 24)
      let lanes := maskLanes (h % 2 ^ 16)
      let need := 24 + 8 * lanes.length
      if q.len < need then s
      else
        let rest := q.len - need
        let body := q.val / 2 ^ rest
        let s := s.setPort p { x with schedIn := ⟨rest, q.val % 2 ^ rest⟩ }
        let g := h / 2 ^ 16 % 8
        let s :=
          if h.testBit 19 then s.bridgeFault p 2 0 0 0
          else
            (List.range lanes.length).foldl (fun s i =>
              s.sliceByte p (16 * g + lanes.getD i 0) (h / 2 ^ 20 % 16)
                (BitVec.ofNat 8 (body / 2 ^ (8 * (lanes.length - 1 - i))))) s
        takeSlices p n s

/-- The packets that have come whole are taken from the words of a class stream (R326); a zero word where an envelope is
due is fill (log 21). Answers the packets and the words left. -/
def takePackets (p : Nat) (bulk : Bool) : Nat → List (BitVec 64) → List FabPkt × List (BitVec 64)
  | 0, l => ([], l)
  | n + 1, l =>
    match l with
    | [] => ([], [])
    | w :: rest =>
      if w = 0 then takePackets p bulk n rest
      else
        let flit := fun (i : Nat) => (rest.getD (4 * i) 0 ++ rest.getD (4 * i + 1) 0 ++ rest.getD (4 * i + 2) 0 ++
          rest.getD (4 * i + 3) 0 : BitVec 256)
        let pk := packetOf (flit 0) []
        let k := dataFlits pk
        if rest.length < 4 + 4 * k then ([], l)
        else
          let f : FabPkt := { dest := bits w 63 53, src := bits w 42 32, e := w.getLsbD 31, hops := bits w 30 26,
                              bulk := bulk, port := p, late := false, pk := { pk with data := (List.range k).map fun i => flit (i + 1) } }
          let r := takePackets p bulk n (rest.drop (4 + 4 * k))
          (f :: r.1, r.2)

/-- The 15 words of a payload. -/
def payloadWords (f : Flit) : List (BitVec 64) := (List.range 15).map fun i => BitVec.ofNat 64 (bits f (991 - 64 * i) (928 - 64 * i))

/-- The payload of an accepted flit joins its class stream (R305). -/
def flitAccept (p : Nat) (f : Flit) : State :=
  let x := s.port p
  match flitType f with
  | 1 => takeSlices p 80 (s.setPort p { x with schedIn := pushBits x.schedIn 960 (bits f 991 32) })
  | 2 =>
    let l := x.svcIn ++ payloadWords f
    let r := takePackets p false l.length l
    s.setPort p { x with svcIn := r.2, arrived := x.arrived ++ r.1 }
  | 3 =>
    let l := x.bulkIn ++ payloadWords f
    let r := takePackets p true l.length l
    s.setPort p { x with bulkIn := r.2, arrived := x.arrived ++ r.1 }
  | _ =>
    let l := x.ctrlIn ++ payloadWords f
    ctrlTrim p l.length (s.setPort p { x with ctrlIn := l })

/-- A flit is received (R306). ok is false when its codeword could not be corrected. -/
def flitReceive (p : Nat) (f : Flit) (ok : Bool) : State :=
  if !ok ∨ bits f 31 0 ≠ (crc32Bits (bitsDown (f.toNat / 2 ^ 32) 992)).toNat then
    (s.count (Reg.lnkReplay p) 15 0 1).flitDrop p
  else
    let s := if f.getLsbD 995 then s.flitAck p (bits f 1007 996) else s
    let x := s.port p
    let t := flitType f
    if t = 0 then s
    else if 4 < t ∨ bits f 1019 1008 ≠ x.expSeq then s.flitDrop p
    else
      (s.setPort p { x with expSeq := (x.expSeq + 1) % 4096, episode := false, ackOut := some x.expSeq }).flitAccept p f

/-- A codeword is received (R304): its flits, with the decoder's outcome counted. How the line carries it is not modelled (log 98). -/
def codeword (p : Nat) (o : CwOutcome) (flits : List Flit) : State :=
  if s.lnkState p = 2 then
    let s := match o with
      | .ok => s
      | .corrected => s.count (Reg.lnkFec p) 31 16 1
      | .uncorrectable => s.count (Reg.lnkFec p) 15 0 1
    (flits.take 5).foldl (fun s f => s.flitReceive p f (o != .uncorrectable)) s
  else s

/-! ### A load (R349, R373) -/

/-- The lane-bytes of a port go with the run, and the credits of those that had come return (R307, R349); the SCHED streams begin
afresh (log 92). -/
def schedDiscard (p : Nat) : State :=
  let x := s.port p
  let back := (List.range 128).filterMap fun j =>
    let n := (tget (fun _ => []) x.rx j).length + b2n ((s.lane (portInLane (portTile p) j)).place 0).isSome
    if n = 0 then none else some (p, j, n)
  let via := x.transit.flatMap fun e => e.2.map fun t => (t.port, t.lane, 1)
  let s := s.setPort p { x with rx := [], transit := [], schedOut := ⟨0, 0⟩, real := 0, schedIn := ⟨0, 0⟩, closed := false,
                                replay := x.replay.map fun f => if flitType f = 1 then setBits f 991 32 0 else f }
  (back ++ via).foldl (fun s e => s.ctrlSend e.1 (creditRecord 0 e.2.1 e.2.2)) s

end State

/-- PORT_SIGNAL_DETECT (R332). -/
def execPortSignalDetect (p : Nat) (s : State) : Out :=
  .next (if s.lnkState p = 0 ∧ s.flag (Reg.lnkCtrl p) 30 ∧ s.domState (70 + p) = 2 then s.setLnk p 1 else s)

/-- PORT_TRAIN_COMPLETE (R303, R332). -/
def execPortTrainComplete (p : Nat) (pass : BitVec 18) (s : State) : Out := .next (s.trained p pass true)

/-- PORT_TRAIN_TIMEOUT (R332): 2 ms have passed. -/
def execPortTrainTimeout (p : Nat) (pass : BitVec 18) (s : State) : Out := .next (s.trained p pass false)

/-- LANE_LOSS_OF_LOCK (R333). -/
def execLaneLossOfLock (p lane : Nat) (s : State) : Out :=
  .next (if s.lnkState p = 2 ∧ lane < 18 ∧ s.flag (Reg.lnkStat p) lane then (s.linkErr p 3 lane 0 0).retrain p else s)

/-- FAR_END_RETRAIN (R333): where the far port has stopped its lanes, since it powers off, the port trains as from DOWN (R334). -/
def execFarEndRetrain (e : FarLeave) (s : State) : Out :=
  .next (if s.lnkState e.port = 2 then (if e.stop then s.leaveUp e.port 1 else s.retrain e.port) else s)

/-- LNK_RETRAIN (R333): a write of LNK_CTRL with RETRAIN = 1. -/
def execLnkRetrain (p : Nat) (v : BitVec 32) (s : State) : Out := 
  .next (s.regWrite .host (Reg.lnkCtrl p) (setBit v 31 true) fun s v => s.lnkCtrlWrite p v)

/-- CODEWORD_RECEIVE (R304). -/
def execCodewordReceive (p : Nat) (outcome : CwOutcome) (flits : List Flit) (s : State) : Out :=
  .next (s.codeword p outcome flits)

/-- FLIT_SEND (R306, R308). -/
def execFlitSend (p : Nat) (s : State) : Out := .next (s.flitSend p)

/-- REPLAY_TIMEOUT (R306): no ACKSEQ has advanced for 10 µs. -/
def execReplayTimeout (p : Nat) (s : State) : Out :=
  .next (if (s.port p).replay.isEmpty ∨ s.lnkState p ≠ 2 then s
    else (s.setPort p { s.port p with resend := 0 }).episodeCount p)

/-- TOKEN (R338). -/
def execToken (p : Nat) (s : State) : Out := .next (s.ctrlTake p 1 1)

/-- HALT (R339, R499). -/
def execHalt (p : Nat) (s : State) : Out := .next (s.ctrlTake p 2 1)

/-- RESUME (R339, R499). -/
def execResume (p : Nat) (s : State) : Out := .next (s.ctrlTake p 3 1)

/-- CREDIT (R307). -/
def execCredit (p : Nat) (s : State) : Out := .next (s.ctrlTake p 4 1)

/-- NAK (R306). -/
def execNak (p : Nat) (s : State) : Out := .next (s.ctrlTake p 5 1)

/-- PROBE (R323). -/
def execProbe (p : Nat) (s : State) : Out := .next (s.ctrlTake p 6 1)

/-- PREPLY (R346). -/
def execPreply (p : Nat) (s : State) : Out := .next (s.ctrlTake p 7 2)

/-- CLAIM (R322). -/
def execClaim (p : Nat) (s : State) : Out := .next (s.ctrlTake p 8 1)

/-- EXPLORE (R321). -/
def execExplore (p : Nat) (s : State) : Out := .next (s.ctrlTake p 9 1)

/-- REPORT (R321). -/
def execReport (p : Nat) (s : State) : Out := .next (s.ctrlTake p 10 2)

/-- UNCLAIM (R324). -/
def execUnclaim (p : Nat) (s : State) : Out := .next (s.ctrlTake p 11 1)

/-- PROBE_TIMEOUT (R321): a probe without a reply reports NOREPLY. -/
def execProbeTimeout (p : Nat) (s : State) : Out :=
  .next (if s.fab.probing = some p then s.probed p 3 0 0 0 else s)

/-- DISCOVERY_START (R320, R324): a write of FAB_CTRL with DGO = 1. -/
def execDiscoveryStart (v : BitVec 32) (s : State) : Out := .next (s.regWrite .host Reg.fabCtrl (setBit v 31 true) State.fabCtrlWrite)

/-- EPOCH_SWITCH (R330): a write of FAB_RT_CTRL with SWITCH = 1. -/
def execEpochSwitch (v : BitVec 32) (s : State) : Out := .next (s.regWrite .host Reg.fabRtCtrl (setBit v 31 true) State.rtCtrlWrite)

/-- FABRIC_PACKET_ROUTE (R329). -/
def execFabricPacketRoute (p idx : Nat) (s : State) : Out := .next (s.fabricRoute p idx)

/-- HOLD_NACK (R335). -/
def execHoldNack (p idx : Nat) (s : State) : Out := .next (s.holdNack p idx)

/-- REMOTE_REQUEST (R325). -/
def execRemoteRequest (p idx : Nat) (s : State) : Out := .next (s.remoteRequest p idx)

/-- REMOTE_REQUEST_ARRIVE (R327). -/
def execRemoteRequestArrive (p : Nat) (s : State) : Out := .next (s.remoteArrive p)

end Sys2Proof.Machine
end

