-- ==== Sys2Proof/Machine/Sequencer.lean ====
section
/-! DEFINITION. The sequencer: local midnight (R27 step 3), the holds (R29, R46), the release (R27 steps 5 and 6), and the
reads and writes of its registers (R36, R40, R45, R47, R48). -/

namespace Sys2Proof.Machine

namespace State

variable (s : State)

/-! ### The holds of R29 -/

/-- Whether a region load named for the current midnight is not settled (R29, R406). -/
def regionHolds : Bool :=
  s.tiles.any fun e => s.rgnState e.1 == 2 && match e.2.job with
    | some j => j.join == s.seq.cycle
    | none => false

/-- Whether a stimulus delivery of this midnight is not done (R465). -/
def stimHolds : Bool :=
  s.tt.stim.any fun e => e.2.any fun x => x.key == s.seq.cycle && !x.done

/-- Whether a token for the current cycle is missing from a midnight neighbour (R29); the stall
watchdog ends the wait (R338). -/
def fabricHolds : Bool := !s.seq.stalled && !(s.seq.neigh.all fun a => s.seq.tok.contains ⟨a, s.seq.cycle.setWidth 32⟩)

/-- Whether the target interface keeps the device from release: its sample instant, with deliveries and recorder, has not
passed (R29, R518, R526). A domain that is off or waking has no cadence and no deliveries (R528). -/
def cadHolds : Bool := !s.tio.instant && (s.domState 80 == 2 || s.domState 80 == 3)

/-- SEQ_HOLD (R46): the holds in force; Tiles from a release until local midnight, every other one between local midnight and
release, also in a run that a fault has stopped (R29). -/
def seqHold : BitVec 32 :=
  if !s.seq.run then 0
  else if s.seq.midnight then
    BitVec.ofNat 32 (b2n s.seq.uePend * 64 + b2n s.regionHolds * 32 + b2n s.haltHolds * 16 + b2n s.cadHolds * 8 +
      b2n (s.barrierOpen none || s.handoverHolds || s.stimHolds) * 4 + b2n s.fabricHolds * 2)
  else 1

/-! ### The watchdogs' time (R503 to R505) -/

/-- Whether the stall watchdog counts: a run stands RUNNING or MIDNIGHT and some hold in force is not one of those that stop
the count (R474, R503). -/
def stallCounts : Bool :=
  s.fld Reg.wdgStall 15 0 != 0 && !s.seq.stalled &&
  (match s.seqState with
    | 1 => !(s.allDone && decide (4 ≤ s.tt.buf.length))
    | 2 => s.seqHold == 0 || s.seqHold &&& 0x13#32 != 0
    | _ => false)

/-- Whether the wave has moved on since the stall watchdog last restarted (R503). -/
def stallMoved : Bool := s.seq.run && s.dbg.stallAt != some (s.seq.cycle, s.minStep)

/-- Microseconds pass for the watchdogs: the heartbeat counts while it is enabled and not frozen, the stall watchdog while R503 lets
it, and anew where the wave has moved on (R505, R511; log 27). -/
def watchTick (n : Nat) : State :=
  let s := if s.flag Reg.wdgCtrl 0 && !s.flag Reg.wdgStat 30 then
      s.setFld Reg.wdgStat 27 0 (s.fld Reg.wdgStat 27 0 - n) else s
  if s.stallMoved then s.stallRestart
  else if s.stallCounts then s.setReg Reg.wdgStrem (BitVec.ofNat 32 ((s.reg Reg.wdgStrem).toNat - n))
  else s

/-! ### Local midnight -/

/-- Whether every participating tile has reported: its clusters have completed step L - 1, and its probe buffer takes the
cycle's samples (R27 step 3, R452). -/
def tilesDone : Bool := s.allDone && decide (s.tt.buf.length < 4)

/-- The channels that read 1 in the cycle: those of every tile (R450, R453). -/
def cycleChans : Tab Bool :=
  s.tiles.foldl (fun m e => e.2.probe.foldl (fun m c => tput (fun _ => false) c.1 true m) m) []

/-- The converters' values of the last sample instant, as registers hold them, for the pins that have one. -/
def tdcValues : Tab Nat :=
  (List.range 640).filterMap fun p =>
    let v := s.reg (Reg.tioTdc p)
    if v = 0 then none else some (p, v.toNat)

/-- The samples of the cycle go to the trace engine, while it is on, and to the target interface (R452, R454, R517). -/
def passSamples : State :=
  let ch := s.cycleChans
  let s := { s with tiles := tmap (fun _ => Tile.empty) (fun x => { x with probe := [] }) s.tiles,
                    tio := { s.tio with chans := ch } }
  if s.domState 78 = 2 ∨ s.domState 78 = 3 then
    { s with tt := { s.tt with buf := s.tt.buf ++
      [{ cyc := s.seq.cycle, chans := ch, pins := s.tio.samp, last := s.tio.before, tdc := s.tdcValues }] } }
  else s

/-- A tick that waits pairs with this midnight (R519). -/
def pairTick : State :=
  if s.flag Reg.tioCadStat 30 then
    { (s.setFlag Reg.tioCadStat 30 false) with tio := { s.tio with paired := true } }
  else s

/-- Local midnight: the holds begin and a token for the cycle goes to each midnight neighbour (R27 step 3, R30). -/
def localMidnight : State :=
  if s.seq.run && !s.seq.midnight && !s.seq.faulted && !s.seq.stalled && s.tilesDone then
    let s := { s with seq := { s.seq with midnight := true, settled := false }, tio := { s.tio with instant := false, paired := false } }
    let s := (s.passSamples).pairTick
    let toks : List Tok := s.seq.neigh.map fun a => { src := a, cyc := s.seq.cycle.setWidth 32 }
    { s with seq := { s.seq with tokOut := s.seq.tokOut ++ toks } }.tokensOut
  else s

/-! ### Release -/

/-- The welt records of an ACTIVE region's cycle give way to those of the next (R412). -/
def weltsNext : State :=
  { s with tiles := (s.tiles.map fun e =>
      (e.1, if s.tileActive e.1 then { e.2 with welts := tmap (fun _ => Welt.empty) (fun _ => Welt.empty) e.2.welts }
            else e.2)).filter fun e => decide (e.2 ≠ Tile.empty) }

/-- Every participating cluster may begin step 0 (R27 step 6). -/
def clustersNext : State :=
  { s with clus := tmap (fun _ => Cluster.empty) (fun x => { x with done := false }) s.clus }

/-- The tasks keyed on a cycle that become due at the release that makes the count equal to their key (R430) enter READY
in ascending descriptor order. -/
def tasksDueAt (cyc : BitVec 48) : List Nat :=
  s.usedTasks.filter fun d => s.dState d == 1 && s.dWhen d == 1 && !s.dBar d && s.dKey d == cyc

/-- The eight steps of a midnight phase count for every participating tile (R36). -/
def phaseSteps : State :=
  (List.range 64).foldl (fun s t => if s.tileActive t then s.addSteps t 8 else s) s

/-- Steps that the slowest participating tile has completed in the present window (R36); 0 where no tile takes part. -/
def slowest : Nat :=
  match ((List.range 64).filter s.tileActive).map s.stepsOf with
  | [] => 0
  | n :: l => l.foldl min n

/-- The window of 1,024 µs ends: SEQ_RATE takes the rate of the slowest tile in steps per µs, rounded down and at most 65,535
(log 75), and the next window begins (R36, R47). whole: the window lay whole within the time since the device reset; before the
first such window the register keeps its 0. -/
def rateWindow (whole : Bool) : State :=
  let s' := if whole then s.setReg Reg.seqRate (BitVec.ofNat 32 (min 65535 (s.slowest / 1024))) else s
  { s' with steps := [] }

/-- The release of the next cycle (R27 steps 5 and 6). waitNs is the time since local midnight less the eight-step phase;
due makes tasks due. -/
def midnightRelease (waitNs : Nat) (due : State → List Nat → State) : State :=
  if s.seq.midnight && !s.seq.faulted && !s.seq.stalled && s.seqHold == 0 then
    let n := s.seq.cycle
    let s := s.setReg Reg.seqWait (BitVec.ofNat 32 (max (s.reg Reg.seqWait).toNat (min waitNs (2 ^ 32 - 1))))
    let s := { s with seq := { s.seq with cycle := n + 1, midnight := false,
                                          tok := s.seq.tok.filter fun t => t.cyc != n.setWidth 32 } }
    let s := s.weltsNext.clustersNext.phaseSteps
    due s (s.tasksDueAt (n + 1))
  else s

/-- The bits of SEQ_FAULT are cleared; UE ends its hold, and FTV goes with the last bit (R40, R48). -/
def seqFaultWrite (v : BitVec 32) : State :=
  let s := s.setReg Reg.seqFault (s.reg Reg.seqFault &&& ~~~(v &&& 0x3F#32))
  let s := if s.fld Reg.seqFault 5 0 = 0 then s.setReg Reg.seqFault 0 else s
  if v.getLsbD 5 then { s with seq := { s.seq with uePend := false } } else s

/-- SEQ_CYCLE_LO is read (R45). -/
def cycleLoRead (peek : Bool) : State :=
  let s := if peek then s else s.setReg Reg.seqCycleHi (BitVec.ofNat 32 (s.seq.cycle.toNat / 2 ^ 32))
  s.answer (s.seq.cycle.setWidth 32)

end State

/-- LOCAL_MIDNIGHT (R27 step 3). -/
def execLocalMidnight (s : State) : Out := .next s.localMidnight

/-- SEQ_FAULT_WRITE (R48). -/
def execSeqFaultWrite (v : BitVec 32) (s : State) : Out := .next (s.regWrite .host Reg.seqFault v State.seqFaultWrite)

/-- SEQ_RATE_WINDOW (R36, R47). -/
def execSeqRateWindow (whole : Bool) (s : State) : Out := .next (s.rateWindow whole)

/-- SEQ_CYCLE_LO_READ (R45). -/
def execSeqCycleLoRead (peek : Bool) (s : State) : Out :=
  .next (s.regAccess .host Reg.seqCycleLo false peek 0 fun s => s.cycleLoRead peek)

end Sys2Proof.Machine
end

