-- ==== Sys2Proof/Machine/Submit.lean ====
section
/-! DEFINITION. The service scheduler up to its engines: submission (R428 to R430, R437), the delay lists and priority queues
(R431, R432), the prefetch slots (R433), and the end of a task (R435, R437). -/

namespace Sys2Proof.Machine

namespace State

variable (s : State)

/-- Rank of a task: the barrier queue above the eight levels (R432). -/
def dRank (d : Nat) : Nat := if s.dBar d then 8 else s.dPrio d

def ssQueue (l : Nat) : List Nat := tget (fun _ => []) s.ss.queues l

def setSsQueue (l : Nat) (q : List Nat) : State :=
  { s with ss := { s.ss with queues := tput (fun _ => []) l q s.ss.queues } }

def setDState (d st : Nat) : State := s.setFld (Reg.ssDstat d) 31 29 st

/-- A command of the SS is refused; the first is recorded (R445). -/
def ssRefuse (op d : Nat) : State :=
  if s.flag Reg.ssErr 31 then s
  else (s.setReg Reg.ssErr (BitVec.ofNat 32 (2 ^ 31 + op * 2 ^ 28 + d % 1024))).irqIf (s.flag Reg.ssCtrl 1) 5

/-- A task of the PM's checkpoint set ends: the set is incomplete with any code but 00h, and complete when every task has
ended DONE; MODE_CKLAST then takes its cycle and base (R542, R543). -/
def ckTaskEnd (d code : Nat) : State :=
  match s.pm.ck with
  | none => s
  | some c =>
    if c.left.contains d then
      let s := if code = 0 then s else s.setFlag Reg.modeStat 25 true
      let left := c.left.erase d
      let ok := c.ok && code == 0
      if left.isEmpty then
        let s := { s with pm := { s.pm with ck := none } }
        if ok then
          (s.setReg Reg.modeCklastLo (c.cyc.setWidth 32)).setReg Reg.modeCklastHi
            (BitVec.ofNat 32 (2 ^ 31 + b2n c.sel * 2 ^ 30 + c.cyc.toNat / 2 ^ 32))
        else s
      else { s with pm := { s.pm with ck := some { c with left := left, ok := ok } } }
    else s

/-- A task ends with a code of R435; a barrier task that fails sets the bits of R437. -/
def taskEnd (d code : Nat) : State :=
  let s := s.ckTaskEnd d code
  let s := (s.setDState d (if code = 0 then 4 else 5)).setFld (Reg.ssDstat d) 7 0 code
  let s := if code = 0 then s.count Reg.ssCnt 31 16 1 else (s.count Reg.ssCnt 15 0 1).irqIf (s.flag Reg.ssCtrl 2) 5
  if code ≠ 0 ∧ s.dBar d = true then
    let s := s.setFlag Reg.ssStat 31 true
    if s.dType d = 6 ∧ code = 0x14 then s else s.loss 5
  else s

/-- Whether a key is past or equal to a current value (R430). -/
def keyDue (key now : BitVec 48) : Bool := key == now || decide (2 ^ 47 ≤ (key - now).toNat)

/-! ### The check of a descriptor (R424, R425, R429) -/

/-- Parameter words that a task type names (R424). -/
def namedWords : Nat → List Nat
  | 0 => [4, 5, 6, 7, 8]
  | 1 => [4, 5, 6, 7, 8]
  | 2 => [4, 6, 7, 8, 9]
  | 3 => [4, 10, 11]
  | 4 => [4, 5, 6, 7, 8]
  | 5 => [4, 5, 6, 7, 8]
  | 6 => [4, 5, 6, 8, 9]
  | _ => [4]

/-- A 64-bit number in two descriptor words, the low one first. -/
def dpair (d w : Nat) : Nat := (s.dword d w).toNat + 2 ^ 32 * (s.dword d (w + 1)).toNat

/-- A NoC address of the scratchpad or HBM space at a multiple of 32, with nothing above bit 47. -/
def dataAddrOk (a : Nat) : Bool := decide (a < 2 ^ 48 ∧ a % 32 = 0) && (a / 2 ^ 46 == 1 || a / 2 ^ 46 == 2)

/-- Whether a state address lies within R425. -/
def stateAddrOk (w : BitVec 32) : Bool :=
  bits w 1 0 == 0 && match bits w 19 18 with
    | 0 => bits w 7 2 == 0
    | 1 => bits w 17 14 == 0 && bits w 11 6 == 0
    | 2 => bits w 17 14 == 0 && bits w 11 2 == 0
    | _ => false

/-- Whether the parameters of a task lie within R424. -/
def paramsOk (d : Nat) : Bool :=
  match s.dType d with
  | 0 => dataAddrOk (s.dpair d 4) && dataAddrOk (s.dpair d 6) && bits (s.dword d 8) 4 0 == 0
  | 1 => dataAddrOk (s.dpair d 4) && bits (s.dword d 8) 4 0 == 0
  | 2 => stateAddrOk (s.dword d 4)
  | 3 => stateAddrOk (s.dword d 4) && dataAddrOk (s.dpair d 10)
  | 4 | 5 => decide (s.dpair d 4 < 2 ^ 46 ∧ s.dpair d 4 % 4096 = 0) && decide ((s.dword d 8).toNat ≤ 1)
  | 6 => bits (s.dword d 4) 25 2 == 0 && bits (s.dword d 9) 31 16 == 0 &&
      (bits (s.dword d 4) 1 0 != 1 || decide (s.dpair d 5 < 2 ^ 46))
  | 7 => bits (s.dword d 4) 31 17 == 0
  | 8 => bits (s.dword d 4) 31 8 == 0 && decide (128 ≤ bits (s.dword d 4) 7 0)
  | _ => false

/-- Whether BAR is what R424 allows for the type. -/
def barOk (d : Nat) : Bool :=
  match s.dType d with
  | 4 | 6 => s.dBar d
  | _ => true

/-- Whether a descriptor passes the check of R429. -/
def descOk (d : Nat) : Bool :=
  decide (s.dType d ≤ 8) && decide (s.dWhen d ≤ 2) && (!s.dBar d || s.dWhen d == 1) && s.barOk d &&
  bits (s.dword d 1) 19 0 == 0 && bits (s.dword d 3) 31 16 == 0 &&
  ((List.range 16).all fun w => decide (w < 4) || (namedWords (s.dType d)).contains w || s.dword d w == 0) && s.paramsOk d

/-! ### Queues and slots -/

/-- Whether an engine may take a task (R433). -/
def mayTake (e d : Nat) : Bool :=
  (s.dMask d == 0 || (s.dMask d).getLsbD e) &&
  (s.dBar d || (decide (s.fld Reg.ssCtrl 11 8 ≤ e) && !s.flag Reg.ssCtrl 16))

/-- The first task that an engine may take in the highest queue, of those below rank n, that holds one. -/
def bestTask (e : Nat) : Nat → Option (Nat × Nat)
  | 0 => none
  | n + 1 => match (s.ssQueue n).find? (s.mayTake e) with
    | some d => some (n, d)
    | none => bestTask e n

/-- Whether an engine's prefetch slot holds a task, and which (R446). -/
def slotTask (e : Nat) : Option Nat :=
  if s.flag (Reg.ssEng e) 29 then some (s.fld (Reg.ssEng e) 9 0) else none

/-- A prefetch slot takes a task, or is empty. -/
def setSlot (e : Nat) (d : Option Nat) : State :=
  match d with
  | some d => (s.setFlag (Reg.ssEng e) 29 true).setFld (Reg.ssEng e) 9 0 d
  | none => (s.setFlag (Reg.ssEng e) 29 false).setFld (Reg.ssEng e) 9 0 0

/-- A slot is filled, or its task gives way to one that ranks higher and returns to the head of its queue (R433). -/
def fillSlot (e : Nat) : State :=
  match s.bestTask e 9 with
  | none => s
  | some (l, d) =>
    let take := fun (s : State) => (s.setSsQueue l ((s.ssQueue l).erase d)).setSlot e (some d)
    match s.slotTask e with
    | none => take s
    | some o =>
      if s.dRank o < l then
        let s := take s
        s.setSsQueue (s.dRank o) (o :: s.ssQueue (s.dRank o))
      else s

/-- Every slot, in ascending order, and once more for tasks displaced from a later one. -/
def fillSlots : State := (List.range 32).foldl (fun s e => s.fillSlot (e % 16)) s

/-- A task becomes due and enters its queue (R432). -/
def enqueue (d : Nat) : State := (s.setDState d 2).setSsQueue (s.dRank d) (s.ssQueue (s.dRank d) ++ [d])

/-- Tasks become due together, in the order given (R431, R432). -/
def makeDue (l : List Nat) : State := (l.foldl (fun s d => s.enqueue d) s).fillSlots

/-- A task leaves the queues and slots. -/
def unqueue (d : Nat) : State :=
  let s := s.setSsQueue (s.dRank d) ((s.ssQueue (s.dRank d)).erase d)
  (List.range 16).foldl (fun s e => if s.slotTask e = some d then s.setSlot e none else s) s

/-! ### Submission (R428 to R430, R437, R441) -/

/-- A task is submitted; op is the code of R445 for a refusal. -/
def submit (d op : Nat) : State :=
  if s.dLive d then s.ssRefuse op d
  else if !s.descOk d then s.taskEnd d 0x10
  else if s.dBar d then
    if s.dKey d != s.seq.cycle && keyDue (s.dKey d) s.seq.cycle then s.taskEnd d 0x11
    else if s.dKey d == s.seq.cycle && s.seq.midnight && s.seq.settled then s.makeDue [d]
    else s.setDState d 1
  else if s.dType d = 5 ∧ (s.fld Reg.dwnStat 31 28 ≠ 6 ∨ s.dWhen d ≠ 0) then s.taskEnd d 0x12
  else if s.dWhen d = 0 ∨ (s.dWhen d = 1 ∧ keyDue (s.dKey d) s.seq.cycle = true) ∨
      (s.dWhen d = 2 ∧ keyDue (s.dKey d) s.tick = true) then s.makeDue [d]
  else s.setDState d 1

/-- A task ends, and one that ends DONE submits the descriptor LINK when LV = 1 (R423, R428). -/
def taskDone (d code : Nat) : State :=
  let s := s.taskEnd d code
  if code = 0 ∧ (s.dword d 1).getLsbD 31 = true then s.submit (bits (s.dword d 1) 30 21) 4 else s

/-- The RW field of one of the three command registers takes the value (R445). -/
def ssCommand (k : Nat) (v : BitVec 32) : State := s.setReg k (v &&& 0x3FF#32)

/-- SS_SUBMIT is written (R428). -/
def submitWrite (v : BitVec 32) : State :=
  let s := s.ssCommand Reg.ssSubmit v
  if v.getLsbD 31 then s.submit (bits v 9 0) 1 else s

/-- SS_CANCEL is written (R431). -/
def cancelWrite (v : BitVec 32) : State :=
  let s := s.ssCommand Reg.ssCancel v
  let d := bits v 9 0
  if v.getLsbD 31 then
    if s.dState d = 1 ∨ s.dState d = 2 then (s.unqueue d).taskEnd d 0x15 |>.fillSlots else s.ssRefuse 2 d
  else s

/-- WAITACK of a HOST_NOTIFY (R423). -/
def waitsAck (d : Nat) : Bool := s.dType d == 8 && (s.dword d 1).getLsbD 20

/-- SS_ACK is written (R434, R440): an acknowledgement that comes before the EVT has left is held. -/
def ackWrite (v : BitVec 32) : State :=
  let s := s.ssCommand Reg.ssAck v
  let d := bits v 9 0
  if v.getLsbD 31 then
    if s.dState d = 3 ∧ s.waitsAck d = true then
      if s.inEngine d then { s with ss := { s.ss with acks := d :: s.ss.acks } } else s.taskDone d 0
    else s.ssRefuse 3 d
  else s

/-! ### Ticks (R430) -/

/-- A list with d put before the first entry that f ranks above it. -/
def insertBy (f : Nat → Nat) (d : Nat) : List Nat → List Nat
  | [] => [d]
  | e :: t => if f d < f e then d :: e :: t else e :: insertBy f d t

/-- Microseconds pass: the watchdogs count, the tick advances while the SS domain is on, and the tasks whose key it reaches become due, by key
and then by descriptor (R430, R431). -/
def tickBy (n : Nat) : State :=
  let s := { s with us := s.us + BitVec.ofNat 48 n }.watchTick n
  if s.domState 79 = 2 ∨ s.domState 79 = 3 then
    let old := s.tick
    let s := { s with tick := old + BitVec.ofNat 48 n }
    let due := s.usedTasks.filter fun d => s.dState d == 1 && s.dWhen d == 2 && keyDue (s.dKey d) s.tick
    s.makeDue (due.foldl (fun l d => insertBy (fun d => (s.dKey d - old).toNat) d l) [])
  else s

/-! ### The barrier set (R436) and the engines (R433) -/

/-- Whether a master interface of the device has a request in flight (R131). -/
def inFlight : Bool :=
  s.masters.any fun e =>
    match nodeKind (e.1 / 1024) with
    | .tile _ => e.2.waiting
    | _ => e.2.slots.any fun k => k.2.req.isSome

/-- At a midnight, once its region images have swapped, no request is in flight and its stimulus deliveries are done (R465),
the barrier tasks of the cycle become due together (R436 steps 2 to 4). -/
def barrierDue : State :=
  if s.seq.midnight && !s.seq.settled && !s.regionHolds && !s.inFlight && !s.stimHolds then
    let l := s.usedTasks.filter fun d => s.dState d == 1 && s.dBar d && s.dKey d == s.seq.cycle
    { s with seq := { s.seq with settled := true } }.makeDue l
  else s

/-- A free engine starts the task in its slot (R433). -/
def taskStart (e : Nat) : State :=
  let s := s.barrierDue.fillSlots
  if s.engBusy e then s
  else
    match s.slotTask e with
    | none => s
    | some d =>
      let s := ((s.setSlot e none).setFlag (Reg.ssEng e) 31 true).setFld (Reg.ssEng e) 25 16 d
      let s := (s.setDState d 3).setFld (Reg.ssDstat d) 23 20 e
      { s with ss := { s.ss with result := tput (fun _ => none) e none s.ss.result } }.fillSlots

/-- The code that the task in an engine is to end with, once its work is done. -/
def engResult (e : Nat) : Option Nat := tget (fun _ => none) s.ss.result e

/-- The task in an engine has done its work. -/
def setResult (e code : Nat) : State :=
  { s with ss := { s.ss with result := tput (fun _ => none) e (some code) s.ss.result } }

/-- An engine is free. -/
def engFree (e : Nat) : State :=
  let s := (s.setFlag (Reg.ssEng e) 31 false).setFld (Reg.ssEng e) 25 16 0
  { s with ss := { s.ss with result := tput (fun _ => none) e none s.ss.result } }

/-- Every task in WAIT, READY or RUN ends ABORTED (R447). -/
def abortTasks : State :=
  let l := s.usedTasks.filter s.dLive
  let s := (List.range 16).foldl (fun s e => (s.setSlot e none).engFree e) { s with ss := Ss.empty }
  l.foldl (fun s d => s.taskEnd d 0x16) s

end State

/-- TASK_SUBMIT (R428). -/
def execTaskSubmit (who : Who) (v : BitVec 32) (s : State) : Out :=
  .next (s.regWrite who Reg.ssSubmit (setBit v 31 true) State.submitWrite)

/-- TASK_CANCEL (R431). -/
def execTaskCancel (v : BitVec 32) (s : State) : Out :=
  .next (s.regWrite .host Reg.ssCancel (setBit v 31 true) State.cancelWrite)

/-- TASK_ACK (R434). -/
def execTaskAck (v : BitVec 32) (s : State) : Out :=
  .next (s.regWrite .host Reg.ssAck (setBit v 31 true) State.ackWrite)

/-- TASK_DUE_TICK (R430): us microseconds pass. -/
def execTaskDueTick (us : Nat) (s : State) : Out := .next (s.tickBy us)

/-- TASK_START (R433). -/
def execTaskStart (e : Nat) (s : State) : Out := .next (if e < 16 then s.taskStart e else s)

end Sys2Proof.Machine
end

