-- ==== Sys2Proof/Machine/Checkpoints.lean ====
section
/-! DEFINITION. The checkpoint sets that the PM takes while FIDELITY is in force (R542, R543). -/

namespace Sys2Proof.Machine

namespace State

variable (s : State)

/-- Whether the PM takes sets: FIDELITY is in force and the device has no midnight neighbours (R542). -/
def ckOn : Bool := s.flag Reg.modeStat 29 && s.fld Reg.seqNbr 11 0 == 0

/-- The base that does not hold the last complete set: whether it is MODE_CKB1 (R542 step 2). -/
def ckSel : Bool := s.flag Reg.modeCklastHi 31 && !s.flag Reg.modeCklastHi 30

/-- Base address of a set. -/
def ckBase (sel : Bool) : Nat :=
  if sel then s.pair Reg.modeCkb1Lo Reg.modeCkb1Hi else s.pair Reg.modeCkb0Lo Reg.modeCkb0Hi

/-- The mask of task m: last ty 2m and 2m + 1, limited to tiles that are ACTIVE (R542 step 1). -/
def ckMask (m : Nat) : Nat :=
  (List.range 16).foldl (fun v i =>
    let k := 16 * m + i
    match s.physTile (k % 8) (k / 8) with
    | some t => if s.tileActive t then v + 2 ^ k else v
    | none => v) 0

/-- Word w of the descriptor of a CHECKPOINT task of the PM (R424, R542). -/
def ckWord (cyc : BitVec 48) (base mask w : Nat) : BitVec 32 :=
  match w with
  | 0 => BitVec.ofNat 32 (4 * 2 ^ 28 + 2 ^ 24 + 2 ^ 22)
  | 2 => cyc.setWidth 32
  | 3 => BitVec.ofNat 32 (cyc.toNat / 2 ^ 32)
  | 4 => BitVec.ofNat 32 base
  | 5 => BitVec.ofNat 32 (base / 2 ^ 32)
  | 6 => BitVec.ofNat 32 mask
  | 7 => BitVec.ofNat 32 (mask / 2 ^ 32)
  | 8 => 1
  | _ => 0

/-- A set is incomplete (R542). -/
def ckError : State := s.setFlag Reg.modeStat 25 true

/-- The PM submits the tasks of the set of a cycle; a descriptor that is not free for it makes the set incomplete. -/
def ckSubmit (cyc : BitVec 48) : State :=
  let sel := s.ckSel
  let want := (List.range 4).filter fun m => s.ckMask m ≠ 0
  let tasks := want.filter fun m => !s.dLive (1020 + m)
  if want.isEmpty then s
  else
    let all := decide (want.length = tasks.length)
    let ck : CkSet := { cyc := cyc, sel := sel, left := tasks.map fun m => 1020 + m, ok := all }
    let base := s.ckBase sel
    let masks := tasks.map fun m => (m, s.ckMask m)
    let s := if all then s else s.ckError
    let s := { s with pm := { s.pm with ck := if tasks.isEmpty then none else some ck } }
    let s := masks.foldl (fun s p => (List.range 16).foldl (fun s w =>
      s.setReg (Reg.ssDesc (1020 + p.1) w) (ckWord cyc (base + 0x05000000 * p.1) p.2 w)) s) s
    masks.foldl (fun s p => s.submit (1020 + p.1) 1) s

/-- A cycle c with c mod 256 = 255 has begun: the PM submits its set, or holds it until the service domain is on. -/
def ckDue : State :=
  if s.ckOn && decide (s.seq.cycle.toNat % 256 = 255) then
    match s.domState 79 with
    | 2 => s.ckSubmit s.seq.cycle
    | 3 => (s.cancelDown 79).ckSubmit s.seq.cycle
    | _ => { s with pm := { s.pm with owed := some s.seq.cycle } }
  else s

/-- The service domain is on: a set that waits is submitted. -/
def ckOwed : State :=
  match s.pm.owed with
  | some c => { s with pm := { s.pm with owed := none } }.ckSubmit c
  | none => s

end State

/-- MIDNIGHT_RELEASE (R27 steps 5 and 6). -/
def execMidnightRelease (waitNs : Nat) (s : State) : Out :=
  .next (s.midnightRelease waitNs fun s l => (s.makeDue l).ckDue)

end Sys2Proof.Machine
end

