-- ==== Sys2Proof/Machine/Regions.lean ====
section
/-! DEFINITION. Regions and welts (R405 to R417, R422): a region task at the loader, the leave, the drain, the join, and what
the welts of a region that is out emit and discard. -/

namespace Sys2Proof.Machine

namespace State

variable (s : State)

/-- A fault record of class 09h (R586). -/
def rgnRecord (t code leave join : Nat) : State :=
  s.record 2 9 code ceNode (s.fld (Reg.tilePlace t) 29 27 * 2 ^ 13 + s.fld (Reg.tilePlace t) 26 24 * 2 ^ 10)
    (leave % 2 ^ 32) (join % 2 ^ 32)

/-- RGN_STAT takes a failure's code (R421). -/
def rgnFail (t code : Nat) : State :=
  (s.setFlag (Reg.rgnStat t) 27 true).setFld (Reg.rgnStat t) 7 0 code

/-- A region enters PARKED (R421). -/
def rgnPark (t : Nat) : State := (s.setFld (Reg.rgnStat t) 31 30 3).count (Reg.rgnCnt t) 15 0 1

/-- A region load fails (R407): the region parks, its task ends. -/
def rgnLoadFail (t code : Nat) : State :=
  match (s.tile t).job with
  | none => s
  | some j =>
    let s := s.rgnRecord t code (s.tile t).leave.toNat j.join.toNat
    let s := s.setTile t { s.tile t with job := none, stash := none }
    let s := ((s.rgnFail t code).setFlag (Reg.rgnStat t) 28 false).rgnPark t
    s.taskDone j.desc 0x14

/-- The loader refuses a region task (R408). -/
def rgnRefuse (t d code leave join : Nat) : State :=
  ((s.rgnRecord t code leave join).rgnFail t code).taskDone d 0x14

/-- A region leaves the running image at the midnight of the current cycle (R406 step 2, R412). -/
def rgnLeave (t : Nat) : State :=
  let x := s.tile t
  let s := s.setTile t { x with leave := s.seq.cycle,
                                welts := tmap (fun _ => Welt.empty) (fun w => { w with emitted := 0, disc := 0 }) x.welts }
  (s.setFlag (Reg.rgnStat t) 29 true).setReg (Reg.rgnLeave t) (s.seq.cycle.setWidth 32)

/-- One more than the highest place in the order of the region loads. -/
def nextOrder : Nat :=
  s.tiles.foldl (fun n e => match e.2.job with
    | some j => max n (j.order + 1)
    | none => n) 0

/-- The loader takes a REGION_LOAD task (R406 steps 1 and 2, R408): t is its tile, join its join midnight. -/
def rgnAccept (t d src base : Nat) (join : BitVec 48) : State :=
  let a := s.dKey d
  let refuse := fun code => s.rgnRefuse t d code a.toNat join.toNat
  if !s.seq.midnight || a != s.seq.cycle then refuse 0x80
  else if src ≠ 0 ∧ cycBefore join a = true then refuse 0x81
  else if s.rgnState t = 2 then refuse 0x82
  else
    let s := if s.rgnState t = 1 then s.rgnLeave t else s
    if src = 0 then
      let s := if s.rgnState t = 1 then s.rgnPark t else s
      s.taskDone d 0x14
    else
      let s := s.setFld (Reg.rgnStat t) 31 30 2
      let s := s.setReg (Reg.rgnJoin t) (join.setWidth 32)
      let j : RegionJob := { join := join, src := src, base := base, desc := d,
                             drained := !s.flag (Reg.rgnStat t) 29, order := s.nextOrder }
      s.setTile t { s.tile t with job := some j }

/-- Whether a WU of a tile has a request issued and not answered (R131). -/
def tileInFlight (t : Nat) : Bool := s.masters.any fun e => e.1 / 1024 == tileNode t && e.2.waiting

/-- The wait of R131 for a region's WUs is over: their queues empty and the responses are discarded. -/
def rgnDrained (t : Nat) : State :=
  if s.flag (Reg.rgnStat t) 29 && !s.tileInFlight t then
    let s := (List.range 72).foldl (fun s c =>
      let x := s.clu t c
      s.setClu t c ((List.range 5).foldl (fun x w => x.setWu w { x.wu w with q0 := [], q1 := [] }) x)) s
    let l := s.masters.map fun e =>
      (e.1, if e.1 / 1024 = tileNode t then e.2.emptied else e.2)
    let s := { s with masters := l.filter fun e => decide (e.2 ≠ Master.empty) }
    let s := s.setFlag (Reg.rgnStat t) 29 false
    match (s.tile t).job with
    | some j => s.setTile t { s.tile t with job := some { j with drained := true } }
    | none => s
  else s

/-! ### The welts of a region that is out (R413) -/

/-- MODE of a welt lane: 0 HOLD_LAST, 1 HOLD_CONST, others PARK (R422). -/
def weltMode (t i : Nat) : Nat := s.fld (Reg.wltLane t i) 31 30

/-- Cycles that have been released since a region left. -/
def cyclesOut (t : Nat) : Nat := (s.seq.cycle - (s.tile t).leave).toNat

/-- An outbound welt emits its next lane-byte: that of entry k in cycle m. -/
def weltEmit (t i : Nat) : State :=
  let w := s.welt t i
  let n := w.rcd.length
  let l := weltLane t i
  if s.tileOut t && decide (s.weltMode t i < 2 ∧ w.emitted / n < s.cyclesOut t ∧ 0 < n) && ((s.lane l).place 0).isNone then
    let r := w.rcd.getD (w.emitted % n) 0
    let m := (s.tile t).leave.toNat + 1 + w.emitted / n
    let d : BitVec 8 := if s.weltMode t i = 1 then BitVec.ofNat 8 (s.fld (Reg.wltLane t i) 29 22) else r.extractLsb' 0 8
    let s := s.setWelt t i { w with emitted := w.emitted + 1 }
    s.setLane l ((s.lane l).setPlace 0 (some { b := mkLaneByte (8 * (m % 2) + bits r 10 8) d, eye := 0, waited := false }))
  else s

/-- Cycles for which an inbound welt may discard: those up to the join midnight, or without end. -/
def weltUntil (t : Nat) : Option Nat := (s.tile t).job.map fun j => (j.join - (s.tile t).leave).toNat

/-- An inbound welt accepts and discards the lane-byte that waits for it. -/
def weltDiscard (t i : Nat) : State :=
  let w := s.welt t i
  let l := gatewayLane t (12 + i / 36) (i % 36)
  let last := s.chainLen l - 1
  let open_ := match s.weltUntil t with
    | some c => decide (w.disc / w.inb < c)
    | none => true
  if s.tileOut t && decide (s.weltMode t i < 2 ∧ 0 < w.inb) && ((s.lane l).place last).isSome && open_ then
    let s := s.setLane l ((s.lane l).setPlace last none)
    (s.setWelt t i { w with disc := w.disc + 1 }).count (Reg.wltStat t) 15 0 1
  else s

/-- Whether every inbound welt of a region is complete for its join midnight (R413). -/
def weltsComplete (t : Nat) (join : BitVec 48) : Bool :=
  (s.tile t).welts.all fun e => decide (e.2.inb * (join - (s.tile t).leave).toNat ≤ e.2.disc)

/-- WLT_RACC_CTRL is written (R422): the record read completes at once. -/
def weltRead (t : Nat) (v : BitVec 32) : State :=
  let s := s.setReg (Reg.wltRaccCtrl t) (v &&& 0x7F8003FF#32)
  if v.getLsbD 31 then
    match (s.welt t (bits v 30 23)).rcd[bits v 9 0]? with
    | some r => s.setReg (Reg.wltRdata t) (BitVec.ofNat 32 (2 ^ 30 + r.toNat))
    | none => s.setReg (Reg.wltRdata t) 0
  else s

/-! ### The join (R406 step 4, R232) -/

/-- The banks of a joining region, and its probe table, take what its image gives (R232, R481). -/
def applyStash (t : Nat) (b : BankStash) : State :=
  let base := spAddr t 0 0
  let kept := fun (a : Nat) => b.keep.getLsbD (a / 2 ^ 18)
  let old := tdrop (fun a => decide (base ≤ a ∧ a < base + 2 ^ 22) && !kept (a - base)) s.spad
  let prb := fun (k : Nat) => decide (Reg.ttPrbLo t 0 ≤ k ∧ k ≤ Reg.ttPrbHi t 4095)
  let s := { s with spad := b.cells.foldl (fun m c => if kept c.1 then m else Memory.put m (base + c.1) c.2) old,
                    regs := tdrop prb s.regs }
  b.regs.foldl (fun s e => match e.2 with
    | none => s
    | some v =>
      if Reg.bnkOwner t 0 ≤ e.1 ∧ e.1 < Reg.bnkOwner t 16 ∧ e.1 % 0x40 = 0 then (s.setFld e.1 2 0 (bits v 2 0)).setFld e.1 7 4 (bits v 7 4)
      else s.setReg e.1 v) s

/-- The clusters of a joining region stand at step 0 of the next cycle. -/
def joinClusters (t : Nat) : State :=
  (List.range 72).foldl (fun s c =>
    if s.flag (Reg.cluId t c) 13 then
      s.setClu t c { s.clu t c with done := true, step := 0, turned := false, faulted := false, inq := [] }
    else s) s

/-- A region is swapped in at its join midnight. -/
def rgnSwap (t : Nat) : State :=
  match (s.tile t).job with
  | none => s
  | some j =>
    if s.rgnState t == 2 && s.seq.midnight && j.join == s.seq.cycle && s.flag (Reg.rgnStat t) 28 &&
        s.weltsComplete t j.join then
      let s := match (s.tile t).stash with
        | some b => s.applyStash t b
        | none => s
      let s := s.setTile t { s.tile t with job := none, stash := none }
      let s := ((s.setFld (Reg.rgnStat t) 31 30 1).setFlag (Reg.rgnStat t) 28 false).count (Reg.rgnCnt t) 31 16 1
      (s.joinClusters t).taskDone j.desc 0
    else s

end State

/-- REGION_DRAIN_DONE (R131, R406 step 2). -/
def execRegionDrainDone (t : Nat) (s : State) : Out := .next (s.rgnDrained t)

/-- REGION_SWAP (R406 step 4). -/
def execRegionSwap (t : Nat) (s : State) : Out := .next (s.rgnSwap t)

/-- WELT_EMIT (R413). -/
def execWeltEmit (t lane : Nat) (s : State) : Out := .next (s.weltEmit t lane)

/-- WELT_DISCARD (R413). -/
def execWeltDiscard (t lane : Nat) (s : State) : Out := .next (s.weltDiscard t lane)

/-- WELT_RECORD_READ (R422). -/
def execWeltRecordRead (t : Nat) (v : BitVec 32) (s : State) : Out := 
  .next (s.regWrite .host (Reg.wltRaccCtrl t) (setBit v 31 true) fun s v => s.weltRead t v)

end Sys2Proof.Machine
end

