-- ==== Sys2Proof/Machine/Placement.lean ====
section
/-! DEFINITION. The placement of an image on the device (R179, R180, R185, R186) and the tracing and padding of its merge
sequences (R182 to R184, R187, R188, R192 to R197). -/

namespace Sys2Proof.Machine

/-! ### Last tiles (R176, R179) -/

/-- The last of a grade (R2): columns and rows. -/
def gradeSize (g : Nat) : Nat × Nat := if g = 0 then (8, 8) else if g = 1 then (8, 6) else (4, 8)

/-- The physical tile of last tile (tx,ty) on this device: fused lines are skipped in ascending order. -/
def Device.tileOf (d : Device) (tx ty : Nat) : Nat :=
  let cols := (List.range 8).filter fun x => !d.fusedCols.contains (x + 1)
  let rows := (List.range 8).filter fun y => !d.fusedRows.contains (y + 1)
  8 * rows.getD ty 0 + cols.getD tx 0

/-- Whether the grade fuses a tile off. -/
def Device.fused (d : Device) (t : Nat) : Bool :=
  d.fusedCols.contains (t % 8 + 1) || d.fusedRows.contains (t / 8 + 1)

/-- Whether last terms a and b lie on different sides of the die boundary of a grade; vert selects the vertical one (R179). -/
def diesDiffer (g : Nat) (vert : Bool) (a b : Nat) : Bool :=
  let h := if vert then (if g = 1 then 3 else 4) else (if g = 2 then 2 else 4)
  decide (a < h) != decide (b < h)

/-- Rated hops of one component between last terms a and b on a grade (R182). -/
def ratedComp (g : Nat) (vert : Bool) (a b : Nat) : Nat :=
  if a = b then 0
  else (max a b - min a b) +
    (if g = 1 ∧ vert = true then (if diesDiffer g vert a b then 2 else 1)
     else if g = 2 ∧ vert = false then (if diesDiffer g vert a b then 4 else 2) else 0)

/-- Physical x of a port's gateway (R181). -/
def portX (p : Nat) : Nat := match p % 4 with | 0 => 2 | 1 => 3 | 2 => 6 | _ => 7

/-- Rated hops and die crossings between last tile (x,y) and the gateway of a port on a grade (R183). -/
def ratedPort (g p x y : Nat) : Nat × Nat :=
  let q := portX p - 1
  let north := decide (4 ≤ p)
  let hx := if g = 2 then
      (match x, portX p with
        | 0, 2 => 1 | 0, 3 => 2 | 0, 6 => 5 | 0, _ => 6
        | 1, 2 => 2 | 1, 3 => 1 | 1, 6 => 4 | 1, _ => 5
        | 2, 2 => 5 | 2, 3 => 4 | 2, 6 => 1 | 2, _ => 2
        | _, 2 => 6 | _, 3 => 5 | _, 6 => 2 | _, _ => 1)
    else max x q - min x q
  let vy := if g = 1 then
      let s := if y < 3 then y + 1 else y + 2
      if north then 8 - s else s
    else if north then 7 - y else y
  let vh := if g = 1 then 3 else 4
  let hh := if g = 2 then 2 else 4
  (hx + vy, b2n (decide (y < vh) == north) + b2n (decide (x < hh) != decide (portX p < 5)))

/-- An end of a tile route: a last tile, or a port. -/
inductive RouteEnd where
  | last (x y : Nat) | port (p : Nat)
deriving DecidableEq, Repr

/-- Rated T and D of a route between two ends on a grade (R182, R183). -/
def ratedRoute (g : Nat) : RouteEnd → RouteEnd → Nat × Nat
  | .last x y, .last x' y' =>
    (ratedComp g false x x' + ratedComp g true y y', b2n (diesDiffer g false x x') + b2n (diesDiffer g true y y'))
  | .last x y, .port p => ratedPort g p x y
  | .port p, .last x y => ratedPort g p x y
  | .port _, .port _ => (0, 0)

/-- The largest rated T and D over the grades of a mask (R184). -/
def ratedMask (mask : Nat) (a b : RouteEnd) : Nat × Nat :=
  (List.range 3).foldl (fun m g =>
    if mask.testBit g then (max m.1 (ratedRoute g a b).1, max m.2 (ratedRoute g a b).2) else m) (0, 0)

/-! ### Merge entries -/

/-- A merge entry with a source, a lane, no counted eyelet and odd parity (R151). -/
def mkEntry (src lane : Nat) : BitVec 16 :=
  let e := BitVec.ofNat 16 (src * 2 ^ 12 + lane * 2 ^ 5)
  setBit e 0 (ones e % 2 == 0)

/-- A merge entry changed to another, its parity as right or wrong as it was. -/
def keepParity (e f : BitVec 16) : BitVec 16 := if ones e % 2 = ones f % 2 then f else f ^^^ 1

def eSrc (e : BitVec 16) : Nat := bits e 15 12
def eLane (e : BitVec 16) : Nat := bits e 11 5
def eEye (e : BitVec 16) : Nat := bits e 4 1

def withEye (e : BitVec 16) (n : Nat) : BitVec 16 := keepParity e (setBits e 4 1 n)

def withSrc (e : BitVec 16) (src lane : Nat) : BitVec 16 := keepParity e (setBits (setBits e 15 12 src) 11 5 lane)

/-- An entry that names no input (R152). -/
def noEntry : BitVec 16 := mkEntry 7 0

/-! ### The reference layout (R185, R186) -/

/-- The merge sequences of a tile in the reference layout: (row, column, output group, lane) with entries. -/
abbrev RefSeqs := List ((Nat × Nat × Nat × Nat) × List (BitVec 16))

def refSeq (m : RefSeqs) (row col out lane : Nat) : List (BitVec 16) :=
  match m.find? fun e => e.1 == (row, col, out, lane) with
  | some e => e.2
  | none => []

/-- The first entry of a record for row 8 that does not keep to R185: the record's output lane and the entry's index. -/
def rowEightBad (m : RefSeqs) : Option ((Nat × Nat × Nat × Nat) × Nat) :=
  m.findSome? fun e =>
    if e.1.1 ≠ 8 then none
    else (e.2.findIdx? fun x => !(eEye x == 0 && ((e.1.2.2.1 == 5 && decide (e.1.2.2.2 < 4) && eSrc x == 3) ||
        (e.1.2.2.1 == 3 && eSrc x == 5 && decide (eLane x < 4))))).map fun k => (e.1, k)

/-- Each entry of a list that names lane j of a source takes the next entry, in order, of the sequence of that lane;
their eyelets add (R186 step 4). k counts the entries taken by lane. -/
def joinSeq (src : Nat) (far : Nat → List (BitVec 16)) : (Nat → Nat) → List (BitVec 16) → List (BitVec 16)
  | _, [] => []
  | k, e :: t =>
    if eSrc e = src then
      let j := eLane e
      let f := (far j).getD (k j) noEntry
      withEye (withSrc e (eSrc f) (eLane f)) (eEye e + eEye f) ::
        joinSeq src far (fun i => if i = j then k j + 1 else k i) t
    else e :: joinSeq src far k t

/-- Entries of a list that name lane j of a source. -/
def naming (src j : Nat) (l : List (BitVec 16)) : Nat := (l.filter fun e => eSrc e = src ∧ eLane e = j).length

/-- Physical attachment lane of a router for one of its reference row: W and E attachments are lanes 4 to 7 at a corner
and 0 to 3 elsewhere (R152). -/
def attachLane (refRow physRow lane : Nat) : Nat :=
  let corner := fun r => r == 0 || r == 8
  if corner refRow && !corner physRow && decide (4 ≤ lane) then lane - 4
  else if !corner refRow && corner physRow && decide (lane < 4) then lane + 4
  else lane

/-- The routers that the skipped row moves: reference row y stands at physRow r y. Answers the physical sequences of a
tile, as (row, column, output, lane) with entries; the lane-bytes from the S attachments in are gwS. -/
def placeRef (r : Nat) (m : RefSeqs) : RefSeqs :=
  if r = 8 then m
  else
    let pas := fun row col out src lane n => ((row, col, out, lane), List.replicate n (mkEntry src lane))
    -- entries of reference row y, as its physical router has them
    let fix := fun (y x : Nat) (l : List (BitVec 16)) =>
      let l := l.map fun e =>
        if eSrc e = 5 then
          if r = 0 ∧ y = 0 ∧ eLane e < 4 then withSrc e 3 (eLane e)
          else if x = 0 ∨ x = 7 then withSrc e 5 (attachLane y (physRow r y) (eLane e))
          else e
        else e
      if y = 7 then joinSeq 1 (fun j => refSeq m 8 x 3 j) (fun _ => 0) l else l
    let moved : RefSeqs := m.flatMap fun e =>
      let y := e.1.1
      let x := e.1.2.1
      let out := e.1.2.2.1
      let lane := e.1.2.2.2
      if y = 8 then []
      else if y = 7 ∧ out = 1 then []
      else
        let l := fix y x e.2
        if out = 5 then
          if r = 0 ∧ y = 0 ∧ lane < 4 then
            [((1, x, 3, lane), l), pas 0 x 5 1 lane l.length]
          else [((physRow r y, x, 5, attachLane y (physRow r y) lane), l)]
        else [((physRow r y, x, out, lane), l)]
    let north : RefSeqs := (List.range 8).flatMap fun x => (List.range 4).filterMap fun j =>
      let l := joinSeq 3 (fun k => fix 7 x (refSeq m 7 x 1 k)) (fun _ => 0) (refSeq m 8 x 5 j)
      if l.isEmpty then none else some ((8, x, 5, j), l)
    let split : RefSeqs := (List.range 8).flatMap fun x => (List.range 8).flatMap fun j =>
      if r = 0 then
        let n := (List.range 6).foldl (fun n o => (List.range 8).foldl (fun n k =>
          n + naming 5 j (refSeq m 0 x o k)) n) 0
        if j < 4 ∧ 0 < n then [pas 0 x 1 5 j n] else []
      else
        let up := (refSeq m (r - 1) x 1 j).length
        let down := (refSeq m r x 3 j).length
        (if 0 < up then [pas r x 1 3 j up] else []) ++ (if 0 < down then [pas r x 3 1 j down] else [])
    moved ++ north ++ split

/-- The first N output of reference row 7, or S output of reference row 8, of whose entries the joined sequences use fewer or
more than it has (R186 step 4), with the first entry concerned. -/
def joinBad (m : RefSeqs) : Option ((Nat × Nat × Nat × Nat) × Nat) :=
  (List.range 8).findSome? fun x => (List.range 8).findSome? fun j =>
    let up := (List.range 4).foldl (fun n k => n + naming 3 j (refSeq m 8 x 5 k)) 0
    let down := (List.range 6).foldl (fun n o => (List.range 8).foldl (fun n k => n + naming 1 j (refSeq m 7 x o k)) n) 0
    let u := (refSeq m 7 x 1 j).length
    let d := (refSeq m 8 x 3 j).length
    if u ≠ up then some ((7, x, 1, j), min u up) else if d ≠ down then some ((8, x, 3, j), min d down) else none

/-- The first entry of a tile's reference layout that breaks R185, or that the joining of R186 leaves over. -/
def misuseOf (r : Nat) (m : RefSeqs) : Option ((Nat × Nat × Nat × Nat) × Nat) :=
  match rowEightBad m with
  | some b => some b
  | none => if r < 8 then joinBad m else none

namespace State

variable (s : State)

def srow (t : Nat) : Nat := s.fld (Reg.tilePlace t) 23 20

/-- A lane's merge sequence is loaded: length and entries, from its first entry on. -/
def loadLane (l : LaneId) (e : List (BitVec 16)) : State :=
  let tab := (e.zipIdx).foldl (fun m p => tput (fun _ => 0) p.2 p.1 m) []
  s.setLane l { Lane.empty with n := e.length, ent := tab }

/-- The router sequences of a tile are placed (R186). -/
def placeTile (t : Nat) (m : RefSeqs) : State :=
  let s := { s with lanes := tdrop (fun k => k / 294912 == 64 + t || k / 294912 == t) s.lanes }
  (placeRef (s.srow t) m).foldl (fun s e => s.loadLane (routerLane t e.1.1 e.1.2.1 e.1.2.2.1 e.1.2.2.2) e.2) s

/-- Gateway lane of an attachment lane of the reference layout: rows of the W and E sides are physical rows (R152). How R186
places a gateway's entries it does not say: the lanes of reference row y stand at its physical row, those above them stay
(log 78). -/
def gwLane (t side lane : Nat) : Nat :=
  if side % 2 = 1 ∧ s.srow t < 8 ∧ lane / 4 < 8 then 4 * physRow (s.srow t) (lane / 4) + lane % 4 else lane

/-- A gateway output's sequence is placed; a record for an output lane outside R152 has no effect (log 79). -/
def placeGateway (t out lane : Nat) (e : List (BitVec 16)) : State :=
  if laneExists (gatewayLane t out lane) then
    s.loadLane (gatewayLane t out (if 12 ≤ out then s.gwLane t (out - 12) lane else lane)) (e.map fun x =>
      if 12 ≤ eSrc x then withSrc x (eSrc x) (s.gwLane t (eSrc x - 12) (eLane x)) else x)
  else s

/-- Whether an output of a tile's gateway takes from a lane of the source that a code names. -/
def gatewayTakes (t src lane : Nat) : Bool :=
  (([6, 8, 9, 10, 11, 12, 13, 14, 15] : List Nat).any fun o => (List.range 128).any fun k =>
    let x := s.lane (gatewayLane t o k)
    (List.range x.n).any fun i => eSrc (x.entry i) == src && eLane (x.entry i) == lane)

/-- The gateways of fused tiles pass on what their neighbours send across them, but for the lanes that the tile's port record
takes (R180, R181). One pass; four reach across every run of fused lines. -/
def passFused : State :=
  (List.range 64).foldl (fun s t =>
    if s.devIn.fused t then
      (List.range 4).foldl (fun s d => (List.range 32).foldl (fun s j =>
        match nextTile t ((d + 2) % 4), nextTile t d with
        | some u, some _ =>
          let n := (s.lane (gatewayLane u (8 + d) j)).n
          if (s.lane (gatewayLane t (8 + d) j)).n = 0 ∧ 0 < n ∧ s.gatewayTakes t (8 + (d + 2) % 4) j = false then
            s.loadLane (gatewayLane t (8 + d) j) (List.replicate n (mkEntry (8 + (d + 2) % 4) j))
          else s
        | _, _ => s) s) s
    else s) s

end State

/-! ### The trace (R192) -/

/-- Where a refusal of causes 14h to 16h lies (R197, R586): the code, the output lane and its entry. -/
structure Bad where
  code : Nat
  lane : LaneId
  entry : Nat
deriving DecidableEq, Repr

def Lane.entries (x : Lane) : List (BitVec 16) := (List.range x.n).map x.entry

/-- Output lanes of a tile's routers, in order. -/
def routerLanes (t : Nat) : List LaneId :=
  (List.range 72).flatMap fun c => (List.range 6).flatMap fun o => (List.range 8).map fun k => routerLane t (c / 8) (c % 8) o k

/-- Output lanes of a tile's gateway, in order. -/
def gatewayLanes (t : Nat) : List LaneId :=
  (List.range 128).map (gatewayLane t 6) ++
    (List.range 8).flatMap fun o => (List.range 36).map fun k => gatewayLane t (8 + o) k

namespace State

variable (s : State)

/-- Where an entry of an output lane takes from. -/
def srcLane (l : LaneId) (e : BitVec 16) : Option LaneId := (s.sourceOf l (eSrc e) (eLane e)).map fun p => p.1

/-- Lane-bytes that an input lane delivers in a cycle (R192); rx gives those of a receiving port side. -/
def delivers (rx : Nat → Nat → Nat) (u : LaneId) : Nat :=
  match u.kind with
  | 0 => ((List.range s.len).filter fun k => owr ((s.clu u.tile (8 * u.row + u.col)).laneAt k) u.lane).length
  | 3 => rx u.tile u.lane
  | _ => (s.lane u).n

/-- Entries before index k of an output lane that name the same input. -/
def ordinal (l : LaneId) (k : Nat) : Nat :=
  let es := (s.lane l).entries
  let u := (es[k]?).bind (s.srcLane l)
  ((es.take k).filter fun e => s.srcLane l e == u).length

/-- Output lanes that could name an input lane: those of the router or gateway it leads to, by kind. -/
def consumers (u : LaneId) : List LaneId :=
  let all := routerLanes u.tile ++ gatewayLanes u.tile ++
    (List.range 4).flatMap fun d => match nextTile u.tile d with
      | some t => gatewayLanes t
      | none => []
  all.filter fun l => (s.lane l).entries.any fun e => s.srcLane l e == some u

/-- The first fault of the trace at an output lane (R192): an entry that names no input, an input that another output lane
names too, or one that delivers fewer lane-bytes or more. -/
def traceLane (rx : Nat → Nat → Nat) (l : LaneId) : Option Bad :=
  let es := (s.lane l).entries
  (List.range es.length).findSome? fun k =>
    match (es[k]?).bind (s.srcLane l) with
    | none => some ⟨0x14, l, k⟩
    | some u =>
      let n := (es.filter fun e => s.srcLane l e == some u).length
      if n ≠ s.delivers rx u ∨ (s.consumers u).length ≠ 1 then some ⟨0x14, l, k⟩ else none

/-- An input lane that delivers lane-bytes which no entry names. -/
def traceLost (rx : Nat → Nat → Nat) (u : LaneId) : Option Bad :=
  if 0 < s.delivers rx u ∧ (s.consumers u).isEmpty then some ⟨0x14, u, 0⟩ else none

/-- The path of a lane-byte back from an entry of an output lane, the nearest to the source first: the output lanes of the
same kind that it passes with their entries, and the lane it enters from. -/
def backTrace : Nat → LaneId → Nat → List (LaneId × Nat) → Option (List (LaneId × Nat) × LaneId)
  | 0, _, _, _ => none
  | n + 1, l, k, path =>
    match ((s.lane l).entries[k]?).bind (s.srcLane l) with
    | none => none
    | some u =>
      let path := (l, k) :: path
      if u.kind = l.kind then backTrace n u (s.ordinal l k) path else some (path, u)

/-- Last row of a physical row (R159); 9 for the skipped one. -/
def lastRow (t row : Nat) : Nat := let r := s.srow t; if row < r then row else if row = r then 9 else row - 1

/-- The row deficit of a leg (R187): a and b are the physical rows of its ends, na and nb say that the end is the N (1) or S
(2) attachment, 0 otherwise. none where a row is the skipped one. -/
def rowDeficit (t a na b nb : Nat) : Option Nat :=
  let r := s.srow t
  let y := s.lastRow t a
  let y' := s.lastRow t b
  let one := fun cy n => some (if n = 1 then b2n (decide (r ≤ cy)) else b2n (decide (cy < r)))
  if na ≠ 0 then (if y' = 9 then none else one y' na)
  else if nb ≠ 0 then (if y = 9 then none else one y nb)
  else if y = 9 ∨ y' = 9 then none
  else if y = y' then some 0
  else some (b2n !(decide (min y y' < r ∧ r ≤ max y y')))

/-- Whether an attachment lane of a router is its N (1) or S (2) one; 0 for W and E (R152). -/
def attachSide (row col lane : Nat) : Nat :=
  match attachOf row col lane with
  | some (0, _) => 1
  | some (2, _) => 2
  | _ => 0

/-- Registers that count by an entry: the chain of a router output has three eyelets, so the high bits of its EYE do not count
(R155). -/
def eyeOf (l : LaneId) (e : BitVec 16) : Nat := if l.kind = 1 then eEye e % 4 else eEye e

/-- EYE of an entry of a lane grows. -/
def addEye (l : LaneId) (k n : Nat) : State :=
  let x := s.lane l
  let e := x.entry k
  let s := s.setLane l { x with ent := tput (fun _ => 0) k (withEye e (eEye e + n)) x.ent }
  if l.kind = 2 then s.count (Reg.tilePad l.tile) 31 16 n else s.count (Reg.tilePad l.tile) 15 0 n

/-- The leg that ends at entry k of an inbound or attachment output is checked and padded (R187, R193, R197). -/
def padLeg (l : LaneId) (k : Nat) : Except Bad State :=
  match s.backTrace 32 l k [] with
  | none => .error ⟨0x14, l, k⟩
  | some (path, u) =>
    match path with
    | [] => .error ⟨0x14, l, k⟩
    | (f, i) :: _ =>
      let hops := path.length - 1
      let flat := (max f.row l.row - min f.row l.row) + (max f.col l.col - min f.col l.col)
      let e := (s.lane f).entry i
      let na := if u.kind = 2 then attachSide f.row f.col (eLane e) else 0
      let nb := if l.out = 5 then attachSide l.row l.col l.lane else 0
      if hops ≠ flat ∨ (u.kind = 2 ∧ l.out = 5) then .error ⟨0x14, f, i⟩
      else
        match s.rowDeficit l.tile f.row na l.row nb with
        | none => .error ⟨0x14, f, i⟩
        | some 0 => .ok s
        | some d => if 3 < eyeOf f e + d then .error ⟨0x15, f, i⟩ else .ok (s.addEye f i d)

/-- A deficit is placed on the gateway entries of a route, in order, raising none above 15 (R193). Answers what is left. -/
def placeDeficit : List (LaneId × Nat) → Nat → State → State × Nat
  | [], n, s => (s, n)
  | (l, k) :: t, n, s =>
    let room := 15 - min 15 (eEye ((s.lane l).entry k))
    let a := min room n
    placeDeficit t (n - a) (if a = 0 then s else s.addEye l k a)

/-- The end of a tile route at a gateway: its port side, or the last tile. -/
def routeEnd (t : Nat) (port : Bool) : Option RouteEnd :=
  if port then ((List.range 8).find? fun p => portTile p = t).map .port
  else (s.lastTile t).map fun p => .last p.1 p.2

/-- The tile route that ends at entry k of a gateway output towards the tile or the port is checked and padded. -/
def padRoute (img : Image) (l : LaneId) (k : Nat) : Except Bad State :=
  match s.backTrace 8256 l k [] with
  | none => .error ⟨0x14, l, k⟩
  | some (path, u) =>
    match path with
    | [] => .error ⟨0x14, l, k⟩
    | (f, i) :: _ =>
      let links := path.filter fun p => 8 ≤ p.1.out ∧ p.1.out ≤ 11
      let hops := links.length
      let dies := (links.filter fun p => crossesDie p.1.tile (p.1.out - 8)).length
      let flat := (max (tileX f.tile) (tileX l.tile) - min (tileX f.tile) (tileX l.tile)) +
        (max (tileY f.tile) (tileY l.tile) - min (tileY f.tile) (tileY l.tile))
      match s.routeEnd f.tile (u.kind == 3), s.routeEnd l.tile (l.out == 6) with
      | some a, some b =>
        let wide := img.gmask / 2 ≠ 0
        if (u.kind = 3 ∧ l.out = 6) ∨ (wide ∧ hops ≠ flat) then .error ⟨0x14, f, i⟩
        else
          let rated := if wide then ratedMask img.gmask a b else (hops, dies)
          let c := if img.pmask.testBit 0 then 2 else 1
          let need := 3 * rated.1 + c * rated.2
          let have_ := 3 * hops + s.nativeC * dies
          if need < have_ then .error ⟨0x14, f, i⟩
          else
            match placeDeficit path (need - have_) s with
            | (s, 0) => .ok s
            | _ => .error ⟨0x16, f, i⟩
      | _, _ => .error ⟨0x14, f, i⟩

/-- Every entry of the lanes that p names is handled in order. -/
def overEntries (p : LaneId → Bool) (f : State → LaneId → Nat → Except Bad State) (l : List LaneId) : Except Bad State :=
  l.foldlM (fun s x => if p x then (List.range (s.lane x).n).foldlM (fun s k => f s x k) s else .ok s) s

/-- The first fault of a list of checks. -/
def firstBad (f : LaneId → Option Bad) (l : List LaneId) : Except Bad State :=
  match l.findSome? f with
  | some b => .error b
  | none => .ok s

/-- Outbound positions of a tile's clusters. -/
def outPositions (t : Nat) : List LaneId :=
  (List.range 72).flatMap fun c => (List.range 4).map fun k => outLane t c k

/-- The lane-bytes of an output lane are followed back to the point where they enter the device; one that stands on a closed
circle of lanes enters nowhere (R192). n bounds the hops. -/
def traceEnds (n : Nat) (l : LaneId) : Option Bad :=
  (List.range (s.lane l).n).findSome? fun k => if (s.backTrace n l k []).isNone then some ⟨0x14, l, k⟩ else none

/-- A tile's routers are traced, checked and padded. -/
def padTile (rx : Nat → Nat → Nat) (t : Nat) : Except Bad State := do
  let s ← s.firstBad (s.traceLane rx) (routerLanes t)
  let s ← s.firstBad (s.traceLost rx) (outPositions t ++ (routerLanes t).filter fun l => l.out ≠ 0)
  let s ← s.firstBad (s.traceEnds 32) ((routerLanes t).filter fun l => 1 ≤ l.out ∧ l.out ≤ 4)
  s.overEntries (fun l => l.out = 0 ∨ l.out = 5) (fun s l k => s.padLeg l k) (routerLanes t)

/-- A gateway is traced, checked and padded. -/
def padGateway (rx : Nat → Nat → Nat) (img : Image) (t : Nat) : Except Bad State := do
  let s ← s.firstBad (s.traceLane rx) (gatewayLanes t)
  let s ← s.firstBad (s.traceLost rx) ((gatewayLanes t).filter (fun l => l.out ≠ 6) ++ (List.range 128).map (portInLane t))
  let s ← s.firstBad (s.traceEnds 8256) ((gatewayLanes t).filter fun l => 8 ≤ l.out ∧ l.out ≤ 11)
  s.overEntries (fun l => l.out = 6 ∨ 12 ≤ l.out) (fun s l k => s.padRoute img l k) (gatewayLanes t)

/-- A full image is traced and padded: its tiles in the order of the last, then every gateway (R197). -/
def padAll (rx : Nat → Nat → Nat) (img : Image) (misuse : List (LaneId × Nat)) : Except Bad State := do
  let tiles := (List.range img.ly).flatMap fun y => (List.range img.lx).map fun x => s.devIn.tileOf x y
  let s ← tiles.foldlM (fun s t => match misuse.find? fun b => b.1.tile == t with
    | some b => .error ⟨0x14, b.1, b.2⟩
    | none => s.padTile rx t) s
  (List.range 64).foldlM (fun s t => s.padGateway rx img t) s

/-- A region image against the border lanes as the full image placed them (R169, R197): every attachment lane that the gateway
drives is taken by a router, and each attachment output of a router carries as many lane-bytes as the gateway takes from it. -/
def padBorder (t : Nat) : Except Bad State := do
  let s ← s.firstBad (s.traceLost fun _ _ => 0) ((gatewayLanes t).filter fun l => 12 ≤ l.out)
  let takes := fun (u : LaneId) => (gatewayLanes t).foldl (fun n l =>
    n + ((s.lane l).entries.filter fun e => s.srcLane l e == some u).length) 0
  s.firstBad (fun u => if takes u = (s.lane u).n then none else some ⟨0x14, u, min (takes u) (s.lane u).n⟩)
    ((routerLanes t).filter fun l => l.out = 5 ∧ laneExists l = true)

end State

end Sys2Proof.Machine
end

