-- ==== Sys2Proof/Machine/LoaderCore.lean ====
section
/-! DEFINITION. The loader of the configuration engine: the start of a load (R369, R370, R373), the header (R355 to R364), frames
and records (R357 to R368), the write of a tile (R98, R142, R186), the end of a load (R370, R375) and its failures (R374 to
R380). Writes of REGS pairs are made by a function that the caller gives. -/

namespace Sys2Proof.Machine

def allZero (l : List (BitVec 8)) : Bool := l.all fun b => b == 0

/-- The assumed latencies of an image, as TILE_PLACE.APROF names them (R202). -/
def Image.aprof (i : Image) : Nat := if i.pmask.testBit 0 then 1 else 2

/-- Whether the CRC of a frame matches (R354). -/
def frameCrcOk (l : List (BitVec 8)) : Bool := (crc32 (l.take 4092)).toNat == fieldBE l 4092 4

/-- The first n states of a list cut into pieces of k bytes. -/
def piecesOf (k : Nat) : Nat → List (BitVec 8) → List (List (BitVec 8))
  | 0, _ => []
  | n + 1, l => l.take k :: piecesOf k n (l.drop k)

namespace State

variable (s : State)

/-- A fuse word in effect: what the device was delivered with, with the bits programmed since (R491; log 9). The status
word has public-key slot 0 and device key slot 0 programmed, without which no golden image could load (R356, R363); every
other word is unprogrammed, all zeros, since the owner programs it (R363). -/
def fuse (g w : Nat) : BitVec 32 :=
  (if g = 3 then 0x101#32 else if (g = 0 ∧ w < 12) ∨ (g = 1 ∧ w < 8) then Config.factoryFuse (64 * g + w) else 0) ||| tget (fun _ => 0) s.fusesIn (64 * g + w)

/-- n fuse words of a group from word w on, the first most significant. -/
def fuseWords (g w n : Nat) : Nat := (List.range n).foldl (fun v k => 2 ^ 32 * v + (s.fuse g (w + k)).toNat) 0

def ceState (st : Nat) : State := s.setFld Reg.ceStat 31 29 st

/-! ### The repair map (R52, R91, R370, R548) -/

/-- The units skipped when n of total may be: the failing ones, then the highest of the others, in ascending order. Which good
units are skipped the spec does not say (log 73). -/
def skipList (bad : List Nat) (total n : Nat) : List Nat :=
  let good := ((List.range total).filter fun k => !bad.contains k).reverse
  let pick := ((bad ++ good).take n)
  (List.range total).filter fun k => pick.contains k

/-- CLU_MAP of the clusters that p names takes the repair map's units (R52, R91). -/
def applyClusterMap (p : Nat → Bool) : State :=
  let s := s.dev.badBp.foldl (fun s e =>
    let l := skipList e.2 68 4
    let k := Reg.cluMap (e.1 / 72) (e.1 % 72)
    if p e.1 then
      (((s.setFld k 6 0 (l.getD 0 64)).setFld k 13 7 (l.getD 1 65)).setFld k 20 14 (l.getD 2 66)).setFld k 27 21 (l.getD 3 67)
    else s) s
  s.dev.badWu.foldl (fun s e =>
    if p e.1 then s.setFld (Reg.cluMap (e.1 / 72) (e.1 % 72)) 30 28 ((skipList e.2 5 1).getD 0 4) else s) s

/-- The physical pseudo-channels that serve the 62 logical ones of a stack: each failing one gives way to a good spare
(R239, R545); none where the spares do not suffice. -/
def pcAssign (d : Device) (m : Nat) : Option (List Nat) :=
  let bad := tget (fun _ => []) d.badPc m
  let cur := (List.range 62).map fun k => tget (fun k => k % 62) d.pcmap (62 * m + k)
  let spares := (List.range 64).filter fun p => !cur.contains p && !bad.contains p
  (cur.foldl (fun (r : Option (List Nat × List Nat)) p => r.bind fun x =>
    if bad.contains p then
      match x.2 with
      | q :: rest => some (x.1 ++ [q], rest)
      | [] => none
    else some (x.1 ++ [p], x.2)) (some ([], spares))).map fun x => x.1

/-- The repair map reaches CLU_MAP, TILE_PLACE.SROW and MC_PCMAP (R370 step 1): each stack's failing pseudo-channels give
way to its good spares; a stack without a valid assignment leaves its controller FAILED (R239). -/
def applyRepairMap : State :=
  let s := s.dev.srow.foldl (fun s e => s.setFld (Reg.tilePlace e.1) 23 20 e.2) s
  let s := s.applyClusterMap fun _ => true
  (List.range 6).foldl (fun s m =>
    match pcAssign s.dev m with
    | some l => l.zipIdx.foldl (fun s e => s.setFld (Reg.mcPcmap m e.2) 5 0 e.1) s
    | none => if s.mcState m = 5 then s else s.mcFail m 2) s

/-! ### The start of a load -/

/-- Registers of the TT window, and the probe tables, which a load returns to Reset (R480), a LOCK set among them (DESIGN CHOICE,
log 93). -/
def ttRegs (k : Nat) : Bool :=
  (k / 0x100000 == ttNode && decide (k % 0x100000 < 0xFF000)) ||
  (match nodeKind (k / 0x100000) with
    | .tile _ => decide (0xE0000 ≤ k % 0x100000 ∧ k % 0x100000 < 0xE8000)
    | _ => false)

/-- Fields that CLEAN returns to their Reset values (R376): those an image loads, and those the loader writes but for the
repair map. -/
def cleanWord (k : Nat) (v : BitVec 32) : BitVec 32 :=
  let o := k % 0x100000
  let tile := match nodeKind (k / 0x100000) with
    | .tile _ => true
    | _ => false
  let m := match rowAt k with
    | some r => BitVec.ofNat 32 r.img
    | none => 0
  let v := (v &&& ~~~m) ||| (resetWord k &&& m)
  if tile && o == 0x50020 then v &&& 0x00F00000#32
  else if tile && o == 0x50024 then 0
  else if tile && decide (0x80000 ≤ o ∧ o < 0xA8000) && (o % 0x800 == 0 || (decide (0x200 ≤ o % 0x800 ∧ o % 0x800 < 0x340) &&
      o % 0x40 == 8)) then resetWord k
  else v

/-- Whether a register is a port's: a start of a load leaves it to the image's records (R373). -/
def portReg (k : Nat) : Bool :=
  match nodeKind (k / 0x100000) with
    | .port _ => true
    | _ => false

/-- A register once a load has begun: a port's stay as they are (R373), but for the channel entries, which read V = 0 until the loader
writes them (R349); the fields an image loads are at Reset. -/
def loadWord (k : Nat) (v : BitVec 32) : BitVec 32 :=
  if portReg k then (if 0x400 ≤ k % 0x100000 ∧ k % 0x100000 < 0x600 then resetWord k else v) else cleanWord k v

/-- What the WUs of the tiles have not sent is discarded, and so is what their interfaces collected (R142, R143). -/
def tileMastersEmptied : Tab Master :=
  (s.masters.map fun (e : Nat × Master) => match nodeKind (e.1 / 1024) with
    | .tile _ => (e.1, e.2.emptied)
    | _ => e).filter fun e => decide (e.2 ≠ Master.empty)

/-- The run is discarded (R51, R373; of a LOCK in the TT's registers: log 93): the sequencer is IDLE, every halt ends, nothing is in flight on the lanes, the WUs send
nothing more, the trace engine clears (R480), the pins return to R381, the regions leave, and the fields that an image loads are at their Reset
values until the new image's records write them, but for those of the ports (R370, R373, R381; log 72). -/
def discardRun : State :=
  let s := (List.range 8).foldl (fun s p => s.schedDiscard p) s.abortTasks
  let s := { s with seq := Seq.reset, tt := Tt.empty, image := none,
                    dbg := { Dbg.empty with freshCh := s.dbg.freshCh, fuse := s.dbg.fuse },
                    dawn := Dawn.empty, pm := { s.pm with ck := none, owed := none },
                    tio := { s.tio with outs := 0, oe := 0, chans := [], instant := false, paired := false, broken := false,
                                        safe := s.overt },
                    fab := { s.fab with peers := [] },
                    lanes := tmap (fun _ => Lane.empty) (fun x => { x with places := [], stuck := [] }) s.lanes,
                    clus := tmap (fun _ => Cluster.empty) (fun x => { x with inq := [], faulted := false }) s.clus,
                    masters := s.tileMastersEmptied, steps := [],
                    banks := s.grantsForgotten,
                    regs := ((tdrop ttRegs s.regs).map fun (e : Nat × BitVec 32) => (e.1, loadWord e.1 e.2)).filter
                      fun e => decide (e.2 ≠ resetWord e.1) }
  let s := { s with tiles := (s.tiles.map fun (e : Nat × Tile) =>
    (e.1, { e.2 with job := none, welts := [], stash := none, probe := [] })).filter fun e => decide (e.2 ≠ Tile.empty) }
  let s := (List.range 64).foldl (fun s t =>
    ((s.setFld (Reg.rgnStat t) 31 28 0))) s
  let s := ((((s.setFlag Reg.dbgStat 31 false).setFlag Reg.dbgStat 29 false).setFlag Reg.dbgStat 22 false).setFlag
    Reg.dbgStat 26 false).setFld Reg.dbgStat 15 0 0
  ((s.setFlag Reg.wdgStat 30 false).setFlag Reg.tioCadStat 30 false).setReg Reg.dwnStat 0 |>.setFld Reg.tioRecCtrl 1 0 0

/-- Slots found in WRITING at a start become BAD (R352), but for one that a store operation works on. -/
def slotsFound : State :=
  let busy := s.store.op.map fun o => o.slot
  let slot := s.store.dir.slot.map fun (e : Nat × Nat) => if e.2 = 1 ∧ busy ≠ some e.1 then (e.1, 4) else e
  if slot = s.store.dir.slot then s else s.dirWrite fun d => { d with slot := slot }

/-- Step 1 of a full load (R370), the copies read: the directory, the key status and the repair map; a pass in progress ends, and with
SPR_CTRL.LOADPASS a load pass over every tile comes first (R547, R551); no checkpoint set has completed since (R542). -/
def loadStart (src : Nat) : State :=
  let s := { s.slotsFound with load := some (Load.start none src 0), devIn := s.dev }
  let pass := s.flag Reg.sprCtrl 30
  let s := { s with pm := { s.pm with pass := if pass then List.range 64 else [] } }
  let s := (s.setFld Reg.sprStat 31 29 (b2n pass)).setFld Reg.sprStat 6 0 (if pass then 0 else 127)
  let s := s.setFlag Reg.modeCklastHi 31 false
  (((s.applyRepairMap.ceState 0).setFld Reg.ceStat 28 24 0).setFlag Reg.ceStat 23 s.store.factoryUsed).setReg Reg.ceProg 0

/-- The source that CE_CTRL.LSRC and the boot selection name (R370 step 2), coded as CE_STAT.SRC. -/
def loadSource : Nat :=
  match s.fld Reg.ceCtrl 30 29 with
  | 0 => if s.store.dir.sel then 2 else 1
  | 1 => 1
  | 2 => 2
  | _ => 3

/-- Whether a full load is in progress (R373). -/
def fullLoading : Bool :=
  match s.load with
  | some l => l.region.isNone
  | none => false

/-! ### Failures (R374 to R380) -/

/-- The fields of CLEAN at their Reset values. -/
def cleanRegs : State :=
  { s with regs := (s.regs.map fun e => (e.1, cleanWord e.1 e.2)).filter fun e => decide (e.2 ≠ resetWord e.1),
           seq := { s.seq with neigh := [] }, fab := { s.fab with peers := [] } }

/-- The first fatal failure is recorded (R393). -/
def ceFailure (src code frame : Nat) (region : Bool) : State :=
  if s.flag Reg.ceLerr 31 then s
  else
    let w := 2 ^ 31 + src * 2 ^ 28 + b2n region * 2 ^ 27 + code
    ((s.setReg Reg.ceLerr (BitVec.ofNat 32 w)).setReg Reg.ceLframe (BitVec.ofNat 32 frame)).irqIf (s.flag Reg.ceCtrl 3) 9

/-- The place of a refusal as DET2 names it (R586). -/
def badPlace (b : Bad) : Nat :=
  let l := b.lane
  tileX l.tile * 2 ^ 28 + tileY l.tile * 2 ^ 24 + b2n (l.kind == 2) * 2 ^ 23 +
    (if l.kind = 2 then 0 else l.row * 2 ^ 19 + l.col * 2 ^ 16) + l.out * 2 ^ 12 + l.lane * 2 ^ 5

/-- No retry is in progress. -/
def retryEnd : State := s.setFlag Reg.ceRframe 31 false

/-- The HBM content skipped is recorded at the end of a load, one record for each controller (R372). -/
def recordSkips (ld : Load) : State := ld.skipped.foldl (fun s e => s.record 1 7 0x19 ceNode e.1 e.2 0) s

/-- A load ends with a fatal failure (R376, R377, R380). -/
def loadFail (ld : Load) (code frame : Nat) (bad : Option Bad) : State :=
  let s := s.retryEnd.recordSkips ld
  match ld.region with
  | some t =>
    let s := (s.ceFailure ld.src code frame true).setFlag Reg.ceStat 24 false
    let s := if s.fld Reg.ceStat 31 29 = 2 then s.ceState 4 else s
    { s with load := none }.rgnLoadFail t code
  | none =>
    let det2 := match bad with
      | some b => badPlace b
      | none => 0
    let entry := match bad with
      | some b => b.entry
      | none => 0
    let s := s.record 3 7 code ceNode (ld.src * 2 ^ 13 + entry) frame det2
    let s := s.ceFailure ld.src code frame false
    let next := if ld.src < 3 then 3 else if ld.src = 3 ∧ code ≠ 0x0E then 4 else 0
    { (s.cleanRegs.ceState 3) with load := some (Load.start none next 0), image := none }

/-- A transient failure: the frame is read again (R374, R393). -/
def loadRetry (ld : Load) : State :=
  let n := ld.retries + 1
  let w := 2 ^ 31 + n % 8 * 2 ^ 28 + ld.frame
  let s := (s.setReg Reg.ceRframe (BitVec.ofNat 32 w)).setFld Reg.ceRetry 31 16 (min n 65535)
  let s := (s.count Reg.ceRetry 15 0 1).irqIf (decide (n = 1) && s.flag Reg.ceCtrl 1) 9
  { (s.ceState 2) with load := some { ld with retries := n } }

/-- The frame read has passed: no retry is in progress. -/
def loadPass (ld : Load) : State :=
  { (s.retryEnd.ceState (if ld.region.isSome then 4 else 1)) with load := some { ld with retries := 0 } }

/-- CE_CTRL is written (R369, R378, R392): ABORT acts before LOAD. A load of a region image can be aborted while it is read
(R380). lost names the copies of the store's regions that do not read right at the start (R351). -/
def ceCtrlWrite (v : BitVec 32) (lost : List LostCopy) : State :=
  let lock := s.flag Reg.ceCtrl 0
  let keep := if lock then 0x81#32 else 0#32
  let s := s.setReg Reg.ceCtrl ((s.reg Reg.ceCtrl &&& keep) ||| (v &&& (0x6000008E#32 ||| 1#32) &&& ~~~keep))
  let s := if v.getLsbD 28 then
      match s.load with
      | some ld =>
        if ld.region.isSome ∨ s.fld Reg.ceStat 31 29 = 1 ∨ s.fld Reg.ceStat 31 29 = 2 then s.loadFail ld 0x0E ld.frame none
        else s
      | none => s
    else s
  if v.getLsbD 31 && !s.fullLoading then
    let s := ({ s with load := none }.discardRun).readCopies lost
    s.loadStart s.loadSource
  else s

/-! ### The header (R355, R363, R364, R370 step 3) -/

/-- The states of the controllers that hold n bytes of HBM from an address on. -/
def hbmStates (a n : Nat) : List (Nat × Nat) :=
  (List.range (n / 32 + 1)).map fun k =>
    let m := (s.hbmPlace (a + 32 * k)).1
    (m, s.mcState m)

/-- The frame that a load reads next: the state after the read, and the frame as bytes; none where the page is erased or where the
response of a controller is other than OK (R374). ecc says what the check bits of HBM words say. A controller that initialises makes
the read wait, which the caller asks first. -/
def readFrame (ld : Load) (ecc : List EccAt) : State × Option (List (BitVec 8)) :=
  if ld.src = 5 then
    let a := ld.base + 4096 * ld.frame
    if hbmTop < a + 4096 ∨ (s.hbmStates a 4064).any (fun e => e.2 ≠ 2) = true then (s, none)
    else
      let r := s.hbmReadBlocks a 16 1 ecc
      (r.1, if r.2.2 then none else some (r.2.1.flatMap fun w => bytesOf 8 w.toNat))
  else (s.countRead (homeBlock (ld.src - 1) (ld.frame / 1024)), (s.page (ld.src - 1) ld.frame).map pageBytes)

/-- Whether the frame that a load reads next lies in a controller that initialises (log 18). -/
def readWaits (ld : Load) : Bool := ld.src == 5 && (s.hbmStates (ld.base + 4096 * ld.frame) 4064).any (fun e => e.2 == 1)

/-- Frames that a source can hold after the header (R358). -/
def frameLimit (src : Nat) : Nat := if src = 3 ∨ src = 4 then 65535 else if src = 5 then 2 ^ 32 else 6291455

/-- The image key and what the header declares, or the code of the first check that fails. t is the tile of a region load. -/
def checkHeader (ld : Load) (l : List (BitVec 8)) : Except Nat Load :=
  let f := fieldBE l
  let kind := f 6 1
  let golden := ld.src = 3 ∨ ld.src = 4
  let wantKind := if ld.region.isSome then 2 else if golden then 3 else 1
  let ks := f 14 1
  let pk := f 15 1
  let img : Image := ⟨f 8 1, f 9 1, f 10 1, f 11 1⟩
  let pub := (l.drop 124).take 97
  let hashOk := (sha384 pub).toNat == s.fuseWords 0 (12 * pk) 12
  let st := s.fuse 3 0
  let key := aesUnwrap (BitVec.ofNat 256 (s.fuseWords 1 (8 * ks) 8)) (BitVec.ofNat 320 (f 36 40))
  if f 0 4 ≠ 0x58444C49 ∨ f 4 2 ≠ 1 then .error 1
  else if f 7 1 ≠ 1 then .error 2
  else if kind ≠ wantKind then .error 3
  else if ld.src ≠ 5 ∧ s.slotState (ld.src - 1) ≠ 2 ∧ s.slotState (ld.src - 1) ≠ 3 then .error 7
  else if f 16 4 = 0 ∨ frameLimit ld.src < f 16 4 then .error 6
  else if 3 < pk ∨ 3 < ks ∨ (golden ∧ (pk ≠ 0 ∨ ks ≠ 0)) ∨ !st.getLsbD pk ∨ st.getLsbD (4 + pk) ∨ !hashOk ∨
      !st.getLsbD (8 + ks) ∨ key.isNone then .error 4
  else if f 124 1 ≠ 4 ∨ !ecdsaOk (BitVec.ofNat 768 (f 125 96)) (sha384 (l.take 224))
      (BitVec.ofNat 768 (f 224 96)) then .error 5
  else if !allZero ((l.drop 221).take 3) || !allZero ((l.drop 320).take 3772) then .error 0x0A
  else
    let g := gradeSize s.devIn.grade
    let refuse :=
      if golden then 0
      else if s.devIn.grade = 3 then 0x11
      else if img.lx = 0 ∨ img.ly = 0 ∨ g.1 < img.lx ∨ g.2 < img.ly then 0x10
      else if !img.gmask.testBit s.devIn.grade then 0x11
      else if img.pmask = 0 ∨ 3 < img.pmask then 0x12
      else if s.devIn.native = 1 ∧ img.pmask.testBit 0 = false then 0x13
      else if ld.region.isSome ∧ s.image ≠ some img then 0x17
      else 0
    if refuse ≠ 0 then .error refuse
    else .ok { ld with header := true, img := img, rtx := f 12 1, rty := f 13 1, frame := 1, fcount := f 16 4,
                       imgId := BitVec.ofNat 64 (f 20 8), nonce := BitVec.ofNat 64 (f 28 8), key := key.getD 0,
                       hash := BitVec.ofNat 384 (f 76 48) }

/-- Physical rows of a tile's last clusters. -/
def placedClusters (t : Nat) : List (Nat × Nat × Nat) :=
  (List.range 8).flatMap fun y => (List.range 8).map fun x => (x, y, 8 * physRow (s.srow t) y + x)

/-- A full image places a last tile: its TILE_PLACE (R179, R202). -/
def placeFields (img : Image) (t tx ty : Nat) : State :=
  let s := s.setFld (Reg.tilePlace t) 29 24 (8 * tx + ty)
  (s.setFlag (Reg.tilePlace t) 31 true).setFld (Reg.tilePlace t) 19 18 img.aprof

/-- The clusters of a last tile that is written are placed: CLU_ID and CLU_WCFG (R90, R113). -/
def placeClusters (img : Image) (t : Nat) : State :=
  (s.placedClusters t).foldl (fun s c =>
    let k := Reg.cluId t c.2.2
    let s := ((s.setFlag k 13 true).setFld k 9 7 c.1).setFld k 12 10 c.2.1
    (List.range 5).foldl (fun s w => s.setFld (Reg.cluWcfg t c.2.2 w) 1 0 (if img.pmask.testBit 0 then 3 else 2)) s) s

/-- The header of a full image has passed: it is the image being loaded. The merge sequences of the gateways, which no tile
group carries, are gone from here on; every other store takes its default when its tile is written (log 83). A golden image
leaves the stores as they are (R376). -/
def acceptHeader (ld : Load) : State :=
  let user := decide (ld.src < 3)
  let s := { s with lanes := if user then tdrop (fun k => k / (9 * 8 * 16 * 256 * 64) == 2) s.lanes else s.lanes,
                    image := if user then some ld.img else none }
  (s.setReg Reg.ceImgidLo (ld.imgId.setWidth 32)).setReg Reg.ceImgidHi (BitVec.ofNat 32 (ld.imgId.toNat / 2 ^ 32))

/-- The next region load: the first in order, once its drain is done (R406 step 3, R409). -/
def nextRegion : Option (Nat × RegionJob) :=
  let waiting := s.tiles.filterMap fun e => match e.2.job with
    | some j => if s.flag (Reg.rgnStat e.1) 28 then none else some (e.1, j)
    | none => none
  let first := waiting.foldl (fun o e => match o with
    | none => some e
    | some b => if e.2.order < b.2.order then some e else some b) none
  match first with
  | some e => if e.2.drained && !s.pm.pass.contains e.1 then some e else none
  | none => none

/-- The header frame of the load is read and checked (R370 steps 2 and 3). err is a read that fails; ecc describes the words of a read
from HBM. -/
def loadHeader (err : Bool) (ecc : List EccAt) : State :=
  let s := match s.load, s.nextRegion with
    | none, some (t, j) =>
      { (s.setFlag Reg.ceStat 24 true).applyClusterMap fun k => k / 72 == t with
        load := some (Load.start (some t) (if j.src = 1 then 5 else j.src - 1) j.base) }
    | _, _ => s
  match s.load with
  | none => s
  | some ld =>
    if ld.header ∨ s.fld Reg.ceStat 31 29 = 3 ∨ s.fld Reg.sprStat 31 29 = 1 ∨ s.readWaits ld = true then s
    else
      let s := if ld.region.isNone then s.setFld Reg.ceStat 28 26 ld.src else s
      let r := s.readFrame ld ecc
      match r.2 with
      | none =>
        if ld.src ≠ 5 ∧ s.slotState (ld.src - 1) ≠ 2 ∧ s.slotState (ld.src - 1) ≠ 3 then r.1.loadFail ld 7 0 none
        else r.1.loadRetry ld
      | some l =>
        if err ∨ !frameCrcOk l then r.1.loadRetry ld
        else
          match s.checkHeader ld l with
          | .error c => r.1.loadFail ld c 0 none
          | .ok ld => (if ld.region.isNone then r.1.acceptHeader ld else r.1).loadPass ld

end State

/-! ### Frames (R357, R365 to R367) -/

/-- The key of the next epoch (R367). -/
def nextKey (k : BitVec 256) (id : BitVec 64) (e : Nat) : BitVec 256 :=
  (hmacSha384 k (beBytes 4 1 ++ beBytes 6 0x58444C4B4559 ++ [0] ++ beBytes 8 id.toNat ++ beBytes 4 (e + 1) ++
    beBytes 4 0x100)).extractLsb' 128 256

/-- A frame is checked and decrypted (R370 step 4): the load with the plain records added to its stream, or the code. -/
def checkFrame (ld : Load) (l : List (BitVec 8)) : Except Nat Load :=
  let f := fieldBE l
  let last := ld.frame = ld.fcount
  let epoch := (ld.frame - 1) / 1024
  if f 0 4 ≠ ld.frame ∨ (f 4 1 ≠ 0 ∧ f 4 1 ≠ 2) ∨ f 8 4 ≠ epoch ∨ f 5 1 ≠ 0 ∨ !allZero ((l.drop 12).take 4) ∨
      !allZero ((l.drop 4072).take 20) ∨ 3992 < f 6 2 then .error 0x0A
  else if (f 4 1 = 2) ≠ last then .error 0x0B
  else if sha384 (l.take 4072) ≠ ld.hash then .error 8
  else
    let key := if epoch ≠ ld.epoch then nextKey ld.key ld.imgId ld.epoch else ld.key
    let iv := BitVec.ofNat 96 (ld.nonce.toNat * 2 ^ 32 + ld.frame)
    match aesGcmOpen key iv (l.take 16 ++ (l.drop 4008).take 48) ((l.drop 16).take 3992)
        (BitVec.ofNat 128 (f 4056 16)) with
    | none => .error 9
    | some p => .ok { ld with key := key, epoch := epoch, hash := BitVec.ofNat 384 (f 4008 48),
                              stream := ld.stream ++ p.take (f 6 2) }

/-! ### Records (R359 to R362) -/

/-- What a record does: the load goes on, fails with a code, or waits for a target that is not there yet, in a power domain
that has to wake where one is named. -/
inductive LoadOut where
  | ok (s : State) (ld : Load)
  | fail (s : State) (ld : Load) (code : Nat)
  | wait (dom : Option Nat)

/-- What a frame does: the load goes on, or has passed every check (done); it fails with a code, at a frame and a place; or it
waits. -/
inductive FrameOut where
  | ok (s : State) (ld : Load) (done : Bool)
  | fail (s : State) (ld : Load) (code frame : Nat) (bad : Option Bad)
  | wait (dom : Option Nat)

def rTx (w : BitVec 64) : Nat := bits w 63 61
def rTy (w : BitVec 64) : Nat := bits w 60 58
def rUnit (w : BitVec 64) : Nat := bits w 51 46

namespace State

variable (s : State)

/-- The physical tile of the gateway that a MERGE record names: routes may pass through every tile of the grade's last (R177). -/
def recGateway (w : BitVec 64) : Option Nat :=
  let g := gradeSize s.devIn.grade
  if s.devIn.grade < 3 ∧ rTx w < g.1 ∧ rTy w < g.2 then some (s.devIn.tileOf (rTx w) (rTy w)) else none

/-- The physical tile that a record names: one of the last of the image, and of a region image its own (R362). -/
def recTile (ld : Load) (w : BitVec 64) : Option Nat :=
  let here := s.devIn.tileOf (rTx w) (rTy w)
  match ld.region with
  | some t => if rTx w = ld.rtx ∧ rTy w = ld.rty ∧ here = t then some t else none
  | none => if rTx w < ld.img.lx ∧ rTy w < ld.img.ly then some here else none

/-- The physical cluster that a record names. -/
def recCluster (t : Nat) (w : BitVec 64) : Nat := 8 * physRow (s.srow t) (bits w 54 52) + bits w 57 55

/-- A change of one cluster. -/
def onClu (t c : Nat) (f : Cluster → Cluster) : State := s.setClu t c (f (s.clu t c))

/-- Whether the body of a tile record fits its store (R360). -/
def tileRecOk (r : ImgRec) : Bool :=
  let n := r.body.length
  let u := rUnit r.target
  match r.ty with
  | 1 => n % 10 == 0 && decide (bits r.target 9 0 + n / 10 ≤ 1024)
  | 2 => n % 16 == 0 && decide (bits r.target 7 0 + n / 16 ≤ 256) && decide (u < 4)
  | 3 => n % 4 == 0 && decide (bits r.target 9 0 + n / 4 ≤ 1024)
  | 4 => decide (2 ≤ n) && n == 2 + 2 * beNat (r.body.take 2) && decide (n ≤ 2050)
  | 5 => (bits r.target 45 43 == 1 && decide (bits r.target 9 0 + 8 * n ≤ 1024)) ||
      (bits r.target 45 43 == 5 && decide (bits r.target 9 0 + 8 * n ≤ 512))
  | 6 => n % 8 == 0 && decide (bits r.target 3 0 + n / 8 ≤ 16) && decide (u < 4)
  | 7 => n % 8 == 0 && decide (bits r.target 14 0 + n / 8 ≤ 32768) && decide (u < 16) && !(r.target.getLsbD 15 && n != 0)
  | _ => false

/-- The entries of a MERGE record. -/
def recEntries (r : ImgRec) : List (BitVec 16) :=
  (piecesOf 2 ((r.body.length - 2) / 2) (r.body.drop 2)).map fun p => BitVec.ofNat 16 (beNat p)

/-- A record of a tile group is written to its store (R98, R142, R360). -/
def writeTileRec (t : Nat) (r : ImgRec) : State :=
  let c := s.recCluster t r.target
  let u := rUnit r.target
  let bp := physUnit (s.bpSkips t c) u
  let wu := physUnit [s.wuSkip t c] u
  let n := r.body.length
  let put := fun (k : Nat) (f : Cluster → Nat → Nat → Cluster) (first : Nat) =>
    s.onClu t c fun x => ((piecesOf k (n / k) r.body).zipIdx).foldl (fun x p => f x (first + p.2) (beNat p.1)) x
  match r.ty with
  | 1 => put 10 (fun x k v => x.setIns bp k (BitVec.ofNat 80 v)) (bits r.target 9 0)
  | 2 => put 16 (fun x k v => x.setWu wu ((x.wu wu).setProg k (BitVec.ofNat 128 v))) (bits r.target 7 0)
  | 3 => put 4 (fun x k v => x.setLane k (BitVec.ofNat 24 v)) (bits r.target 9 0)
  | 5 =>
    let first := bits r.target 9 0
    s.onClu t c fun x => (List.range (8 * n)).foldl (fun x k =>
      let b := (r.body.getD (k / 8) 0).getLsbD (k % 8)
      if bits r.target 45 43 = 1 then { x with flop := putRowBit x.flop bp (first + k) b }
      else { x with consts := putRowBit x.consts bp (first + k) b }) x
  | 6 => put 8 (fun x k v => x.setWu wu ((x.wu wu).setR k (BitVec.ofNat 64 v))) (bits r.target 3 0)
  | _ => s

/-- A bank's content is written, or, in a region image, put aside until the join (R231, R232). -/
def writeBankRec (t : Nat) (region : Bool) (r : ImgRec) : State :=
  let b := rUnit r.target
  let words := (piecesOf 8 (r.body.length / 8) r.body).zipIdx
  if region then
    let x := (s.tile t).stash.getD BankStash.empty
    let x := if r.target.getLsbD 15 then { x with keep := setBit x.keep b true } else x
    let cells := words.foldl (fun m p =>
      Memory.putN m (2 ^ 18 * b + 8 * (bits r.target 14 0 + p.2)) (bytesOf 8 (beNat p.1))) x.cells
    s.setTile t { s.tile t with stash := some { x with cells := cells } }
  else words.foldl (fun s p => s.setSpWord t b (bits r.target 14 0 + p.2) 0xFF (BitVec.ofNat 64 (beNat p.1))) s

/-- The sequences of the MERGE records of the open tile group; a record for an output lane outside R152 has no effect
(log 79). -/
def groupSeqs (ld : Load) : RefSeqs :=
  ld.parts.filterMap fun r =>
    let l := routerLane 0 (bits r.target 44 41) (bits r.target 40 38) (bits r.target 37 34) (bits r.target 33 27)
    if r.ty = 4 ∧ laneExists l = true then some ((l.row, l.col, l.out, l.lane), recEntries r) else none

/-- The idle word stands in every slot of a tile's BPs from L on (R58). -/
def idleBeyond (t : Nat) : State :=
  { s with clus := tmap (fun _ => Cluster.empty) (fun x => x) (s.clus.map fun (e : Nat × Cluster) =>
      if e.1 / 72 = t then (e.1, { e.2 with ins := tdrop (fun k => decide (s.len ≤ k % 1024)) e.2.ins }) else e) }

/-- A tile is written, at the TEND of its group or, without one, at the end of the image: its placement, its stores with the
defaults of what the image does not give, its banks, its placed routers (R98, R142, R168, R204, R231, R232, R361, R371). -/
def writeTile (t tx ty : Nat) (ld : Load) : State :=
  let region := ld.region.isSome
  let s := (if region then s else s.placeFields ld.img t tx ty).placeClusters ld.img t
  let s := (List.range 72).foldl (fun s c => s.setClu t c (s.clu t c).cleared) s
  let s := if region then
      s.setTile t { s.tile t with stash := some ((s.tile t).stash.getD BankStash.empty), imgId := ld.imgId }
    else { s.setTile t { s.tile t with imgId := ld.imgId } with spad := tdrop (fun a => a / 2 ^ 22 == t) s.spad }
  let s := ld.parts.foldl (fun s r =>
    if r.ty = 4 then s else if r.ty = 7 then s.writeBankRec t region r else s.writeTileRec t r) s
  s.placeTile t (groupSeqs ld)

/-- The first breach of R185 in the tile group that closes, as the output lane and the entry that the fault record names. -/
def groupMisuse (t : Nat) (ld : Load) : Option (LaneId × Nat) :=
  (misuseOf (s.srow t) (groupSeqs ld)).map fun b => (routerLane t b.1.1 b.1.2.1 b.1.2.2.1 b.1.2.2.2, b.2)

/-- HBM content is written; what lies in a FAILED controller is skipped (R258, R372). -/
def writeHbmRec (ld : Load) (a : Nat) (l : List (BitVec 8)) : LoadOut :=
  let st := if l.isEmpty then [] else s.hbmStates a (l.length - 32)
  if hbmTop < a + l.length ∨ st.any (fun e => e.2 ≠ 1 ∧ e.2 ≠ 2 ∧ e.2 ≠ 5) = true then .fail s ld 0x0D
  else if st.any (fun e => e.2 = 1) = true then .wait none
  else
    let bad := (List.range 6).filter fun m => st.contains (m, 5)
    let ld := { ld with skipped := bad.foldl (fun t m => tput (fun _ => 0) m (tget (fun _ => 0) t m + 1) t) ld.skipped }
    .ok ((List.range (l.length / 32)).foldl (fun s k =>
      if s.mcState (s.hbmPlace (a + 32 * k)).1 = 5 then s else s.hbmWriteNow (a + 32 * k) ((l.drop (32 * k)).take 32) []) s) ld

/-- A FILL record (R360). -/
def writeFill (ld : Load) (w : BitVec 64) (n : Nat) : LoadOut :=
  let a := bits w 45 0
  if bits w 47 46 = 2 then
    if a % 32 ≠ 0 ∨ n % 32 ≠ 0 then .fail s ld 0x0C else s.writeHbmRec ld a (List.replicate n 0)
  else if bits w 47 46 = 1 then
    let addr := BitVec.ofNat 48 (2 ^ 46 + a)
    let t := if aPh addr then tileAt (aX addr) (aY addr)
      else if aX addr < ld.img.lx ∧ aY addr < ld.img.ly then some (s.devIn.tileOf (aX addr) (aY addr)) else none
    match t with
    | some t =>
      if a % 8 ≠ 0 ∨ n % 8 ≠ 0 ∨ bits w 36 22 ≠ 0 ∨ 2 ^ 22 < a % 2 ^ 22 + n then .fail s ld 0x0C
      else
        let lo := 2 ^ 22 * t + a % 2 ^ 22
        .ok { s with spad := tdrop (fun k => decide (lo ≤ k ∧ k < lo + n)) s.spad } ld
    | none => .fail s ld 0x0C
  else .fail s ld 0x0C

/-- The register that a REGS pair names, when its address keeps to R361 and, of a region image, to its own tile (R362). -/
def pairKey (ld : Load) (a : Nat) : Option Nat :=
  let w := BitVec.ofNat 48 a
  if 2 ^ 48 ≤ a ∨ aSpace w ≠ 0 ∨ bits w 36 20 ≠ 0 ∨ a % 4 ≠ 0 then none
  else
    let node := if aPh w then (if aX w ≤ 9 ∧ aY w ≤ 9 ∧ nodeKind (10 * aY w + aX w) ≠ .empty then some (10 * aY w + aX w) else none)
      else if ld.region.isSome then (s.physTile (aX w) (aY w)).map tileNode
      else if aX w < ld.img.lx ∧ aY w < ld.img.ly then some (tileNode (s.devIn.tileOf (aX w) (aY w))) else none
    match node, ld.region with
    | some n, none => some (0x100000 * n + aOff w)
    | some n, some t => if n = tileNode t then some (0x100000 * n + aOff w) else none
    | none, _ => none

/-- A REGS pair of a region image: RGN and WLT registers are not written (R416); the bank owners with their engines, the user sets
and the probe table wait for the join (R232, R481); every other register is written at once. -/
def regionPair (wr : State → Nat → BitVec 32 → State) (t k : Nat) (v : BitVec 32) : State :=
  let o := k % 0x100000
  let bank := decide (0x60000 ≤ o ∧ o < 0x60400)
  if 0x70000 ≤ o ∧ o < 0x80000 then s
  else if (bank && (o % 0x40 == 0 || o % 0x40 == 8 || o % 0x40 == 12)) || decide (0xE0000 ≤ o ∧ o < 0xE8000) then
    let x := (s.tile t).stash.getD BankStash.empty
    let m : BitVec 32 := match rowAt k with
      | some r => BitVec.ofNat 32 (r.rw ||| r.img)
      | none => 0
    let m := if bank && o % 0x40 == 0 then 0xF7#32 else m
    s.setTile t { s.tile t with stash := some { x with regs := tput (fun _ => none) k (some ((resetWord k &&& ~~~m) ||| (v &&& m))) x.regs } }
  else wr s k v

/-- The pairs of a REGS record are written in order (R361). A pair into an ordinary domain that has no power waits until it
wakes (R287); one into a domain that has failed, or into a privileged one that is not on, ends with a response other than
OK. -/
def writePairs (wr : State → Nat → BitVec 32 → State) (ld : Load) : List (List (BitVec 8)) → State → LoadOut
  | [], s => .ok s ld
  | p :: rest, s =>
    match s.pairKey ld (beNat (p.take 8)) with
    | none => .fail s ld 0x0C
    | some k =>
      let v := BitVec.ofNat 32 (beNat (p.drop 8))
      let go := fun (s : State) => writePairs wr ld rest (match ld.region with
        | some t => s.regionPair wr t k v
        | none => wr s k v)
      match s.winNeeds (k / 0x100000) (k % 0x100000) (if k % 0x100000 = 0x50010 then some (v.getLsbD 29) else none) with
      | none => go s
      | some d =>
        match s.domState d with
        | 2 => go s
        | 6 => .fail s ld 0x0D
        | 3 => if privileged d then .fail s ld 0x0D else go (s.cancelDown d)
        | _ => if privileged d then .fail s ld 0x0D else .wait (some d)

/-- Whether the body of an END record agrees with the image (R360, R375). -/
def endAgrees (ld : Load) (b : List (BitVec 8)) : Bool :=
  b.length == 16 && beNat (b.take 8) == ld.imgId.toNat && fieldBE b 8 4 == ld.fcount && fieldBE b 12 4 == ld.recs

/-- A port record takes effect (R181, R316): the merge sequences of its gateway, the far end, and the neighbours. -/
def placePort (port : Nat) (r : Config.PortRecord) : State :=
  let s := r.merges.foldl (fun s m => s.loadLane (gatewayLane (portTile port) m.1 m.2.1) m.2.2) s
  { s with fab := { s.fab with peers := tput (fun _ => none) port r.far s.fab.peers },
           seq := { s.seq with neigh := r.neigh.foldl (fun l a => if l.contains a then l else l ++ [a]) s.seq.neigh } }

/-- A record is executed (R360 to R362). -/
def doRecord (wr : State → Nat → BitVec 32 → State) (ld : Load) (r : ImgRec) : LoadOut :=
  let next := { ld with recs := ld.recs + 1 }
  let outside := ld.group.isNone
  let full := ld.region.isNone
  let gw := r.ty = 4 ∧ r.target.getLsbD 45 = true
  if (1 ≤ r.ty ∧ r.ty ≤ 7) ∧ ¬ gw then
    match s.recTile ld r.target with
    | some t => if ld.group = some t ∧ tileRecOk r then .ok s { next with parts := ld.parts ++ [r] } else .fail s ld 0x0C
    | none => .fail s ld 0x0C
  else if r.ty = 0x0B then
    match s.recTile ld r.target with
    | some t => if outside ∧ ld.groups.contains t = false then
        .ok s { next with group := some t, groups := t :: ld.groups, parts := [] } else .fail s ld 0x0C
    | none => .fail s ld 0x0C
  else if r.ty = 0x0C then
    match s.recTile ld r.target with
    | some t =>
      if ld.group ≠ some t then .fail s ld 0x0C
      else if s.domState t = 6 then .fail s ld 0x0D
      else .ok (s.writeTile t (rTx r.target) (rTy r.target) ld)
        { next with group := none, parts := [], misuse := ld.misuse ++ (s.groupMisuse t ld).toList }
    | none => .fail s ld 0x0C
  else if !outside then .fail s ld 0x0C
  else if r.ty = 0x0A then
    if r.body.length % 12 = 0 then writePairs wr next (piecesOf 12 (r.body.length / 12) r.body) s else .fail s ld 0x0C
  else if r.ty = 0x7F then .ok s { ld with ended := some (endAgrees ld r.body) }
  else if !full then .fail s ld 0x0C
  else if gw then
    match s.recGateway r.target with
    | some t => if tileRecOk r then
        .ok (s.placeGateway t (bits r.target 37 34) (bits r.target 33 27) (recEntries r)) next else .fail s ld 0x0C
    | none => .fail s ld 0x0C
  else if r.ty = 8 then
    if bits r.target 45 0 % 32 = 0 ∧ r.body.length % 32 = 0 then s.writeHbmRec next (bits r.target 45 0) r.body
    else .fail s ld 0x0C
  else if r.ty = 9 then
    if r.body.length = 8 then s.writeFill next r.target (beNat r.body) else .fail s ld 0x0C
  else if r.ty = 0x0D then
    .ok (s.placePort (bits r.target 2 0) (Config.portRecord r.body)) { next with ports := ld.ports ++ [(bits r.target 2 0, r.body)] }
  else .fail s ld 0x0C

/-- The records that the stream holds whole are executed in order, up to the END record; n bounds their number. -/
def doStream (wr : State → Nat → BitVec 32 → State) : Nat → State → Load → LoadOut
  | 0, s, ld => .ok s ld
  | n + 1, s, ld =>
    let l := ld.stream
    if ld.ended.isSome ∨ l.length < 16 then .ok s ld
    else
      let blen := fieldBE l 4 4
      let total := 16 + (blen + 7) / 8 * 8
      if !allZero ((l.drop 1).take 3) then .fail s ld 0x0A
      else if l.length < total then .ok s ld
      else
        let r : ImgRec := { ty := fieldBE l 0 1, target := BitVec.ofNat 64 (fieldBE l 8 8), body := (l.drop 16).take blen }
        match s.doRecord wr { ld with stream := l.drop total } r with
        | .ok s ld => doStream wr n s ld
        | o => o

/-! ### The end of a load (R316, R370 step 5) -/

/-- Lane-bytes that a receiving port-side lane of a gateway delivers in a cycle. -/
def rxOf (ld : Load) (t lane : Nat) : Nat :=
  match ld.ports.find? fun p => portTile p.1 = t with
  | some p => (Config.portRecord p.2).rx.getD lane 0
  | none => 0

/-- Whether a port that the image uses names another far end than the image expects (R316). -/
def peerWrong : Bool :=
  (List.range 8).any fun p =>
    match tget (fun _ => none) s.fab.peers p with
    | some a => s.flag (Reg.lnkPeer p) 31 && s.fld (Reg.lnkPeer p) 26 16 != a
    | none => false

/-- The code of step 5.1 (R375): a group not closed, a record that does not end, no END record, content after it, or one that
does not agree with the image; 0 where the stream closes as it should. -/
def endCode (ld : Load) : Nat :=
  if ld.group.isSome then 0x0C
  else match ld.ended with
    | none => if ld.stream.isEmpty then 0x0B else 0x0C
    | some ok => if ok && ld.stream.isEmpty then 0 else 0x0B

/-- The tiles whose stores a load writes: that of a region load, or the image's last. -/
def loadTiles (ld : Load) : List Nat :=
  match ld.region with
  | some t => [t]
  | none => (List.range ld.img.ly).flatMap fun y => (List.range ld.img.lx).map fun x => s.devIn.tileOf x y

/-- What the image gives nothing for takes its default (R98, R142, R168, R231, R361; log 83): its last tiles without a tile group are
written with nothing in them, the banks of the other tiles are zero-filled, and the routers of the other tiles have no merge
sequence. A golden image places no last tile and leaves the stores alone (R376). -/
def writeRest (ld : Load) : State :=
  match ld.region with
  | some t => (if ld.groups.contains t then s else s.writeTile t ld.rtx ld.rty { ld with parts := [] }).idleBeyond t
  | none =>
    let last := (List.range ld.img.ly).flatMap fun y => (List.range ld.img.lx).map fun x => (s.devIn.tileOf x y, x, y)
    let other := fun (t : Nat) => !last.any fun e => e.1 == t
    let s := last.foldl (fun s e =>
      (if ld.groups.contains e.1 then s else s.writeTile e.1 e.2.1 e.2.2 { ld with parts := [] }).idleBeyond e.1) s
    let s := { s with spad := tdrop (fun a => other (a / 2 ^ 22)) s.spad }
    if ld.src < 3 then
      let s := { s with lanes := tdrop (fun k => decide (k / 294912 < 128) && other (k / 294912 % 64)) s.lanes }
      (List.range 64).foldl (fun (s : State) t => if other t then s.setFld (Reg.tilePlace t) 19 18 ld.img.aprof else s) s
    else s

/-- Every frame has passed: the checks of step 5 in order. The state with the padding, or the code and its place. A region
image that is refused leaves TILE_PAD as it was (R204). -/
def endChecks (ld : Load) (ports : Bool) : Except (Nat × Option Bad) State :=
  let full := ld.region.isNone && decide (ld.src < 3)
  if endCode ld ≠ 0 then .error (endCode ld, none)
  else if full ∧ (s.fld Reg.seqCtrl 12 8 = 0 ∨ 16 < s.fld Reg.seqCtrl 12 8) then .error (0x0C, none)
  else if (s.loadTiles ld).any (fun t => s.domState t == 6 && !ld.groups.contains t) then .error (0x0D, none)
  else
    let s := s.writeRest ld
    match ld.region with
    | some t =>
      let bad : Except Bad State := do
        let s := (s.setFld (Reg.rgnStat t) 31 30 1).setFld (Reg.tilePad t) 15 0 0
        match ld.misuse with
        | b :: _ => .error ⟨0x14, b.1, b.2⟩
        | [] => do
          let s ← s.padTile (fun _ _ => 0) t
          s.padBorder t
      match bad with
      | .error b => .error (b.code, some b)
      | .ok s' => .ok (s'.setFld (Reg.rgnStat t) 31 30 (s.rgnState t))
    | none =>
      let checked : Except (Nat × Option Bad) State :=
        if full then
          match s.passFused.passFused.passFused.passFused.padAll (rxOf ld) ld.img ld.misuse with
          | .error b => .error (b.code, some b)
          | .ok s => .ok s
        else .ok s
      match checked with
      | .error e => .error e
      | .ok s => if ports && s.peerWrong then .error (0x18, none) else .ok s

/-- A frame has been read: it is checked and its records are executed; the last frame ends the load (R370 steps 4 and 5).
A code found after the frames names frame 0 (R393). -/
def doFrame (wr : State → Nat → BitVec 32 → State) (ld : Load) (l : List (BitVec 8)) (ports : Bool) : FrameOut :=
  match checkFrame ld l with
  | .error c => .fail s ld c ld.frame none
  | .ok ld =>
    match doStream wr (ld.stream.length + 1) s ld with
    | .wait d => .wait d
    | .fail s ld c => .fail s ld c ld.frame none
    | .ok s ld =>
      if ld.frame < ld.fcount then .ok s { ld with frame := ld.frame + 1 } false
      else
        match s.endChecks ld ports with
        | .error (c, b) => .fail s ld c 0 b
        | .ok s => .ok s ld true

/-- The tiles whose stores the load is to write and whose domain has no power yet: the loader's writes wake them (R287,
R410). -/
def loadDark (ld : Load) : List Nat := (s.loadTiles ld).filter fun t => s.domState t = 0 ∨ s.domState t = 1 ∨ s.domState t = 4

end State

end Sys2Proof.Machine
end

