-- ==== Sys2Proof/Machine/Service.lean ====
section
/-! DEFINITION. What the service engines do (R424 to R427, R434, R435, R439, R441 to R443, R447). A task's work is one command;
its accesses follow the checks of every master's (R275, R276, R282), and the code it is to end with stays with the engine
until TASK_END. -/

namespace Sys2Proof.Machine

/-- An engine at work: the state, the first response other than OK (0: none yet), an access that has to wait for its target,
whether a read met an uncorrected error, and the number of accesses made. -/
structure Eng where
  s : State
  code : Nat
  wait : Bool
  ue : Bool
  n : Nat

def Eng.start (s : State) : Eng := { s := s, code := 0, wait := false, ue := false, n := 0 }

/-- Whether the engine goes on. -/
def Eng.on (x : Eng) : Bool := x.code == 0 && !x.wait

namespace State

variable (s : State)

/-- A request of engine e for task d. -/
def engPacket (e d : Nat) (wr : Bool) (a : BitVec 48) : Packet :=
  { dx := 0, dy := 0, sx := ssNode % 10, sy := ssNode / 10, mid := e, ctx := s.dCtx d, cmd := b2n wr, cls := 2, len := 1,
    slot := 0, gen := 0, addr := a, resp := 0, peek := false, q := false, be := 0xFF, data := [] }

/-- A violation of an engine's request: recorded, and its interface freezes (R283). -/
def engViolate (e : Nat) (pk : Packet) (cause : Nat) (tgt : Option Nat) : State :=
  let s := s.recordViolation ssNode e pk cause tgt
  s.setMaster ssNode e { s.master ssNode e with frozen := true, bad := some (respOf pk ssNode (violResp cause) []) }

/-- A request of master mid of a node has met m, as engMeets codes it: a violation is recorded and freezes the interface (R283). -/
def masterViolates (node mid : Nat) (pk : Packet) (m : Nat) : State :=
  if m < 16 then s
  else
    let c := if m < 32 then m - 16 else m - 32
    let s := s.recordViolation node mid pk c (if m < 32 then none else s.destOf pk.addr)
    s.setMaster node mid { s.master node mid with frozen := true, bad := some (respOf pk node (violResp c) []) }

/-- What a request of an engine meets before it is served: 0 nothing, 8 a wait (for a domain, a lock, a region, or the accesses a
bank accepted before it, R215), 9 a wait that cancels a power-down, a response
code, or a violation (16 + cause found by the interface, 32 + cause found by the target). -/
def engMeets (pk : Packet) : Nat :=
  let f := formatCause pk
  let c := s.contextCause pk
  if f ≠ 0 then 16 + f
  else if c ≠ 0 then 16 + c
  else if aSpace pk.addr = 2 then
    if hbmTop ≤ (hbmSpan pk).2 then 1
    else match s.mcState (s.hbmPlace (hbmSpan pk).1).1 with
      | 2 => 0
      | 1 => 8
      | 5 => 1
      | _ => 2
  else
    match s.destOf pk.addr with
    | none => 1
    | some n =>
      match s.admission n pk with
      | 0 => if aSpace pk.addr = 1 then
          (match tileAt (n % 10) (n / 10) with
            | some t => if !s.nocMayUse t (aBank pk.addr) pk then 33 else if s.bankInfl t (aBank pk.addr) ≠ 0 then 8 else 0
            | none => 0) else 0
      | 1 => 8
      | 2 => 2
      | 3 => 1
      | _ => if (s.arriving n pk).admission n pk = 0 then 9 else 8

end State

/-- An access passes its checks, or stops the engine; serve does it. stop names an access that the network answers with BUSY,
TIMEOUT or another code. -/
def Eng.access (x : Eng) (e : Nat) (pk : Packet) (stop : Option (Nat × Nat)) (serve : State → State × Bool) : Eng :=
  if !x.on then x
  else
    let hit := match stop with
      | some (i, c) => if i = x.n ∧ 1 ≤ c ∧ c ≤ 7 then c else 0
      | none => 0
    if hit ≠ 0 then { x with code := hit }
    else
      match x.s.engMeets pk with
      | 0 =>
        let s := match (x.s.destOf pk.addr).bind (fun n => tileAt (n % 10) (n / 10)) with
          | some t => x.s.rangeUnits t pk false
          | none => x.s
        let r := serve s
        { x with s := r.1, ue := x.ue || r.2, n := x.n + 1 }
      | 8 => { x with wait := true }
      | 9 =>
        match (x.s.destOf pk.addr).bind State.domainOf with
        | some k =>
          let s := x.s.cancelDown k
          let r := serve s
          { x with s := r.1, ue := x.ue || r.2, n := x.n + 1 }
        | none => x
      | m =>
        if m < 8 then { x with code := m }
        else if m < 32 then { x with s := x.s.engViolate e pk (m - 16) none, code := State.violResp (m - 16) }
        else { x with s := x.s.engViolate e pk (m - 32) (x.s.destOf pk.addr), code := State.violResp (m - 32) }

/-- The 32 bytes at a data address are read at once: the state after, the four words as read, each checked, and whether one has an
uncorrected error. -/
def State.engFetch (s : State) (a : BitVec 48) (ecc : List EccAt) : State × List (BitVec 64) × Bool :=
  if aSpace a = 2 then s.hbmReadNow (aHbm a) 4 1 ecc
  else
    match (s.destOf a).bind (fun n => tileAt (n % 10) (n / 10)) with
    | some t => ((List.range 4).foldl (fun s i => s.bankRead t (aBank a) (aWord a + i) 1 (eccOf ecc i)) s,
        s.readWords t (aBank a) (aWord a) ecc 0 4, anyUe ecc 4)
    | none => (s, [], false)

/-- 32 bytes are written. -/
def State.engPut (s : State) (a : BitVec 48) (w : List (BitVec 64)) : State :=
  if aSpace a = 2 then s.hbmWriteNow (aHbm a) (w.flatMap fun v => bytesOf 8 v.toNat) []
  else
    match (s.destOf a).bind (fun n => tileAt (n % 10) (n / 10)) with
    | some t => (w.zipIdx).foldl (fun s p => s.setSpWord t (aBank a) (aWord a + p.2) 0xFF p.1) s
    | none => s

/-- Engine e reads 32 bytes for task d; the words are those before the access. -/
def Eng.read (x : Eng) (e d : Nat) (a : BitVec 48) (ecc : List EccAt) (stop : Option (Nat × Nat)) : Eng × List (BitVec 64) :=
  let l := eccFrom ecc (4 * x.n)
  (x.access e (x.s.engPacket e d false a) stop fun s => ((s.engFetch a l).1, (s.engFetch a l).2.2), (x.s.engFetch a l).2.1)

/-- Engine e writes 32 bytes for task d. -/
def Eng.write (x : Eng) (e d : Nat) (a : BitVec 48) (w : List (BitVec 64)) (stop : Option (Nat × Nat)) : Eng :=
  x.access e (x.s.engPacket e d true a) stop fun s => (s.engPut a w, false)

/-- An uncorrected error ends every task but COPY (R435). -/
def Eng.strict (x : Eng) : Eng := if x.on && x.ue then { x with code := 5 } else x

/-- Words of 32 bytes whose byte 0 is the lowest of word 0, and back (log 16). -/
def wordsOfBytes (l : List (BitVec 8)) : List (BitVec 64) := (piecesOf 8 4 l).map fun p => BitVec.ofNat 64 (wordOf p)
def bytesOfWords (w : List (BitVec 64)) : List (BitVec 8) := w.flatMap fun v => bytesOf 8 v.toNat

/-- The address i * 32 bytes further on. -/
def atChunk (a i : Nat) : BitVec 48 := BitVec.ofNat 48 (a + 32 * i)

/-- COPY: chunk by chunk (R424). -/
def Eng.copy (e d src dst : Nat) (ecc : List EccAt) (stop : Option (Nat × Nat)) (n : Nat) (x : Eng) : Eng :=
  (List.range n).foldl (fun x i =>
    if x.on then
      let r := x.read e d (atChunk src i) ecc stop
      r.1.write e d (atChunk dst i) r.2 stop
    else x) x

namespace State

variable (s : State)

/-- The task in an engine, when it is of a type and its work has not been done. -/
def engTask (e ty : Nat) : Option Nat :=
  if e < 16 ∧ s.engBusy e = true ∧ s.dType (s.engCur e) = ty ∧ s.engResult e = none ∧
      (s.master ssNode e).frozen = false then some (s.engCur e) else none

/-- The work of an engine is over, or its target is still to come (nothing changes then). -/
def engDone (e : Nat) (x : Eng) : State :=
  if x.wait then s else x.s.setResult e (if x.code ≠ 0 then x.code else if x.ue then 5 else 0)

/-- Whether a user image is loaded: types other than COPY, FILL, HOST_NOTIFY and TRIGGER_ARM need one (R439, R447). -/
def userLoaded : Bool := s.fld Reg.ceStat 31 29 == 4 && s.image.isSome

/-! ### State addresses (R425) -/

/-- The control-space request that reaches a cluster's stores. -/
def cluPacket (e d t c : Nat) (wr : Bool) : Packet :=
  s.engPacket e d wr (BitVec.ofNat 48 (tileNode t % 10 * 2 ^ 42 + tileNode t / 10 * 2 ^ 38 + 2 ^ 37 + 0x80000 + 0x800 * c))

/-- Engine e reads the 64-bit value at a state address of physical cluster c of tile t through the cluster's access registers
(R84, R425): 64 flop entries are two accesses. -/
def statePeek (e t c : Nat) (w : BitVec 32) : State × BitVec 64 :=
  let pw := physUnit [s.wuSkip t c] (bits w 13 12)
  match bits w 19 18 with
  | 0 =>
    let p := physUnit (s.bpSkips t c) (bits w 17 12)
    let k := bits w 11 2
    let s1 := s.cluAccess (.engine e) t c (accCmd false 1 p k)
    let s2 := s1.cluAccess (.engine e) t c (accCmd false 1 p (k + 32))
    (s2, s2.reg (Reg.cluAccD0 t c) ++ s1.reg (Reg.cluAccD0 t c))
  | 1 =>
    let s := s.wuAccess (.engine e) t c pw (accCmd false 1 0 (bits w 5 2))
    (s, s.reg (Reg.cluWaccD1 t c pw) ++ s.reg (Reg.cluWaccD0 t c pw))
  | _ =>
    let s := s.wuAccess (.engine e) t c pw (accCmd false 3 0 0)
    (s, (s.reg (Reg.cluWaccD0 t c pw)).setWidth 64)

/-- Engine e's masked write at a state address, through the access registers (R84, R424). -/
def stateForce (e t c : Nat) (w : BitVec 32) (v m : BitVec 64) : State :=
  let x := s.clu t c
  let pw := physUnit [s.wuSkip t c] (bits w 13 12)
  let u := x.wu pw
  let mix := fun (old : BitVec 64) => (old &&& ~~~m) ||| (v &&& m)
  match bits w 19 18 with
  | 0 =>
    let p := physUnit (s.bpSkips t c) (bits w 17 12)
    let k := bits w 11 2
    let d := mix ((rowOf x.flop p).extractLsb' k 64)
    (s.flopPut (.engine e) t c p k (d.setWidth 32)).flopPut (.engine e) t c p (k + 32) (d.extractLsb' 32 32)
  | 1 => s.wuRegPut (.engine e) t c pw (bits w 5 2) (mix (u.reg (bits w 5 2)))
  | _ => s.wuCarryPut (.engine e) t c pw ((mix (BitVec.ofNat 64 (b2n u.c))).getLsbD 0)

/-- The physical tile and cluster of a state address. -/
def stateTile (w : BitVec 32) : Option (Nat × Nat) :=
  (s.physTile (bits w 31 29) (bits w 28 26)).map fun t =>
    (t, 8 * physRow (s.fld (Reg.tilePlace t) 23 20) (bits w 22 20) + bits w 25 23)

/-- FORCE (R427); it waits while another access to the cluster's stores is in progress (R84). -/
def doForce (e d : Nat) (stop : Option (Nat × Nat)) : State :=
  let w := s.dword d 4
  match s.stateTile w with
  | some (t, c) =>
    if !s.userLoaded then s.setResult e 0x12
    else if s.cluBusy t c then s
    else
      s.engDone e ((Eng.start s).access e (s.cluPacket e d t c true) stop fun s =>
        let s := s.stateForce e t c w (BitVec.ofNat 64 (s.dpair d 6)) (BitVec.ofNat 64 (s.dpair d 8))
        (if s.dBar d then s else s.loss 1, false))
  | none => s.setResult e 0x12

/-- The 32 bytes of a PEEK's result (R426). -/
def peekBytes (d : Nat) (v : BitVec 64) : List (BitVec 8) :=
  beBytes 8 v.toNat ++ beBytes 8 s.seq.cycle.toNat ++ beBytes 1 (b2n (s.dBar d)) ++
    List.replicate 15 0

/-- PEEK (R426); it waits as FORCE does. -/
def doPeek (e d : Nat) (stop : Option (Nat × Nat)) : State :=
  match s.stateTile (s.dword d 4) with
  | some (t, c) =>
    if !s.userLoaded then s.setResult e 0x12
    else if s.cluBusy t c then s
    else
      let r := s.statePeek e t c (s.dword d 4)
      let x := (Eng.start s).access e (s.cluPacket e d t c false) stop fun s => ((s.statePeek e t c (s.dword d 4)).1, false)
      s.engDone e (x.write e d (atChunk (s.dpair d 10) 0) (wordsOfBytes (s.peekBytes d r.2)) stop)
  | none => s.setResult e 0x12

/-! ### Checkpoints (R439, R442, R443) -/

/-- The tiles of a mask, as (tx, ty), in ascending order of 8 * ty + tx. -/
def maskTiles (m : BitVec 64) : List (Nat × Nat) :=
  ((List.range 64).filter fun k => m.getLsbD k).map fun k => (k % 8, k / 8)

/-- Bytes of a tile section. -/
def sectionSize : Nat := 4984832

/-- 4,096 bytes: the head, zeros, and the CRC in the last four (R354, R442). -/
def sealHead (l : List (BitVec 8)) : List (BitVec 8) :=
  let l := l ++ List.replicate (4092 - l.length) 0
  l ++ beBytes 4 (crc32 l).toNat

/-- The header of a checkpoint. -/
def ckHeader (banks : Bool) (mask : BitVec 64) : List (BitVec 8) :=
  sealHead (beBytes 4 0x58434B50 ++ beBytes 2 1 ++ beBytes 1 (b2n banks) ++ [0] ++
    beBytes 8 (s.pair Reg.ceImgidLo Reg.ceImgidHi) ++ beBytes 8 s.seq.cycle.toNat ++ beBytes 8 mask.toNat ++
    beBytes 2 s.len ++ beBytes 1 (s.fld (Reg.tilePlace 0) 19 18) ++ beBytes 1 (2 ^ s.devIn.grade) ++
    beBytes 4 (maskTiles mask).length)

/-- The banks of a tile that a checkpoint with BANKS = 1 saves. -/
def ckBanks (t : Nat) (banks : Bool) : BitVec 16 :=
  BitVec.ofNat 16 (numOf (fun b => banks && s.bankOwn t b == 1) 16)

/-- The head of a tile section. -/
def ckTileHead (tx ty t : Nat) (banks : Bool) : List (BitVec 8) :=
  sealHead (beBytes 1 tx ++ beBytes 1 ty ++ List.replicate 6 0 ++ beBytes 8 (s.tile t).imgId.toNat ++
    beBytes 2 (s.ckBanks t banks).toNat)

/-- Byte m, most significant first, of an n-byte number. -/
def byteBE (n m v : Nat) : BitVec 8 := BitVec.ofNat 8 (v / 256 ^ (n - 1 - m))

/-- Byte r of the record of physical cluster c of tile t. -/
def ckCluster (t c r : Nat) : BitVec 8 :=
  let x := s.clu t c
  if r < 8192 then (rowOf x.flop (physUnit (s.bpSkips t c) (r / 128))).extractLsb' (8 * (r % 128)) 8
  else
    let u := x.wu (physUnit [s.wuSkip t c] ((r - 8192) / 1024))
    let q := (r - 8192) % 1024
    if q < 128 then byteBE 8 (q % 8) (u.reg (q / 8)).toNat
    else if q < 136 then byteBE 8 (q - 128) (b2n u.c + u.q0.length * 2 ^ 8 + u.q1.length * 2 ^ 16)
    else if 256 ≤ q ∧ q < 768 then
      match (u.queue ((q - 256) / 256))[(q - 256) % 256 / 16]? with
      | some n =>
        let m := (q - 256) % 16
        if m < 8 then byteBE 8 m n.data.toNat else if m = 8 then BitVec.ofNat 8 (n.state * 16 + b2n n.wr) else 0
      | none => 0
    else 0

/-- 32 bytes of a tile section before its banks, from byte o on. -/
def ckBytes (tx ty t o : Nat) (banks : Bool) : List (BitVec 8) :=
  if o < 4096 then ((s.ckTileHead tx ty t banks).drop o).take 32
  else (List.range 32).map fun i =>
    let b := o + i - 4096
    let k := b / 12288
    s.ckCluster t (8 * physRow (s.srow t) (k / 8) + k % 8) (b % 12288)

/-- What reading a tile's clusters leaves in their access registers (R84): the accesses are made in ascending order, of which the
last of each register set stands (log 84). -/
def ckReadRegs (e t : Nat) : State :=
  (List.range 64).foldl (fun s k =>
    let c := 8 * physRow (s.srow t) (k / 8) + k % 8
    let s := s.cluAccess (.engine e) t c (accCmd false 1 (physUnit (s.bpSkips t c) 63) 992)
    (List.range 4).foldl (fun s w => s.wuAccess (.engine e) t c (physUnit [s.wuSkip t c] w) (accCmd false 4 0 31)) s) s

/-- Whether an access to a store of a tile of a mask is in progress. -/
def ckBusy (mask : BitVec 64) : Bool :=
  (maskTiles mask).any fun p => match s.physTile p.1 p.2 with
    | some t => (List.range 72).any fun c => s.cluBusy t c
    | none => false

/-- A tile section is written at address a: head and clusters, then the banks it saves, read through the banks' ports. -/
def ckSection (e d a tx ty t : Nat) (banks : Bool) (ecc : List EccAt) (stop : Option (Nat × Nat)) (x : Eng) : Eng :=
  let x := (List.range (790528 / 32)).foldl (fun x i =>
    if x.on then x.write e d (atChunk a i) (wordsOfBytes (x.s.ckBytes tx ty t (32 * i) banks)) stop else x) x
  let x := if x.on then { x with s := x.s.ckReadRegs e t } else x
  (List.range 16).foldl (fun x b =>
    if x.on && (x.s.ckBanks t banks).getLsbD b then
      (List.range 8192).foldl (fun x i =>
        if x.on then
          let sa := 2 ^ 46 + tileNode t % 10 * 2 ^ 42 + tileNode t / 10 * 2 ^ 38 + 2 ^ 37 + 2 ^ 18 * b
          let r := x.read e d (atChunk sa i) ecc stop
          let w := r.2.map fun v => BitVec.ofNat 64 (wordOf (beBytes 8 v.toNat))
          r.1.strict.write e d (atChunk (a + 790528 + 262144 * b) i) w stop
        else x) x
    else x) x

/-- Whether a task on several tiles finds one that holds no last tile, or, for a barrier task, is not ACTIVE, or a fabric
job that is not halted (R439). -/
def ckRefused (d : Nat) (mask : BitVec 64) : Bool :=
  !s.userLoaded ||
  ((maskTiles mask).any fun p => match s.physTile p.1 p.2 with
    | some t => s.dBar d && !s.tileActive t
    | none => true) ||
  (s.dBar d && s.fld Reg.seqNbr 11 0 != 0 && !s.haltHolds)

/-- The HBM address of a byte as a NoC address. -/
def hbmAddr (a : Nat) : Nat := 2 ^ 47 + a

/-- CHECKPOINT (R442): the header with MAGIC 0, the sections, then the full header. -/
def doCheckpoint (e d : Nat) (ecc : List EccAt) (stop : Option (Nat × Nat)) : State :=
  let mask := BitVec.ofNat 64 (s.dpair d 6)
  let banks := (s.dword d 8).getLsbD 0
  let base := hbmAddr (s.dpair d 4)
  if s.ckRefused d mask then s.setResult e 0x12
  else if s.ckBusy mask then s
  else
    let head := fun (l : List (BitVec 8)) (x : Eng) => (List.range 128).foldl (fun x i =>
      if x.on then x.write e d (atChunk base i) (wordsOfBytes ((l.drop (32 * i)).take 32)) stop else x) x
    let x := head (List.replicate 4096 0) (Eng.start s)
    let x := ((maskTiles mask).zipIdx).foldl (fun x p =>
      match s.physTile p.1.1 p.1.2 with
      | some t =>
        let x := x.access e (s.cluPacket e d t 0 false) stop fun s => (s, false)
        ckSection e d (base + 4096 + sectionSize * p.2) p.1.1 p.1.2 t banks ecc stop x
      | none => x) x
    s.engDone e (head (s.ckHeader banks mask) x)

end State

/-- n bytes (a multiple of 32) are read from an address on. -/
def Eng.readN (e d a : Nat) (ecc : List EccAt) (stop : Option (Nat × Nat)) : Nat → Eng → Eng × List (BitVec 8)
  | 0, x => (x, [])
  | n + 1, x =>
    if x.on then
      let r := x.read e d (BitVec.ofNat 48 a) ecc stop
      let q := Eng.readN e d (a + 32) ecc stop n r.1.strict
      (q.1, bytesOfWords r.2 ++ q.2)
    else (x, [])

namespace State

variable (s : State)

/-- The queue entries of a cluster record (R442): n of them from byte a on. -/
def ckQueue (l : List (BitVec 8)) (a n : Nat) : List QEnt :=
  (List.range (min n 16)).map fun i =>
    let b := fieldBE l (a + 16 * i + 8) 1
    { state := b / 16, wr := b % 2 == 1, data := BitVec.ofNat 64 (fieldBE l (a + 16 * i) 8), slot := none, resp := none }

/-- A cluster takes the state of its record (R443). The registers and flops are written through the access registers, whose last
access of each set stands (R84, log 84); the queue entries by the engine's own path. -/
def ckRestore (e t c : Nat) (l : List (BitVec 8)) : State :=
  let x := s.clu t c
  let flop := (List.range 64).foldl (fun f n =>
    tput (fun _ => 0) (physUnit (s.bpSkips t c) n) (BitVec.ofNat 1024 (wordOf ((l.drop (128 * n)).take 128))) f) x.flop
  let x := { x with flop := flop }
  let s := s.setClu t c ((List.range 4).foldl (fun x w =>
    let p := physUnit [s.wuSkip t c] w
    let o := 8192 + 1024 * w
    let k := fieldBE l (o + 128) 8
    let u := (List.range 16).foldl (fun (u : Wu) r => u.setR r (BitVec.ofNat 64 (fieldBE l (o + 8 * r) 8))) (x.wu p)
    x.setWu p { u with c := k % 2 == 1, q0 := ckQueue l (o + 256) (k / 2 ^ 8 % 32), q1 := ckQueue l (o + 512) (k / 2 ^ 16 % 32) }) x)
  let p := physUnit (s.bpSkips t c) 63
  let s := s.flopPut (.engine e) t c p 992 ((rowOf flop p).extractLsb' 992 32)
  (List.range 4).foldl (fun s w =>
    let p := physUnit [s.wuSkip t c] w
    let u := (s.clu t c).wu p
    (s.wuRegPut (.engine e) t c p 15 (u.reg 15)).wuCarryPut (.engine e) t c p u.c) s

/-- Whether the header of a checkpoint passes the checks of R443. -/
def ckHeaderOk (l : List (BitVec 8)) (mask : BitVec 64) : Bool :=
  fieldBE l 0 4 == 0x58434B50 && fieldBE l 4 2 == 1 && frameCrcOk l &&
  fieldBE l 8 8 == s.pair Reg.ceImgidLo Reg.ceImgidHi && fieldBE l 32 2 == s.len &&
  mask &&& ~~~BitVec.ofNat 64 (fieldBE l 24 8) == 0

/-- Whether the head of a tile section passes: its CRC, its image, and the owners of the banks to be restored. -/
def ckTileOk (l : List (BitVec 8)) (t : Nat) (banks : Bool) : Bool :=
  frameCrcOk l && fieldBE l 8 8 == (s.tile t).imgId.toNat &&
  (!banks || (List.range 16).all fun b => !(fieldBE l 16 2).testBit b || s.bankOwn t b == 1)

/-- Place of a tile's section: the tiles of the header's mask before it. -/
def ckPlace (hmask : BitVec 64) (tx ty : Nat) : Nat := ((maskTiles hmask).filter fun p => 8 * p.2 + p.1 < 8 * ty + tx).length

/-- A named tile is restored from its section. -/
def ckTile (e d a t : Nat) (saved : Nat) (ecc : List EccAt) (stop : Option (Nat × Nat)) (x : Eng) : Eng :=
  let x := (List.range 64).foldl (fun x k =>
    let r := Eng.readN e d (a + 4096 + 12288 * k) ecc stop 384 x
    if r.1.on then { r.1 with s := r.1.s.ckRestore e t (8 * physRow (r.1.s.srow t) (k / 8) + k % 8) r.2 } else r.1) x
  (List.range 16).foldl (fun x b =>
    if saved.testBit b then
      (List.range 8192).foldl (fun x i =>
        let r := Eng.readN e d (a + 790528 + 262144 * b + 32 * i) ecc stop 1 x
        if r.1.on then
          { r.1 with s := (List.range 4).foldl (fun s k =>
              s.setSpWord t b (4 * i + k) 0xFF (BitVec.ofNat 64 (fieldBE r.2 (8 * k) 8))) r.1.s }
        else r.1) x
    else x) x

/-- The emulated-cycle count after a RESTORE of cycle c (R441, R443): in the go wait the first cycle is c + 1, whose midnight
is then the one that an expired heartbeat halts at (R504); at a midnight the count reads c, and the tokens held for the
midnight stay in force. -/
def ckCount (bar : Bool) (c : BitVec 48) : State :=
  let held := s.seq.tok.filter fun k => k.cyc == s.seq.cycle.setWidth 32
  let moved := held.map fun (k : Tok) => { k with cyc := c.setWidth 32 }
  let s := { s with banks := s.grantsForgotten }
  if bar then { s with seq := { s.seq with cycle := c, tok := moved }, tio := { s.tio with broken := false } }
  else
    let first := fun (p : HaltPt) => if p.cause = 7 then { p with cyc := c + 1 } else p
    { s with seq := { s.seq with cycle := c + 1 }, dbg := { s.dbg with points := s.dbg.points.map first } }

/-- RESTORE (R441, R443). -/
def doRestore (e d : Nat) (ecc : List EccAt) (stop : Option (Nat × Nat)) : State :=
  let mask := BitVec.ofNat 64 (s.dpair d 6)
  let banks := (s.dword d 8).getLsbD 0
  let base := hbmAddr (s.dpair d 4)
  if s.ckRefused d mask || (!s.dBar d && s.fld Reg.dwnStat 31 28 != 6) then s.setResult e 0x12
  else if s.ckBusy mask then s
  else
    let (x, h) := Eng.readN e d base ecc stop 128 (Eng.start s)
    if !x.on then s.engDone e x
    else if !s.ckHeaderOk h mask then x.s.setResult e 0x13
    else
      let hm := BitVec.ofNat 64 (fieldBE h 24 8)
      let at_ := fun (p : Nat × Nat) => base + 4096 + sectionSize * ckPlace hm p.1 p.2
      let heads := (maskTiles mask).foldl (fun (r : Eng × List (Nat × Nat × Nat) × Bool) p =>
        match s.physTile p.1 p.2 with
        | some t =>
          let q := Eng.readN e d (at_ p) ecc stop 128 r.1
          (q.1, r.2.1 ++ [(t, at_ p, if banks then fieldBE q.2 16 2 else 0)],
            r.2.2 && (!q.1.on || s.ckTileOk q.2 t banks))
        | none => r) (x, [], true)
      if heads.1.on && !heads.2.2 then heads.1.s.setResult e 0x13
      else
        let x := heads.2.1.foldl (fun x p => ckTile e d p.2.1 p.1 p.2.2 ecc stop x) heads.1
        if mask = 0 ∨ !x.on then s.engDone e x
        else s.engDone e { x with s := x.s.ckCount (s.dBar d) (BitVec.ofNat 48 (fieldBE h 16 8)) }

/-! ### Tasks that hand on, and the end of a task (R434, R435) -/

/-- REGION_LOAD: the engine hands the task to the loader and is free (R434). -/
def doRegionLoad (e d : Nat) : State :=
  let w := s.dword d 4
  match s.physTile (bits w 31 29) (bits w 28 26) with
  | some t =>
    if s.userLoaded then
      ((s.engFree e).rgnAccept t d (bits w 1 0) (s.dpair d 5) (BitVec.ofNat 48 (s.dpair d 8))).fillSlots
    else s.setResult e 0x12
  | none => s.setResult e 0x12

/-- HOST_NOTIFY: the EVT leaves; with WAITACK the engine is free and the task stays RUN until acknowledged (R434, R440). -/
def doNotify (e d : Nat) : State :=
  let s := s.evtSend ssNode (bits (s.dword d 4) 7 0)
  if s.waitsAck d then
    let s := (s.engFree e).fillSlots
    let rest := s.ss.acks.filter fun k => k != d
    if s.ss.acks.contains d then { s with ss := { s.ss with acks := rest } }.taskDone d 0 else s
  else s.setResult e 0

/-- The task in an engine ends with its code, unless the engine's interface is frozen; the engine is free (R433, R435). -/
def endTask (e : Nat) : State :=
  match s.engResult e with
  | some code =>
    if (s.master ssNode e).frozen then s
    else
      let d := s.engCur e
      ((s.engFree e).taskDone d code).fillSlots
  | none => s

end State

/-- A command that does the work of the task in engine e, when that is of the type. -/
def State.work (s : State) (e ty : Nat) (f : Nat → State) : State :=
  match s.engTask e ty with
  | some d => f d
  | none => s

/-- COPY (R424). -/
def execCopy (e : Nat) (ecc : List EccAt) (stop : Option (Nat × Nat)) (s : State) : Out :=
  .next (s.work e 0 fun d => s.engDone e (Eng.copy e d (s.dpair d 4) (s.dpair d 6) ecc stop ((s.dword d 8).toNat / 32) (Eng.start s)))

/-- FILL (R424): the pattern in every word. -/
def execFill (e : Nat) (stop : Option (Nat × Nat)) (s : State) : Out :=
  .next (s.work e 1 fun d => s.engDone e ((List.range ((s.dword d 8).toNat / 32)).foldl (fun x i =>
    if x.on then x.write e d (atChunk (s.dpair d 4) i) (List.replicate 4 (BitVec.ofNat 64 (s.dpair d 6))) stop else x)
      (Eng.start s)))

/-- FORCE (R427). -/
def execForce (e : Nat) (stop : Option (Nat × Nat)) (s : State) : Out := .next (s.work e 2 fun d => s.doForce e d stop)

/-- PEEK (R426). -/
def execPeek (e : Nat) (stop : Option (Nat × Nat)) (s : State) : Out := .next (s.work e 3 fun d => s.doPeek e d stop)

/-- CHECKPOINT (R442). -/
def execCheckpoint (e : Nat) (ecc : List EccAt) (stop : Option (Nat × Nat)) (s : State) : Out :=
  .next (s.work e 4 fun d => s.doCheckpoint e d ecc stop)

/-- RESTORE (R443). -/
def execRestore (e : Nat) (ecc : List EccAt) (stop : Option (Nat × Nat)) (s : State) : Out :=
  .next (s.work e 5 fun d => s.doRestore e d ecc stop)

/-- REGION_LOAD (R406, R434). -/
def execRegionLoad (e : Nat) (s : State) : Out := .next (s.work e 6 fun d => s.doRegionLoad e d)

/-- HOST_NOTIFY (R424). -/
def execHostNotify (e : Nat) (s : State) : Out := .next (s.work e 8 fun d => s.doNotify e d)

/-- TASK_END (R435). -/
def execTaskEnd (e : Nat) (s : State) : Out := .next (s.endTask e)

end Sys2Proof.Machine
end

