-- ==== Sys2Proof/Machine/TargetIo.lean ====
section
/-! DEFINITION. The target interface (R513 to R529): banks and their supplies, the sample instant with deliveries, recorder and
replay, the outputs, cadence, and the first step, which follows the sample instant of the dawn (R516). -/

namespace Sys2Proof.Machine

/-- Nominal supplies of a standard in mV (R514). -/
def stdNominal : Nat → List Nat
  | 1 => [3300]
  | 2 => [2500]
  | 3 => [1800]
  | 4 => [1500]
  | 5 => [1200]
  | 6 => [1500]
  | 7 => [1800]
  | 8 => [1800]
  | 9 => [1500]
  | 10 => [1350]
  | 11 => [1200]
  | 12 => [1800, 2500]
  | 13 => [1000, 1200]
  | 14 => [1200, 1500, 1800]
  | _ => []

/-- Whether a supply of v units of 20 mV lies within ±5 % of a nominal value of a standard (R514). -/
def vccoOk (std v : Nat) : Bool :=
  (stdNominal std).any fun n => decide (95 * n ≤ 2000 * v ∧ 2000 * v ≤ 105 * n)

namespace State

variable (s : State)

/-! ### Banks and pins -/

/-- Whether a bank works: its standard is set and its supply, as last measured, is within the window (R514, R515). -/
def bankOk (b : Nat) : Bool := vccoOk (s.fld (Reg.tioBank b) 31 28) (s.fld (Reg.tioBank b) 23 16)

/-- The supply of a bank has been measured; one that leaves the window of a standard that is set is recorded (R515). -/
def vccoMeasure (b v : Nat) : State :=
  if b < 16 then
    let k := Reg.tioBank b
    let fell := s.bankOk b && !vccoOk (s.fld k 31 28) v
    let s := s.setFld k 23 16 (min v 255)
    if fell then
      let old := s.flag k 24
      ((s.setFlag k 24 true).record 1 0x0A 1 tioNode b (min v 255) 0).irqIf (!old && s.flag Reg.tioCtrl 1) 50
    else s
  else s

/-- Whether a pin is the second of a differential pair, whose configuration is ignored (R513). -/
def pinSecond (p : Nat) : Bool :=
  let std := s.fld (Reg.tioBank (p / 40)) 31 28
  p % 2 == 1 && decide (12 ≤ std ∧ std ≤ 14)

/-- DIR of a pin: 0 unused, 1 input, 2 output, 3 bidirectional (R532). -/
def pinDir (p : Nat) : Nat := if s.pinSecond p then 0 else s.fld (Reg.tioPin p) 31 30

/-- Whether a pin is sampled. -/
def pinIn (p : Nat) : Bool := s.pinDir p == 1 || s.pinDir p == 3

/-- Whether the release of R401 for a pin has taken place: write enables under WE, other outputs under OUT. -/
def pinReleased (p : Nat) : Bool := if s.flag (Reg.tioPin p) 23 then s.flag Reg.dwnStat 26 else s.flag Reg.dwnStat 27

/-- Whether an output or bidirectional pin, by its own configuration, drives, and its level (R381, R517, R527). -/
def ownDrive (p : Nat) : Option Bool :=
  let k := Reg.tioPin p
  if s.pinDir p < 2 ∨ s.bankOk (p / 40) = false then none
  else if s.tio.safe || !s.pinReleased p then
    (if s.flag k 23 then some (s.flag k 22) else none)
  else if s.tio.oe.getLsbD p then some (s.tio.outs.getLsbD p)
  else none

/-- Whether a pin is driven, and its level: the second pin of a differential pair carries the complement of the true one, whose
configuration applies to both (R513). -/
def pinDrive (p : Nat) : Option Bool := if s.pinSecond p then (s.ownDrive (p - 1)).map (fun b => !b) else s.ownDrive p

/-- The outputs that a release of R401 lets act drive their initial values (R401, R527). -/
def pinsInit : State :=
  let f := fun (r : BitVec 640 × BitVec 640) (p : Nat) =>
    let k := Reg.tioPin p
    if s.pinDir p < 2 then r
    else (setBit r.1 p (s.flag k 21), setBit r.2 p (s.pinDir p == 2 || s.flag k 20))
  let r := (List.range 640).foldl f (0, 0)
  { s with tio := { s.tio with outs := r.1, oe := r.2 } }

/-! ### Recording and replay (R523 to R526) -/

/-- TIO_REC_CTRL.DIR: 1 record, 2 replay (R524). -/
def recDir : Nat := s.fld Reg.tioRecCtrl 1 0

/-- Words of the recorder's ring. -/
def recWords : Nat := 512 * (s.reg Reg.tioRecRsize).toNat

/-- HBM byte address of the ring. -/
def recBase : Nat := s.pair Reg.tioRecRbLo Reg.tioRecRbHi

/-- A ring offset n words further on. -/
def recNext (o : Nat) : Nat := if o + 16 < s.recWords then o + 16 else 0

/-- Whether the recorder's ring keeps the sample instant from passing: full in record mode, empty in replay mode (R525,
R526). -/
def recBlocked : Bool :=
  let wr := (s.reg Reg.tioRecWr).toNat
  let rd := (s.reg Reg.tioRecRd).toNat
  match s.recDir with
  | 1 => s.recWords == 0 || s.recNext wr == rd
  | 2 => wr == rd
  | _ => false

/-- The words of a record as bytes: byte k of a word is its bits [8k+7:8k] (log 16). -/
def recordBytes (cyc : BitVec 48) (levels : BitVec 640) : List (BitVec 8) :=
  bytesOf 8 cyc.toNat ++ bytesOf 80 levels.toNat ++ List.replicate 40 0

/-- The pins with REC = 1, as a mask. -/
def recMask : BitVec 640 :=
  (List.range 640).foldl (fun m p => if s.pinIn p && s.flag (Reg.tioPin p) 29 then setBit m p true else m) 0

/-- The recorder's request for one record: MID 0 of the TIO in context 0 (R524). -/
def recPacket (wr : Bool) (a : Nat) : Packet :=
  { dx := 0, dy := 0, sx := tioNode % 10, sy := tioNode / 10, mid := 0, ctx := 0, cmd := b2n wr, cls := 0, len := 4, slot := 16,
    gen := 0, addr := BitVec.ofNat 48 (2 ^ 47 + a % 2 ^ 46), resp := 0, peek := false, q := false, be := 0xFF, data := [] }

/-- HBM byte addresses of the records at WR and at RD. -/
def recWrAddr : Nat := (s.recBase + 8 * (s.reg Reg.tioRecWr).toNat) % 2 ^ 46
def recRdAddr : Nat := (s.recBase + 8 * (s.reg Reg.tioRecRd).toNat) % 2 ^ 46

/-- The recorder's request of this sample instant, when there is one. -/
def recRequest : Option Packet :=
  match s.recDir with
  | 1 => some (recPacket true s.recWrAddr)
  | 2 => some (recPacket false s.recRdAddr)
  | _ => none

/-- What the recorder's request meets, as engMeets codes it: 8 keeps the sample instant waiting, as does a frozen interface (log 87). -/
def recMeets : Nat :=
  match s.recRequest with
  | some pk => if (s.master tioNode 0).frozen then 8 else s.engMeets pk
  | none => 0

/-- One record leaves for the ring; a request that ends with a response other than OK writes nothing (log 87). -/
def recWrite (cyc : BitVec 48) (levels : BitVec 640) : State :=
  let wr := (s.reg Reg.tioRecWr).toNat
  let m := s.recMeets
  let s := if m = 0 then s.hbmWriteNow s.recWrAddr (recordBytes cyc (levels &&& s.recMask)) []
    else s.masterViolates tioNode 0 (recPacket true s.recWrAddr) m
  (s.setReg Reg.tioRecWr (BitVec.ofNat 32 (s.recNext wr))).count Reg.tioRecStat 15 0 1

/-- The record at RD is read: the state after, word 0, and the levels. A request that ends with a response other than OK returns
free words (log 87). -/
def recRead (ecc : List EccAt) : State × BitVec 64 × BitVec 640 :=
  let m := s.recMeets
  let r := s.hbmReadNow s.recRdAddr 16 1 ecc
  let w := if m = 0 then r.2.1 else (List.range 16).map fun i => Config.freeValue (s.free + 640 + i)
  let t := if m = 0 then r.1 else s.masterViolates tioNode 0 (recPacket false s.recRdAddr) m
  (t, w.getD 0 0, BitVec.ofNat 640 (wordOf (((w.drop 1).take 10).flatMap fun v => bytesOf 8 v.toNat)))

/-! ### The sample instant (R516 to R518, R522, R523) -/

/-- Whether a trigger channel names a pin (R454, R479). -/
def pinWatched (p : Nat) : Bool :=
  s.regs.any fun e =>
    decide (Reg.ttTch 0 ≤ e.1 ∧ e.1 ≤ Reg.ttTch 4095) && e.2.getLsbD 31 && e.2.getLsbD 30 && bits e.2 9 0 == p

/-- The levels sampled: a bidirectional pin that drives is sampled as it stands on the pin, which the spec does not fix, so
its level is free (log 24); replayed pins take the record's levels; a bank that does not work reads 0 (R515). -/
def sampled (replay : Option (BitVec 640)) : BitVec 640 :=
  (List.range 640).foldl (fun m p =>
    if s.pinIn p then
      let live := if s.bankOk (p / 40) then
          (if (s.pinDrive p).isSome then (Config.freeValue (s.free + p)).getLsbD 0 else s.tio.levels.getLsbD p) else false
      let b := match replay with
        | some r => if s.flag (Reg.tioPin p) 29 then r.getLsbD p else live
        | none => live
      setBit m p b
    else m) 0

/-- The converters at a sample instant (R522): now in units of 4 ps. -/
def convert (now : Nat) (samp : BitVec 640) (replay : Bool) : State :=
  (List.range 640).foldl (fun s p =>
    if s.pinIn p then
      let lvl := samp.getLsbD p
      if replay && s.flag (Reg.tioPin p) 29 then s.setReg (Reg.tioTdc p) (BitVec.ofNat 32 (b2n lvl * 2 ^ 30 + 0xFFFFFF))
      else
        let t := tget (fun _ => 0) s.tio.times p
        let v := if t = 0 then 0xFFFFFF else min (now - (t - 1)) 0xFFFFFF
        s.setReg (Reg.tioTdc p) (BitVec.ofNat 32 (b2n (s.tio.edges.getLsbD p) * 2 ^ 31 + b2n lvl * 2 ^ 30 + v))
    else s) s

/-- The samples are delivered to the flop entries that their pins name, in ACTIVE regions (R518). -/
def deliverPins (samp : BitVec 640) : State :=
  (List.range 640).foldl (fun s p =>
    let d := s.reg (Reg.tioPdst p)
    if s.pinIn p && d.getLsbD 31 then
      match s.physTile (bits d 30 28) (bits d 27 25) with
      | some t =>
        if s.tileActive t then
          let c := 8 * physRow (s.srow t) (bits d 21 19) + bits d 24 22
          let x := s.clu t c
          s.setClu t c { x with flop := putRowBit x.flop (physUnit (s.bpSkips t c) (bits d 18 13)) (bits d 12 3) (samp.getLsbD p) }
        else s
      | none => s
    else s) s

/-- The outputs take the channels of the cycle just past (R517). Clock pins keep to the cadence. -/
def moveOutputs : State :=
  let f := fun (r : BitVec 640 × BitVec 640) (p : Nat) =>
    let src := s.reg (Reg.tioPsrc p)
    let ch := fun n => tget (fun _ => false) s.tio.chans n
    if s.pinDir p < 2 then r
    else if s.flag (Reg.tioPin p) 19 then
      (setBit r.1 p (if s.flag Reg.tioCadCtrl 31 then r.1.getLsbD p else s.flag (Reg.tioPin p) 21), setBit r.2 p true)
    else (setBit r.1 p (ch (bits src 31 16)), setBit r.2 p (s.pinDir p == 2 || ch (bits src 15 0)))
  let r := (List.range 640).foldl f (s.tio.outs, s.tio.oe)
  { s with tio := { s.tio with outs := r.1, oe := r.2 } }

/-- A replayed record names another cycle than k (R526). -/
def replayWrong (k : BitVec 48) (w : BitVec 64) : State :=
  let old := s.flag Reg.tioRecStat 30
  let s := (s.setFlag Reg.tioRecStat 30 true).record 2 0x0A 3 tioNode 0 (k.toNat % 2 ^ 32) (w.toNat % 2 ^ 32)
  { s with tio := { s.tio with broken := true } }.irqIf (!old && s.flag Reg.tioCtrl 1) 50

/-- The sample instant of cycle k with the levels sampled, levels that a record gives among them: converters, recorder,
deliveries, LIVE, and, when the run goes on, the outputs. -/
def sampleTake (now : Nat) (k : BitVec 48) (running replay : Bool) (samp : BitVec 640) : State :=
  let live := (List.range 640).any fun p =>
    s.pinIn p && !(replay && s.flag (Reg.tioPin p) 29) && (s.flag (Reg.tioPdst p) 31 || s.pinWatched p)
  let s := { s with free := s.free + 656 }
  let s := if live then s.loss 0 else s
  let s := s.convert now samp replay
  let s := if s.recDir = 1 then s.recWrite k samp
    else if replay then
      (s.setReg Reg.tioRecRd (BitVec.ofNat 32 (s.recNext (s.reg Reg.tioRecRd).toNat))).count Reg.tioRecStat 15 0 1
    else s
  let s := { s with tio := { s.tio with before := s.tio.samp, samp := samp, edges := 0, instant := true } }
  let s := s.deliverPins samp
  if running then s.moveOutputs else s

/-- The sample instant of cycle k; a heartbeat's safe state samples nothing (R527). -/
def sampleAt (now : Nat) (k : BitVec 48) (running : Bool) (ecc : List EccAt) : State :=
  let replay := s.recDir == 2
  let r := s.recRead ecc
  let t := if replay then r.1 else s
  if replay && r.2.1 != k.setWidth 64 then { t with free := t.free + 656 }.replayWrong k r.2.1
  else if s.tio.safe then { t with free := t.free + 656, tio := { t.tio with instant := true } }
  else t.sampleTake now k running replay (s.sampled (if replay then some r.2.2 else none))

/-- The step wave starts at step 0 of the first cycle (R14, R398 step 7). -/
def firstStep : State :=
  let us := (s.us - s.dawn.at_).toNat
  let s := { s with seq := { s.seq with run := true }, dawn := { s.dawn with go := false } }
  ((s.setFld Reg.dwnStat 31 28 8).setReg Reg.dwnTime (BitVec.ofNat 32 (min us (2 ^ 32 - 1)))).stallRestart.ckDue

/-- Whether the last wait of the dawn is over and only the sample instant of its first cycle is to come (R516). -/
def dawnSampling : Bool := s.dawn.done == 4 && !s.seq.run

/-- SAMPLE_INSTANT: now in units of 4 ps. While the ring blocks it, TIO_REC_STAT.WAIT reads 1 (R526). -/
def sampleInstant (now : Nat) (ecc : List EccAt) : State :=
  let atMid := s.seq.midnight && !s.tio.instant && s.seqState == 2 && (!s.flag Reg.tioCadCtrl 31 || s.tio.paired)
  let first := s.dawnSampling
  if (atMid || first) && !s.tio.broken && (s.domState 80 == 2 || s.domState 80 == 3) then
    if s.recBlocked then s.setFlag Reg.tioRecStat 31 true
    else if s.recMeets = 8 then s
    else
      let s := s.setFlag Reg.tioRecStat 31 false
      let s := s.sampleAt now (if first then s.seq.cycle else s.seq.cycle + 1) (!first) ecc
      if first && !s.tio.broken then s.firstStep else s
  else s

/-! ### Cadence (R519 to R521) -/

/-- Clock pins go to a level: those of working outputs with CLK = 1. -/
def clockPins (b : Bool) : State :=
  { s with tio := { s.tio with outs := (List.range 640).foldl (fun m p =>
      if decide (2 ≤ s.pinDir p) && s.flag (Reg.tioPin p) 19 then setBit m p b else m) s.tio.outs } }

/-- Whether the clock pins stand still: halted with CLKSTOP = 1 (R520). -/
def clockStopped : Bool := s.seqState == 3 && s.flag Reg.tioCadCtrl 29

/-- A tick of the cadence generator: it ends the dawn's cadence wait, pairs with this midnight, waits, or slips; while the
device is halted, and before the run, it is dropped (R398, R519, R520). -/
def tickCadence : State :=
  if !(s.flag Reg.tioCadCtrl 31 && s.flag Reg.tioCadStat 31) then s
  else
    let s := if s.clockStopped then s else s.clockPins true
    if s.fld Reg.dwnStat 31 28 = 7 ∧ s.dawn.done = 3 then { s with dawn := { s.dawn with done := 4 } }
    else if s.seqState = 3 ∨ s.seq.run = false then s
    else if s.seq.midnight && !s.tio.paired && !s.tio.instant then { s with tio := { s.tio with paired := true } }
    else if s.flag Reg.tioCadStat 30 then s.count Reg.tioCadStat 15 0 1
    else s.setFlag Reg.tioCadStat 30 true

/-- The cadence loop loses lock (R521). -/
def cadenceLoss : State :=
  let run := s.seq.run && s.flag Reg.tioCadStat 31
  let s := s.setFlag Reg.tioCadStat 31 false
  if run then (s.record 2 0x0A 2 tioNode 0 0 0).irqIf (s.flag Reg.tioCtrl 2) 50 else s

/-! ### Writes -/

/-- TIO_REC_CTRL is written: outside the go wait the write is ignored (R524). -/
def recDirWrite (v : BitVec 32) : State :=
  if s.seqState = 0 ∧ s.fld Reg.dwnStat 31 28 = 6 then s.setReg Reg.tioRecCtrl (v &&& 3#32)
  else s.setFlag Reg.tioStat 15 true

/-- An edge at an input (R522). -/
def inputEdge (p : Nat) (level : Bool) (time : Nat) : State :=
  if p < 640 then
    if s.tio.levels.getLsbD p = level then s
    else { s with tio := { s.tio with levels := setBit s.tio.levels p level, edges := setBit s.tio.edges p true,
                                      times := tput (fun _ => 0) p (time + 1) s.tio.times } }
  else s

end State

/-- SAMPLE_INSTANT (R516). -/
def execSampleInstant (e : SampleAt) (s : State) : Out := .next (s.sampleInstant e.now e.ecc)

/-- CADENCE_TICK (R519). -/
def execCadenceTick (s : State) : Out := .next s.tickCadence

/-- CADENCE_CLOCK_FALL (R517): half a period after a tick the clock pins go low. -/
def execCadenceClockFall (s : State) : Out := .next (s.clockPins false)

/-- CADENCE_LOCK_LOSS (R521). -/
def execCadenceLockLoss (s : State) : Out := .next s.cadenceLoss

/-- CADENCE_RELOCK (R521). -/
def execCadenceRelock (s : State) : Out := .next (s.setFlag Reg.tioCadStat 31 true)

/-- VCCO_OUT_OF_WINDOW (R515): the bank's supply in units of 20 mV. -/
def execVccoOutOfWindow (bank vsense : Nat) (s : State) : Out := .next (s.vccoMeasure bank vsense)

/-- VCCO_RETURN (R515). -/
def execVccoReturn (bank vsense : Nat) (s : State) : Out := .next (s.vccoMeasure bank vsense)

/-- REC_DIR_WRITE (R524): a write of TIO_REC_CTRL. -/
def execRecDirWrite (v : BitVec 32) (s : State) : Out := .next (s.regWrite .host Reg.tioRecCtrl v State.recDirWrite)

/-- INPUT_EDGE (R522): time in units of 4 ps. -/
def execInputEdge (pin : Nat) (level : Bool) (time : Nat) (s : State) : Out := .next (s.inputEdge pin level time)

end Sys2Proof.Machine
end

