-- ==== Sys2Proof/Machine/Dawn.lean ====
section
/-! DEFINITION. The dawn sequence (R398 to R404): the lock wait, the releases with their gaps, the go wait and the cadence wait. -/

namespace Sys2Proof.Machine

namespace State

variable (s : State)

/-- DWN_STAT.STATE: 0 IDLE, 1 LOCKWAIT, 2 LOCKFAIL, 3 to 5 GAP1 to GAP3, 6 WAITGO, 7 CADWAIT, 8 DONE (R419). -/
def dawnState : Nat := s.fld Reg.dwnStat 31 28

def setDawn (st : Nat) : State := s.setFld Reg.dwnStat 31 28 st

/-- The lock wait begins: DWN_CTRL, DWN_GAP and DWN_LTMO are sampled (R398). -/
def lockWait : State :=
  { s.setDawn 1 with dawn := { s.dawn with ctrl := s.reg Reg.dwnCtrl, gap := s.reg Reg.dwnGap,
                                           ltmo := s.reg Reg.dwnLtmo, done := 0 } }

/-- The dawn begins when a full user image has loaded (R398). -/
def dawnBegin : State :=
  let s := s.setReg Reg.dwnStat 0
  { s with dawn := { s.dawn with at_ := s.us } }.lockWait

/-- The release codes in their order, and whether ORDER was replaced by the default (R402). -/
def dawnOrder : List Nat × Bool :=
  let o := s.dawn.ctrl
  let l := [bits o 6 5, bits o 4 3, bits o 2 1]
  if [1, 2, 3].all fun k => l.contains k then (l, false) else ([1, 2, 3], true)

/-- The next release takes effect (R401). -/
def release : State :=
  let k := s.dawnOrder.1.getD s.dawn.done 3
  let s := { s with dawn := { s.dawn with done := s.dawn.done + 1 } }
  let s := if s.fld Reg.dwnStat 27 26 = 0 ∧ (k = 1 ∨ k = 2) then s.pinsInit else s
  let s := s.setFlag Reg.dwnStat (28 - k) true
  s.setDawn (2 + s.dawn.done)

/-- Every wait is over: the first step follows the sample instant of its cycle (R516), or comes at once when the target
interface is off (log 25). -/
def dawnLast : State :=
  if s.domState 80 = 2 ∨ s.domState 80 = 3 then { s with dawn := { s.dawn with done := 4 } } else s.firstStep

/-- After the go wait: the cadence wait when the image enables cadence, else the first step (R398 steps 6 and 7). -/
def afterGo : State := if s.flag Reg.tioCadCtrl 31 then s.setDawn 7 else s.dawnLast

/-- After the third gap: the go wait, unless a GO is held (R398 step 5, R403). -/
def afterGaps : State := if s.dawn.ctrl.getLsbD 8 && !s.dawn.go then s.setDawn 6 else s.afterGo

/-- A tile that holds a last tile is FAILED (R399). -/
def lastTileFailed : Bool := (List.range 64).any fun t => s.flag (Reg.tilePlace t) 31 && s.domState t == 6

/-- Whether every item of the lock wait that the state shows is done: controllers, domains, the cadence loop (R399). -/
def locksDone : Bool :=
  ((List.range 6).all fun m => s.mcState m == 2 || s.mcState m == 5) &&
  ((List.range 81).all fun k => s.domState k == 2 || s.domState k == 6) &&
  (!s.flag Reg.tioCadCtrl 31 || s.flag Reg.tioCadStat 31)

/-- The lock wait ends (R399, R400): pcie says that the host port's loops failed, ports those of which ports did; a port that is not
enabled is not waited for (R349). An item that is not done when the time is over counts as failed. With the wait the time in which a
domain can fail to come on is over (R300; log 89). -/
def lockEnd (pcie : Bool) (ports : BitVec 8) : State :=
  let mcf := numOf (fun m => s.mcState m != 2) 6
  let domf := s.lastTileFailed || (List.range 81).any fun k => s.domState k != 2 && s.domState k != 6
  let cadf := s.flag Reg.tioCadCtrl 31 && !s.flag Reg.tioCadStat 31
  let ports : BitVec 8 := (List.range 8).foldl (fun m p => if ports.getLsbD p && s.flag (Reg.lnkCtrl p) 30 then setBit m p true else m) 0
  let s := { s with pm := { s.pm with bring := false } }
  let s := ((s.setFld Reg.dwnStat 14 7 ports.toNat).setFld Reg.dwnStat 20 15 mcf).setFlag Reg.dwnStat 21 domf
  let s := (s.setFlag Reg.dwnStat 22 cadf).setFlag Reg.dwnStat 23 pcie
  let any := pcie || ports != 0 || mcf != 0 || domf || cadf
  let stop := cadf || domf || (any && s.dawn.ctrl.getLsbD 7)
  let s := if stop then s.setDawn 2 else s
  let s := if any then s.record (if stop then 2 else 1) 8 1 ceNode 0 (s.reg Reg.dwnStat).toNat 0 else s
  if stop then s else (s.setFlag Reg.dwnStat 24 s.dawnOrder.2).release

/-- DWN_CTRL is written (R400, R403, R419): GO passes the go wait or is held; RETRY acts in LOCKFAIL only. -/
def dawnWrite (v : BitVec 32) : State :=
  let lock := s.reg Reg.dwnCtrl &&& 1#32
  let s := s.setReg Reg.dwnCtrl ((v &&& 0x1FF#32) ||| lock)
  let s := if v.getLsbD 30 && s.dawnState == 2 then (s.setFld Reg.dwnStat 23 7 0).lockWait else s
  if v.getLsbD 31 then
    if s.dawnState = 6 then s.afterGo else { s with dawn := { s.dawn with go := true } }
  else s

/-- A gap ends (R401): the next release, or what follows the third. -/
def gapEnd : State :=
  if s.dawnState = 3 ∨ s.dawnState = 4 then s.release
  else if s.dawnState = 5 ∧ s.dawn.done = 3 then s.afterGaps
  else s

end State

/-- DAWN_LOCK_WAIT_END (R399). -/
def execDawnLockWaitEnd (s : State) : Out :=
  .next (if s.dawnState = 1 ∧ s.locksDone = true then s.lockEnd false 0 else s)

/-- DAWN_LOCK_TIMEOUT (R399): DWN_LTMO.MS has passed; pcie and ports name the loops that have not locked. -/
def execDawnLockTimeout (pcie : Bool) (ports : BitVec 8) (s : State) : Out :=
  .next (if s.dawnState = 1 then s.lockEnd pcie ports else s)

/-- DAWN_RELEASE (R401): a gap of DWN_GAP has passed. -/
def execDawnRelease (s : State) : Out := .next s.gapEnd

/-- DAWN_GO (R403): a write of DWN_CTRL. -/
def execDawnGo (v : BitVec 32) (s : State) : Out := .next (s.regWrite .host Reg.dwnCtrl (setBit v 31 true) State.dawnWrite)

/-- DAWN_RETRY (R400): a write of DWN_CTRL. -/
def execDawnRetry (v : BitVec 32) (s : State) : Out := .next (s.regWrite .host Reg.dwnCtrl (setBit v 30 true) State.dawnWrite)

end Sys2Proof.Machine
end

