-- ==== Sys2Proof/Machine/Trace.lean ====
section
/-! DEFINITION. The trigger and trace engine (R450 to R482): pattern units and equations, stimulus ports, trace streams, their
packets, staging, rings and sinks. -/

namespace Sys2Proof.Machine

/-- A channel's sample of a cycle (R450). -/
def TtCycle.chan (c : TtCycle) (n : Nat) : Bool := tget (fun _ => false) c.chans n

/-- Words of a packet in a list of packets. -/
def packetWords (l : List (List (BitVec 64))) : Nat := l.foldl (fun n p => n + p.length) 0

/-- A packet of a stream (R468). -/
def tracePacket (n ptype sub info seqno : Nat) (cyc : BitVec 48) (ws : List (BitVec 64)) : List (BitVec 64) :=
  BitVec.ofNat 64 (ptype * 2 ^ 60 + n * 2 ^ 57 + ws.length % 2 ^ 10 * 2 ^ 44 + sub * 2 ^ 32 + seqno % 2 ^ 32) ::
  BitVec.ofNat 64 (info % 2 ^ 16 * 2 ^ 48 + cyc.toNat) :: ws

/-- SEQ and CYCLE of a packet. -/
def packetSeq (p : List (BitVec 64)) : Nat := bits (p.getD 0 0) 31 0
def packetCyc (p : List (BitVec 64)) : BitVec 48 := (p.getD 1 0).setWidth 48
def isOverflow (p : List (BitVec 64)) : Bool := bits (p.getD 0 0) 63 60 == 5

namespace State

variable (s : State)

/-- Whether the TT acts: its domain is ON (R287, R475). -/
def ttOn : Bool := s.domState 78 == 2

def stream (n : Nat) : TtStream := tget (fun _ => TtStream.empty) s.tt.streams n

def setStream (n : Nat) (x : TtStream) : State :=
  { s with tt := { s.tt with streams := tput (fun _ => TtStream.empty) n x s.tt.streams } }

/-- The TT refuses a command or a write, or repeats a write (R476). -/
def ttErr (op : Nat) : State :=
  let s := s.count Reg.ttErr 15 0 1
  if s.flag Reg.ttErr 31 then s
  else (s.setFld Reg.ttErr 31 28 (8 + op)).irqIf (s.flag Reg.ttCtrl 2) 99

/-- Whether a key is refused (R464): it is past, or names the current cycle and the device has reached its local midnight. -/
def keyRefused (k : BitVec 48) : Bool :=
  if k = s.seq.cycle then s.seq.midnight else keyDue k s.seq.cycle

/-! ### Pattern units and equations -/

/-- Trigger channel j in a cycle (R454). -/
def trigChan (c : TtCycle) (j : Nat) : Bool :=
  let w := s.reg (Reg.ttTch j)
  w.getLsbD 31 && (if w.getLsbD 30 then c.pins.getLsbD (bits w 9 0) else c.chan (bits w 15 0))

/-- Trigger channel of bit b of unit u. -/
def unitSel (u b : Nat) : Nat := if b % 2 = 0 then s.fld (Reg.ttUSel u (b / 2)) 11 0 else s.fld (Reg.ttUSel u (b / 2)) 27 16

/-- Channels that unit u uses. -/
def unitNch (u : Nat) : Nat := min 64 (s.fld (Reg.ttUCtrl u) 6 0)

/-- Whether unit u matches in a cycle (R455). -/
def unitMatch (c : TtCycle) (u : Nat) : Bool :=
  let v := s.pair (Reg.ttUValLo u) (Reg.ttUValHi u)
  let m := s.pair (Reg.ttUMskLo u) (Reg.ttUMskHi u)
  let differs := (List.range (s.unitNch u)).any fun b => m.testBit b && s.trigChan c (s.unitSel u b) != v.testBit b
  s.unitNch u != 0 && differs == s.flag (Reg.ttUCtrl u) 29

/-- Whether unit u counts: armed and not fired (R456). -/
def unitLive (u : Nat) : Bool := s.flag (Reg.ttUCtrl u) 31 && !s.flag (Reg.ttUCtrl u) 30

/-- Whether unit u fires in a cycle (R456). -/
def unitFires (c : TtCycle) (u : Nat) : Bool :=
  s.unitLive u && s.unitMatch c u && decide (max 1 (s.fld (Reg.ttUCnt u) 31 16) ≤ s.fld (Reg.ttUCnt u) 15 0 + 1)

/-- Unit u sees a cycle. -/
def unitStep (c : TtCycle) (u : Nat) : State :=
  if s.unitLive u && s.unitMatch c u then
    let fires := s.unitFires c u
    let s := s.count (Reg.ttUCnt u) 15 0 1
    if fires then
      ((s.setFlag (Reg.ttUCtrl u) 30 true).setReg (Reg.ttUFcycLo u) (c.cyc.setWidth 32)).setReg (Reg.ttUFcycHi u)
        (BitVec.ofNat 32 (c.cyc.toNat / 2 ^ 32))
    else s
  else s

/-- Whether the unit mask of equation g names unit u. -/
def eqNames (g u : Nat) : Bool := s.flag (Reg.ttEqCtrl g) u

/-- Whether equation g fires, the units in fires having fired in the cycle (R457). -/
def eqFires (fires : List Nat) (g : Nat) : Bool :=
  !s.flag (Reg.ttEqCtrl g) 31 && fires.any (s.eqNames g) &&
  (!s.flag (Reg.ttEqCtrl g) 29 || (List.range 16).all fun u => !s.eqNames g u || s.flag (Reg.ttUCtrl u) 30)

/-- Units are armed or disarmed (R461). -/
def armUnits (mask : BitVec 16) (arm : Bool) : State :=
  (List.range 16).foldl (fun s u =>
    if mask.getLsbD u then
      if arm then
        let s := (s.setFld (Reg.ttUCtrl u) 31 30 2).setFld (Reg.ttUCnt u) 15 0 0
        (List.range 4).foldl (fun s g => if s.eqNames g u then s.setFlag (Reg.ttEqCtrl g) 31 false else s) s
      else s.setFlag (Reg.ttUCtrl u) 31 false
    else s) s

/-- The pin of a placement (R459): a pin channel of unit u whose level differs from that of the cycle before and whose
converter saw an edge; the latest edge first, then the lowest number. -/
def placement (c : TtCycle) (u : Nat) : Option (Nat × Nat) :=
  (List.range (s.unitNch u)).foldl (fun best b =>
    let w := s.reg (Reg.ttTch (s.unitSel u b))
    let p := bits w 9 0
    let v := tget (fun _ => 0) c.tdc p
    if w.getLsbD 31 && w.getLsbD 30 && c.pins.getLsbD p != c.last.getLsbD p && v.testBit 31 then
      let e := v % 2 ^ 24
      match best with
      | none => some (p, e)
      | some (q, f) => if e < f ∨ (e = f ∧ p < q) then some (p, e) else best
    else best) none

/-- The unit that gives the position of equation g (R458). -/
def positionUnit (fires : List Nat) (g : Nat) : Nat := (fires.find? (s.eqNames g)).getD 0

/-- The word of a TRIGGER packet (R468). -/
def triggerWord (c : TtCycle) (fires : List Nat) (g : Nat) : BitVec 64 :=
  let u := s.positionUnit fires g
  let m := match s.placement c u with
    | some (p, e) => p * 2 ^ 43 + 2 ^ 42 + e
    | none => 0
  BitVec.ofNat 64 (s.fld (Reg.ttUCtrl u) 22 12 * 2 ^ 53 + m)

/-! ### Streams -/

def streamStop (n : Nat) : Bool := s.flag (Reg.ttSCtrl n) 29
def streamGate (n : Nat) : Nat := s.fld (Reg.ttSCtrl n) 26 24

/-- Whether a stream records the present cycle (R467). -/
def streamRecords (n : Nat) : Bool := (s.stream n).on && (s.stream n).gateOpen

/-- A stream in STOP mode overflows (R473): OVERFLOW is its last packet, in place of the packet that did not fit. -/
def overflow (n : Nat) (keep : List (List (BitVec 64))) (seqno : Nat) (cyc : BitVec 48) : State :=
  let old := s.flag Reg.ttStat n
  let s := s.setStream n { s.stream n with on := false, staging := keep ++ [tracePacket n 5 0 0 seqno cyc []] }
  ((s.setFlag Reg.ttStat n true).irqIf (!old && s.flag Reg.ttCtrl 1) 99).loss 4

/-- A packet joins the staging of a stream (R473): 8,192 words hold 64 KiB. -/
def stage (n ptype sub info : Nat) (cyc : BitVec 48) (ws : List (BitVec 64)) : State :=
  let x := s.stream n
  if x.on then
    let p := tracePacket n ptype sub info x.seqno cyc ws
    if s.streamStop n && decide (8192 < packetWords x.staging + p.length) then s.overflow n x.staging x.seqno cyc
    else s.setStream n { x with staging := x.staging ++ [p], seqno := x.seqno + 1 }
  else s

/-- Channels that a stream captures (R466); a COUNT above 16,384 acts as 16,384. -/
def streamCount (n : Nat) : Nat := min 16384 (s.fld (Reg.ttSCh n) 15 0)

/-- The words of a SAMPLE packet (R468). -/
def sampleWords (c : TtCycle) (n : Nat) : List (BitVec 64) :=
  let k := s.streamCount n
  let base := s.fld (Reg.ttSCh n) 31 16
  (List.range ((k + 63) / 64)).map fun j =>
    BitVec.ofNat 64 (numOf (fun m => decide (64 * j + m < k) && c.chan (base + 64 * j + m)) 64)

/-- Streams start and stop at the keys of their commands (R466): SYNC comes first. -/
def streamStart (c : TtCycle) (n : Nat) : State :=
  let x := s.stream n
  let x := match x.disKey with
    | some k => if cycBefore k c.cyc then { x with on := false, disKey := none } else x
    | none => x
  match x.enKey with
  | some k =>
    if keyDue k c.cyc then
      let s := s.setStream n { x with on := true, enKey := none, seqno := 0, gateOpen := s.streamGate n == 0, left := 0, lastSample := none }
      s.stage n 1 0 s.len c.cyc
        [BitVec.ofNat 64 (s.fld (Reg.ttSCh n) 31 16 * 2 ^ 48 + s.fld (Reg.ttSCh n) 15 0 * 2 ^ 32 + (s.reg Reg.ceImgidLo).toNat)]
    else s.setStream n x
  | none => s.setStream n x

/-- The gate of a stream opens when its equation has fired (R467). -/
def streamOpen (eqs : List Nat) (n : Nat) : State :=
  let x := s.stream n
  let g := s.streamGate n
  if x.on && !x.gateOpen && decide (1 ≤ g) && eqs.contains (g - 1) then
    s.setStream n { x with gateOpen := true, left := s.fld (Reg.ttSCtrl n) 15 0, lastSample := none }
  else s

/-- The SAMPLE packet of a cycle (R467, R468). -/
def streamSample (c : TtCycle) (n : Nat) : State :=
  let x := s.stream n
  if s.streamRecords n && s.streamCount n != 0 then
    let w := s.sampleWords c n
    if s.flag (Reg.ttSCtrl n) 27 && x.lastSample == some w then s
    else
      let s := s.stage n 2 0 0 c.cyc w
      s.setStream n { s.stream n with lastSample := some w }
  else s

/-- The STIMULUS packets of a port in a cycle (R463, R469). A queued write leaves the port once its cycle is evaluated and its
delivery, if any, is done. -/
def stimPackets (c : TtCycle) (p : Nat) : State :=
  let n := s.fld (Reg.ttPCfg p) 30 28
  let base := s.fld (Reg.ttPDbase p) 15 0
  let put := fun (s : State) (src : Nat) (v : BitVec 64) =>
    if s.streamRecords n then s.stage n 4 (src * 2 ^ 10 + p) 0 c.cyc [v] else s
  let s := if s.flag (Reg.ttPCfg p) 31 && c.chan (s.fld (Reg.ttPCfg p) 15 0)
    then put s 0 (BitVec.ofNat 64 (numOf (fun m => c.chan (base + m)) 64)) else s
  let l := tget (fun _ => []) s.tt.stim p
  let s := (l.filter fun x => x.key == c.cyc).foldl (fun s x => put s (if x.dbg then 2 else 1) x.val) s
  { s with tt := { s.tt with stim := tput (fun _ => []) p (l.filter fun x => !keyDue x.key c.cyc || !x.done) s.tt.stim } }

/-- The actions of equation g in a cycle in which it fires (R460). -/
def eqAct (c : TtCycle) (fires : List Nat) (word : BitVec 64) (g : Nat) : State :=
  let k := Reg.ttEqCtrl g
  let info := numOf (fun u => fires.contains u) 16
  let s := (List.range 8).foldl (fun s n =>
    if s.flag k (16 + n) && s.streamRecords n then s.stage n 3 (g * 2 ^ 10) info c.cyc [word] else s) s
  let s := s.irqIf (s.flag k 28) 99
  if s.flag k 27 then
    s.armPoint 3 (c.cyc + 1 + BitVec.ofNat 48 (s.fld (Reg.ttEqHalt g) 7 0)) 0x7FF (s.flag k 26) true
  else s

/-- Equation g fires (R457, R477). -/
def eqFired (c : TtCycle) (g : Nat) : State :=
  ((s.setFlag (Reg.ttEqCtrl g) 31 true).setReg (Reg.ttEqFcycLo g) (c.cyc.setWidth 32)).setReg (Reg.ttEqFcycHi g)
    (BitVec.ofNat 32 (c.cyc.toNat / 2 ^ 32))

/-- A stream ends its cycle: the gate counts down, and a disable at this key takes effect (R466, R467). -/
def streamEnd (c : TtCycle) (n : Nat) : State :=
  let x := s.stream n
  let x := if x.on && x.gateOpen && s.streamGate n != 0 && x.left != 0 then
      { x with left := x.left - 1, gateOpen := x.left != 1 } else x
  let x := if x.disKey == some c.cyc then { x with on := false, disKey := none } else x
  s.setStream n { x with counted := false }

/-- The TT takes a cycle (R455 to R461, R467 to R469). -/
def ttTake (c : TtCycle) : State :=
  let each := fun (f : State → Nat → State) (s : State) (n : Nat) => (List.range n).foldl f s
  let fires := (List.range 16).filter (s.unitFires c)
  let s := each (fun s u => s.unitStep c u) s 16
  let eqs := (List.range 4).filter (s.eqFires fires)
  let words := eqs.map fun g => (g, s.triggerWord c fires g)
  let s := eqs.foldl (fun s g => s.eqFired c g) s
  let s := each (fun s n => s.streamStart c n) s 8
  let s := each (fun s n => s.streamOpen eqs n) s 8
  let s := each (fun s n => s.streamSample c n) s 8
  let s := each (fun s p => s.stimPackets c p) s 32
  let s := words.foldl (fun s w => s.eqAct c fires w.2 w.1) s
  let s := eqs.foldl (fun s g =>
    if s.flag (Reg.ttEqCtrl g) 30 then (s.armUnits ((s.reg (Reg.ttEqCtrl g)).setWidth 16) true).setFlag (Reg.ttEqCtrl g) 31 false
    else s) s
  let s := each (fun s n => s.streamEnd c n) s 8
  let now := s.tt.arms.filter fun a => a.1 == c.cyc
  let later := s.tt.arms.filter fun a => a.1 != c.cyc
  now.foldl (fun s a => s.armUnits a.2.1 a.2.2) { s with tt := { s.tt with arms := later } }

/-- The streams in THROTTLE mode whose staging a cycle's packets would overfill, t being the state with them (R473). -/
def throttled (t : State) : List Nat :=
  (List.range 8).filter fun n => !t.streamStop n && decide (8192 < packetWords (t.stream n).staging) &&
    decide ((s.stream n).staging.length < (t.stream n).staging.length)

/-- The TT takes the oldest cycle of the probe buffers, unless a THROTTLE stream has no room for it: it then counts the hold,
once for the cycle (R452, R473, R478). -/
def ttEvaluate : State :=
  match s.tt.buf with
  | [] => s
  | c :: rest =>
    let t := { s with tt := { s.tt with buf := rest } }.ttTake c
    match s.throttled t with
    | [] => t
    | l => l.foldl (fun s n =>
        if (s.stream n).counted then s
        else (s.count (Reg.ttSCnt n) 31 16 1).setStream n { s.stream n with counted := true }) s

/-- A TRIGGER_ARM of an engine (R461). -/
def triggerArm (e d : Nat) : State :=
  let w := s.dword d 4
  let a := BitVec.ofNat 48 (9 * 2 ^ 42 + 9 * 2 ^ 38 + 2 ^ 37 + 0x1000)
  if !s.dBar d && s.seqState != 0 then s.setResult e 0x12
  else
    s.engDone e ((Eng.start s).access e (s.engPacket e d true a) none fun s =>
      let s := if s.dBar d && s.tt.buf.any (fun c => c.cyc == s.dKey d) then
          { s with tt := { s.tt with arms := s.tt.arms ++ [(s.dKey d, w.setWidth 16, w.getLsbD 16)] } }
        else s.armUnits (w.setWidth 16) (w.getLsbD 16)
      (s, false))

/-! ### Stimulus ports -/

/-- TT_STIM_CMD is written; with GO = 1 the write is queued, or refused and nothing changes (R464). -/
def stimWrite (who : Who) (v : BitVec 32) : State :=
  let t := s.setReg Reg.ttStimCmd (v &&& 0x1F#32)
  if v.getLsbD 31 then
    let p := bits v 4 0
    let k : BitVec 48 := BitVec.ofNat 48 (s.pair Reg.ttStimKlo Reg.ttStimKhi)
    let l := tget (fun _ => []) s.tt.stim p
    if s.keyRefused k || decide (16 ≤ l.length) then s.ttErr 2
    else
      let x : Stim := { key := k, val := BitVec.ofNat 64 (s.pair Reg.ttStimDlo Reg.ttStimDhi), dbg := who == .debug,
                        done := !s.flag (Reg.ttPDaddrHi p) 31 }
      { t with tt := { s.tt with stim := tput (fun _ => []) p (l ++ [x]) s.tt.stim } }
  else t

/-- A request of the trace engine (R275). -/
def ttPacket (cmd : Nat) (a : BitVec 48) : Packet :=
  { dx := 0, dy := 0, sx := 9, sy := 9, mid := 0, ctx := 0, cmd := cmd, cls := 0, len := 1, slot := 64,
    gen := 0, addr := a, resp := 0, peek := false, q := false, be := 0xFF, data := [] }

/-- A request of the trace engine has met m: a violation is recorded and freezes its interface (R283). -/
def ttViolates (pk : Packet) (m : Nat) : State := s.masterViolates ttNode 0 pk m

/-- The first delivery of a port that its midnight waits for is done: after the wait of R131 its value is written to HBM (ecc describes the read of its
burst, R245), or
the response other than OK is recorded (R465). The write stays on the port until its cycle has been evaluated. -/
def stimDeliver (p : Nat) (ecc : List EccAt) : State :=
  let l := tget (fun _ => []) s.tt.stim p
  if s.seq.midnight && !s.seq.settled && !s.regionHolds && !s.inFlight && !(s.master ttNode 0).frozen then
    match l.findIdx? fun x => x.key == s.seq.cycle && !x.done with
    | none => s
    | some i =>
      let a := s.pair (Reg.ttPDaddrLo p) (Reg.ttPDaddrHi p) % 2 ^ 46
      let pk := ttPacket 3 (BitVec.ofNat 48 (2 ^ 47 + a))
      let m := s.engMeets pk
      if m = 8 then s
      else
        let l' := if s.tt.buf.any fun c => c.cyc == s.seq.cycle then l.modify i fun x => { x with done := true }
          else l.eraseIdx i
        let s := { s with tt := { s.tt with stim := tput (fun _ => []) p l' s.tt.stim } }
        if m = 0 then s.hbmWriteNow a (bytesOf 8 ((l[i]?).map (·.val.toNat) |>.getD 0)) ecc
        else ((s.ttViolates pk m).loss 3).ttErr 5
  else s

/-! ### Stream commands (R466) -/

/-- Whether FIDELITY is in force (R541). -/
def fidelity : Bool := s.flag Reg.modeStat 29

/-- TT_S_CMD is written; a command refused changes nothing (R464, R466). -/
def streamCmd (n : Nat) (v : BitVec 32) (host : Bool) : State :=
  let held := host && s.fidelity && decide (n < 4) && v.getLsbD 31 && !v.getLsbD 30
  if held then s.ttErr 3
  else
    let t := s.setReg (Reg.ttSCmd n) (v &&& 0x40000000#32)
    if v.getLsbD 31 then
      let k : BitVec 48 := BitVec.ofNat 48 (s.pair (Reg.ttSKeyLo n) (Reg.ttSKeyHi n))
      if s.keyRefused k then s.ttErr 1
      else if v.getLsbD 30 then
        if 65536 < s.fld (Reg.ttSCh n) 31 16 + s.fld (Reg.ttSCh n) 15 0 ∨ s.fld (Reg.ttSRbLo n) 11 0 ≠ 0 ∨
            s.fld (Reg.ttSRsize n) 22 0 = 0 then s.ttErr 1
        else t.setStream n { s.stream n with enKey := some k }
      else t.setStream n { s.stream n with disKey := some k }
    else t

/-! ### Rings and sinks (R470 to R472) -/

/-- Words of the ring of stream n, and its base address. -/
def ringSize (n : Nat) : Nat := max 1 (512 * s.fld (Reg.ttSRsize n) 22 0)
def ringBase (n : Nat) : Nat := s.pair (Reg.ttSRbLo n) (Reg.ttSRbHi n) % 2 ^ 48

def ringWr (n : Nat) : Nat := (s.reg (Reg.ttSWr n)).toNat % s.ringSize n
def ringRd (n : Nat) : Nat := (s.reg (Reg.ttSRd n)).toNat % s.ringSize n

/-- Words written and unread. -/
def ringUsed (n : Nat) : Nat := (s.ringWr n + s.ringSize n - s.ringRd n) % s.ringSize n

/-- Whether the ring takes k more words (R470). -/
def ringRoom (n k : Nat) : Bool := decide (s.ringUsed n + k + 2 < s.ringSize n)

/-- The address of a word of the ring. -/
def ringAddr (n o : Nat) : BitVec 48 := BitVec.ofNat 48 (s.ringBase n + 8 * o)

/-- Address of the burst of a ring i bursts after that of offset o. -/
def ringBurst (n o i : Nat) : BitVec 48 := s.ringAddr n ((o / 4 * 4 + 4 * i) % s.ringSize n)

/-- Bursts that k words from an offset on touch. -/
def ringBursts (o k : Nat) : Nat := (o % 4 + k + 3) / 4

/-- The word that a ring holds at an offset. -/
def ringWord (n o : Nat) : BitVec 64 :=
  let a := s.ringAddr n o
  if aSpace a = 2 then BitVec.ofNat 64 (wordOf (s.hbmGet (aHbm a) 8))
  else
    match (s.destOf a).bind (fun n => tileAt (n % 10) (n / 10)) with
    | some t => s.spWord t (aBank a) (aWord a)
    | none => 0

/-- What the bursts of k words from offset o on meet, read (cmd 0) or written (cmd 1): 0 nothing, 8 a wait, else the first
response or violation. -/
def ringMeets (cmd n o k : Nat) : Nat :=
  ((List.range (ringBursts o k)).map fun i => s.engMeets (ttPacket cmd (s.ringBurst n o i))).foldl
    (fun a b => if a = 0 then b else a) 0

/-- The TT reads k words of a ring from offset o on, whole bursts, each word checked (R221, R250): the state after, and the words as
read. -/
def ringFetch (n o k : Nat) (ecc : List EccAt) : State × List (BitVec 64) :=
  let r := (List.range (ringBursts o k)).foldl (fun (r : State × List (BitVec 64)) i =>
    let f := r.1.engFetch (s.ringBurst n o i) (eccFrom ecc (4 * i))
    (f.1, r.2 ++ f.2.1)) (s, [])
  (r.1, (r.2.drop (o % 4)).take k)

/-- The word for position j of the bursts written when a packet p goes to offset o: those before it as they are, the packet, then
zeros up to the word at RD (R470). -/
def ringNext (n o : Nat) (p : List (BitVec 64)) (j : Nat) : BitVec 64 :=
  let z := s.ringSize n
  let here := (o / 4 * 4 + j) % z
  if j < o % 4 then s.ringWord n here
  else if j < o % 4 + p.length then p.getD (j - o % 4) 0
  else if (List.range (j + 1)).any (fun i => decide (o % 4 + p.length ≤ i) && (o / 4 * 4 + i) % z == s.ringRd n) then s.ringWord n here
  else 0

/-- A packet is written into the ring in whole bursts: WR advances and PKTS counts (R470). -/
def ringPut (n : Nat) (p : List (BitVec 64)) : State :=
  let o := s.ringWr n
  let t := (List.range (ringBursts o p.length)).foldl (fun t i =>
    t.engPut (s.ringBurst n o i) ((List.range 4).map fun j => s.ringNext n o p (4 * i + j))) s
  (t.setReg (Reg.ttSWr n) (BitVec.ofNat 32 ((o + p.length) % s.ringSize n))).count (Reg.ttSCnt n) 15 0 1

/-- The first packet in staging goes to the ring, or the write fails; ok is the network's answer. A violation freezes the TT
(R283). -/
def ringWritePacket (n : Nat) (p : List (BitVec 64)) (rest : List (List (BitVec 64))) (ok : Bool) : State :=
  match s.ringMeets 1 n (s.ringWr n) p.length with
  | 8 => s
  | m =>
    let pk := ttPacket 1 (s.ringAddr n (s.ringWr n / 4 * 4))
    let s := if m = 9 then ((s.destOf pk.addr).bind domainOf).elim s s.cancelDown else s
    if (m = 0 ∨ m = 9) ∧ ok = true then (s.setStream n { s.stream n with staging := rest }).ringPut n p
    else (s.setStream n { s.stream n with failed := true }).ttViolates pk m

def sinkPort (n : Nat) : Nat := s.fld (Reg.ttSFsink n) 6 4
def sinkWin (n : Nat) : Nat := s.fld (Reg.ttSFsink n) 1 0

/-- The far ring moves on by k words; after a segment of 64 KiB the window's base moves on or returns (R471). -/
def farStep (n k : Nat) : State :=
  let x := s.stream n
  let segs := max 1 (s.fld (Reg.ttSFsink n) 15 8)
  let far := x.far + k
  let b := Reg.fabRwinLo (s.sinkPort n) (s.sinkWin n)
  let s := s.setReg (Reg.ttSRd n) (BitVec.ofNat 32 ((s.ringRd n + k) % s.ringSize n))
  if far = 8192 * segs then
    (s.setReg b (s.reg b - BitVec.ofNat 32 (segs - 1))).setStream n { x with sent := none, far := 0 }
  else
    let s := if far % 8192 = 0 then s.setReg b (s.reg b + 1) else s
    s.setStream n { x with sent := none, far := far }

/-- The remote write of a stream is answered: the words are passed on, or the write is to be repeated (R471, R472). -/
def remoteDone (n : Nat) : Option State :=
  match (s.stream n).sent with
  | none => none
  | some (k, w) =>
    match s.tt.resps.findIdx? fun r => r.slot == k with
    | none => none
    | some i =>
      let code := ((s.tt.resps[i]?).map (·.resp)).getD 0
      let s := { s with tt := { s.tt with resps := s.tt.resps.eraseIdx i } }
      some (if code = 0 then s.farStep n w else s.setStream n { s.stream n with sent := none, failed := true })

/-- The words that go out next: the first of them, and their number, which ends with the far burst (R471). -/
def sendSpan (n : Nat) : Nat × Nat := (s.ringRd n, min (4 - (s.stream n).far % 4) (s.ringUsed n))

/-- The trace engine sends the next words of a ring, as read, through the stream's remote window, a burst at a time (R471). The
read is checked as every read is; one that ends with a response other than OK is repeated as a write is (log 86). -/
def remoteSend (n : Nat) (ecc : List EccAt) : State :=
  let x := s.stream n
  let busy := (List.range 8).filterMap fun m => (s.stream m).sent.map (·.1)
  let (o, w) := s.sendSpan n
  match x.sent, s.freeSlot ttNode 0 with
  | none, some k =>
    if s.ringUsed n = 0 ∨ busy.contains k = true then s
    else
      match s.ringMeets 0 n o w with
      | 8 => s
      | m =>
        let rd := ttPacket 0 (s.ringBurst n o 0)
        let s := if m = 9 then ((s.destOf rd.addr).bind domainOf).elim s s.cancelDown else s
        if m = 0 ∨ m = 9 then
          let f := s.ringFetch n o w ecc
          let r := x.far % 4
          let sent := (List.range r).map fun i => s.ringWord n ((o + s.ringSize n - r + i) % s.ringSize n)
          let ws := sent ++ f.2 ++ List.replicate (4 - r - w) 0
          let node := portNode (s.sinkPort n)
          let a := BitVec.ofNat 48 (node % 10 * 2 ^ 42 + node / 10 * 2 ^ 38 + 2 ^ 37 + 0x80000 + 0x10000 * s.sinkWin n + x.far % 8192 / 4 * 32)
          let pk := { ttPacket 1 a with slot := k, data := [flitOf ws] }
          (f.1.setStream n { x with sent := some (k, w) }).request ttNode 0 pk
        else (s.setStream n { x with failed := true }).ttViolates rd m
  | _, _ => s

/-- A ring or remote write of stream n: a remote write that has been answered ends; else the first packet in staging is
written to the ring when it has room, or overflows; else the next words go to the far ring (R470 to R473). -/
def ringWrite (n : Nat) (ok : Bool) (ecc : List EccAt) : State :=
  let far := s.flag (Reg.ttSCtrl n) 28
  match s.remoteDone n with
  | some t => t
  | none =>
    let x := s.stream n
    if (s.master ttNode 0).frozen || x.failed then s
    else
      match x.staging with
      | p :: rest =>
        if isOverflow p || s.ringRoom n p.length then s.ringWritePacket n p rest ok
        else if s.streamStop n then
          let q := tracePacket n 5 0 0 (packetSeq p) (packetCyc p) []
          (s.overflow n [] (packetSeq p) (packetCyc p)).ringWritePacket n q [] ok
        else if far then s.remoteSend n ecc else s
      | [] => if far then s.remoteSend n ecc else s

/-- 1 µs after a failed write the TT repeats it (R472). -/
def ringRepeat (n : Nat) : State :=
  let x := s.stream n
  if x.failed && !(s.master ttNode 0).frozen then (s.setStream n { x with failed := false }).ttErr 6 else s

/-- TT_S_FIFO is read (R471): the TT reads the word at RD, checked as every read is; a read that ends with a response other than
OK answers a free value and advances nothing (log 86), and a frozen interface keeps it waiting (R472). With the fabric as sink, or an empty ring, nothing advances. -/
def fifoRead (n : Nat) (peek : Bool) (ecc : List EccAt) : State :=
  let x := s.stream n
  let o := s.ringRd n
  match if (s.master ttNode 0).frozen then 8 else s.ringMeets 0 n o 1 with
  | 8 => s
  | m =>
    let rd := ttPacket 0 (s.ringBurst n o 0)
    let s := if m = 9 then ((s.destOf rd.addr).bind domainOf).elim s s.cancelDown else s
    if m = 0 ∨ m = 9 then
      let f := s.ringFetch n o 1 ecc
      let w := f.2.getD 0 0
      let s := f.1.answer (if x.half then BitVec.ofNat 32 (w.toNat / 2 ^ 32) else w.setWidth 32)
      if peek || s.flag (Reg.ttSCtrl n) 28 || s.ringUsed n == 0 then s
      else
        let s := s.setStream n { x with half := !x.half }
        if x.half then s.setReg (Reg.ttSRd n) (BitVec.ofNat 32 ((s.ringRd n + 1) % s.ringSize n)) else s
    else ({ s with free := s.free + 1 }.ttViolates rd m).answer ((Config.freeValue s.free).setWidth 32)

/-- TT_S_RD is written (R471, R478). -/
def rdWrite (n : Nat) (v : BitVec 32) : State :=
  if s.flag (Reg.ttSCtrl n) 28 then s
  else if s.ringSize n ≤ v.toNat ∨ s.ringUsed n < (v.toNat + s.ringSize n - s.ringRd n) % s.ringSize n then s.ttErr 4
  else (s.setReg (Reg.ttSRd n) v).setStream n { s.stream n with half := false }

end State

/-- TRIGGER_ARM (R461). -/
def execTriggerArm (e : Nat) (s : State) : Out := .next (s.work e 7 fun d => s.triggerArm e d)

/-- TT_CYCLE_EVALUATE (R455). -/
def execTtCycleEvaluate (s : State) : Out := .next (if s.ttOn then s.ttEvaluate else s)

/-- STIMULUS_WRITE (R464). -/
def execStimulusWrite (who : Who) (v : BitVec 32) (s : State) : Out :=
  .next (s.regWrite who Reg.ttStimCmd (setBit v 31 true) fun s v => s.stimWrite who v)

/-- STIMULUS_DELIVERY (R465). -/
def execStimulusDelivery (p : StimPut) (s : State) : Out := .next (s.stimDeliver p.port p.ecc)

/-- STREAM_ENABLE (R466). -/
def execStreamEnable (n : Nat) (v : BitVec 32) (s : State) : Out :=
  .next (if n < 8 then s.regWrite .host (Reg.ttSCmd n) (setBits v 31 30 3) fun s v => s.streamCmd n v true
    else s)

/-- STREAM_DISABLE (R466). -/
def execStreamDisable (n : Nat) (v : BitVec 32) (s : State) : Out :=
  .next (if n < 8 then s.regWrite .host (Reg.ttSCmd n) (setBits v 31 30 2) fun s v => s.streamCmd n v true
    else s)

/-- RING_WRITE (R470). -/
def execRingWrite (n : Nat) (e : RingEnd) (s : State) : Out :=
  .next (if s.ttOn && decide (n < 8) then s.ringWrite n e.ok e.ecc else s)

/-- RING_WRITE_REPEAT (R472). -/
def execRingWriteRepeat (n : Nat) (s : State) : Out := .next (if s.ttOn && decide (n < 8) then s.ringRepeat n else s)

/-- TRACE_FIFO_READ (R471). -/
def execTraceFifoRead (n : Nat) (r : FifoTake) (s : State) : Out :=
  .next (if n < 8 then s.regAccess .host (Reg.ttSFifo n) false r.peek 0 fun s => s.fifoRead n r.peek r.ecc else s)

/-- TRACE_RD_WRITE (R471). -/
def execTraceRdWrite (n : Nat) (v : BitVec 32) (s : State) : Out :=
  .next (if n < 8 then s.regWrite .host (Reg.ttSRd n) v fun s v => s.rdWrite n v else s)

end Sys2Proof.Machine
end

