-- ==== Sys2Proof/Machine/Views.lean ====
section
/-! DEFINITION. What a register shows (R8 to R11): the word the register table holds, with the fields that show other state
laid over it. -/

namespace Sys2Proof.Machine

/-- Last voltage preset's request in units of 5 mV (R535). -/
def presetReq (p : Nat) : Nat := if p = 1 then 180 else if p = 2 then 124 else 160

namespace State

variable (s : State)

/-! ### The CE window -/

/-- SEQ_STAT (R44). -/
def seqStatWord : BitVec 32 := BitVec.ofNat 32 (s.minStep * 16 + b2n s.par * 8 + s.seqState)

/-- Tokens recorded for the current cycle (R342). -/
def tokensNow : List Tok := s.seq.tok.filter fun t => t.cyc == s.seq.cycle.setWidth 32

/-- FAB_TOK (R342): the lowest neighbour whose token is missing. -/
def fabTokWord : BitVec 32 :=
  let wait := s.seq.midnight && s.fabricHolds
  let miss := (s.seq.neigh.filter fun a => !s.seq.tok.contains ⟨a, s.seq.cycle.setWidth 32⟩).foldl min 2047
  let r := setBit (s.reg Reg.fabTok) 31 wait
  setBits (setBits r 26 16 (if wait then miss else 0)) 11 0 s.tokensNow.length

/-- Packets of the other epoch that stand at a port (R334, R342). -/
def oldPackets : Nat :=
  s.ports.foldl (fun n e => n + ((e.2.arrived ++ e.2.heldPk ++ e.2.svcQ ++ e.2.bulkQ).filter fun f => f.e != s.epoch).length) 0

/-- The topology's entry for the address that FAB_TOPO_SEL names, at the root (R343). -/
def topoShown : TopoDev :=
  if s.flag Reg.fabCtrl 30 then s.topoDev (s.fld Reg.fabTopoSel 10 0) else TopoDev.empty

/-- The store's directory as CE_BOOT, CE_SLOT_s, CE_STORE and CE_PATROL show it (R393, R396). -/
def ceBootWord : BitVec 32 := BitVec.ofNat 32 (s.store.dir.gen % 65536 * 2 ^ 16 + b2n s.store.dir.sel)

def ceSlotWord (k : Nat) : BitVec 32 :=
  BitVec.ofNat 32 (s.slotState k * 2 ^ 29 + (if s.slotState k = 0 then 0 else tget (fun _ => 0) s.store.dir.fcount k))

def ceStoreWord : BitVec 32 :=
  BitVec.ofNat 32 (b2n (decide (s.spareCount < 512)) * 2 ^ 31 + s.spareCount % 2 ^ 15 * 2 ^ 16 + min s.store.dir.bad.length 65535)

/-- A register of the CE window. -/
def viewCe (o k : Nat) : BitVec 32 :=
  if o = 0x40004 then s.seqStatWord
  else if o = 0x40008 then s.seq.cycle.setWidth 32
  else if o = 0x40010 then s.seqHold
  else if o = 0x60014 then BitVec.ofNat 32 (min 4095 s.frozenCount)
  else if o = 0x70004 then s.fabIdentity.setWidth 32
  else if o = 0x70008 then s.fabIdentity.extractLsb' 32 32
  else if o = 0x70010 then setBits (s.reg k) 15 0 (min s.oldPackets 65535)
  else if o = 0x70014 then s.fabTokWord
  else if o = 0x70024 then s.topoShown.id.setWidth 32
  else if o = 0x70028 then s.topoShown.id.extractLsb' 32 32
  else if 0x70040 ≤ o ∧ o < 0x70060 ∧ o % 4 = 0 then tget (fun _ => 0) s.topoShown.ports ((o - 0x70040) / 4)
  else if o = 0x1C then s.ceBootWord
  else if 0x20 ≤ o ∧ o < 0x30 ∧ o % 4 = 0 then s.ceSlotWord ((o - 0x20) / 4)
  else if o = 0x60 then s.ceStoreWord
  else if o = 0x64 then setBits (s.reg k) 15 0 (min s.store.dir.passes 65535)
  else if o = 0x68 then s.fuse 3 0 &&& 0xFFF#32
  else s.reg k

/-! ### A tile's window -/

/-- CLU_STAT of a physical cluster (R92). A cluster of a region that is out shows PARKED, also after its domain has been off
(R101): the tile holds a last tile and the cluster does not stand in the skipped row. -/
def cluStatWord (t c : Nat) : BitVec 32 :=
  let x := s.clu t c
  let last := s.flag (Reg.tilePlace t) 31 && c / 8 != s.fld (Reg.tilePlace t) 23 20
  let st :=
    if x.faulted then 4
    else if last && s.tileOut t then 5
    else if !s.takesPart t c || s.seqState == 0 then 0
    else if s.seqState = 3 then 3
    else if s.seq.midnight || x.done then 2
    else 1
  let live := s.inWave t c x || x.faulted
  BitVec.ofNat 32 (st * 2 ^ 28 + (if live then (s.waits t c x).toNat else 0) * 2 ^ 17 +
    b2n (s.takesPart t c && s.par) * 2 ^ 10 + (if live then x.step % 1024 else 0))

/-- CLU_WSTAT of a physical WU (R136); C reads 0 until resets are released (R381). -/
def cluWstatWord (t c w : Nat) : BitVec 32 :=
  let u := (s.clu t c).wu w
  BitVec.ofNat 32 (b2n (s.wuMaster t c w).frozen * 2 ^ 31 + b2n (s.flag (Reg.cluWstat t c w) 30) * 2 ^ 30 + b2n (u.c && s.flag Reg.dwnStat 25) * 2 ^ 29 +
    b2n u.ended * 2 ^ 28 + min u.q1.length 16 * 2 ^ 23 + min u.q0.length 16 * 2 ^ 18 + u.hold % 1024 * 2 ^ 8 + u.pc % 256)

/-- SEQ_TSTEP of a tile (R50): MNDONE while every cluster of it that takes part has completed step L - 1, and the parity of the
cycle the tile is in; a tile that takes no part is in none. -/
def seqTstepWord (t : Nat) : BitVec 32 :=
  BitVec.ofNat 32 (b2n (decide (0 < s.len ∧ s.tileMin t = s.len)) * 2 ^ 12 + b2n (s.tileActive t && s.par) * 2 ^ 11 + s.tileMin t)

/-- The physical cluster with last coordinates (cx,cy) in a tile (R89). -/
def cluAlias (t cx cy : Nat) : Option Nat :=
  (List.range 72).find? fun c =>
    s.flag (Reg.cluId t c) 13 && s.fld (Reg.cluId t c) 9 7 == cx && s.fld (Reg.cluId t c) 12 10 == cy

/-- Whether a welt lane in PARK holds a lane-byte, or an inbound welt that is complete keeps one until the join (R415). -/
def weltHolds (t i : Nat) : Bool :=
  let l := gatewayLane t (12 + i / 36) (i % 36)
  let here := ((s.lane l).place (s.chainLen l - 1)).isSome
  let w := s.welt t i
  let full := match s.weltUntil t with
    | some c => decide (0 < w.inb ∧ c ≤ w.disc / w.inb)
    | none => false
  here && (decide (2 ≤ s.weltMode t i) || full)

/-- Whether a gateway output waits for a lane-byte of an outbound welt in PARK (R415). -/
def weltWaited (t : Nat) : Bool :=
  s.lanes.any fun e =>
    let l := gatewayLane t (e.1 / 256 % 16) (e.1 % 256)
    e.1 == laneKey l && decide (0 < e.2.n) && (e.2.place 0).isNone &&
      (match s.sourceOf l (bits (e.2.entry e.2.idx) 15 12) (bits (e.2.entry e.2.idx) 11 5) with
        | some (u, _) => u.kind == 4 && decide (2 ≤ s.weltMode t u.lane)
        | none => false)

/-- WLT_STAT (R422). -/
def wltStatWord (t : Nat) : BitVec 32 :=
  let out := s.tileOut t
  let held := out && ((List.range 144).any (s.weltHolds t) || s.weltWaited t)
  setBit (setBit (s.reg (Reg.wltStat t)) 31 out) 30 held

/-- WLT_LANE_i (R422); lanes that do not exist count nothing. -/
def wltLaneWord (t i : Nat) : BitVec 32 :=
  let w := s.welt t i
  setBits (setBits (s.reg (Reg.wltLane t i)) 21 11 (min w.rcd.length 1024)) 10 0 (min w.inb 1024)

/-- A register of a tile's window. -/
def viewTile (t o k : Nat) : BitVec 32 :=
  if o = 0x40000 then s.seqTstepWord t
  else if 0x80000 ≤ o ∧ o < 0xA4000 then
    let c := (o - 0x80000) / 0x800
    let r := (o - 0x80000) % 0x800
    if r = 0 then s.reg k ||| BitVec.ofNat 32 c
    else if r = 8 then s.cluStatWord t c
    else if 0x200 ≤ r ∧ r < 0x340 ∧ r % 0x40 = 0 then s.cluWstatWord t c ((r - 0x200) / 0x40)
    else s.reg k
  else if o = 0x50020 then
    setBits (setBit (s.reg k) 30 (s.devIn.sold != 0 && s.devIn.fused t)) 17 16 s.dev.native
  else if 0x60000 ≤ o ∧ o < 0x60400 ∧ o % 0x40 = 4 then setBits (s.reg k) 5 0 (min (s.bankInfl t ((o - 0x60000) / 0x40)) 63)
  else if o = 0x70010 then s.wltStatWord t
  else if 0x70400 ≤ o ∧ o < 0x70640 ∧ o % 4 = 0 then s.wltLaneWord t ((o - 0x70400) / 4)
  else s.reg k

/-! ### The other windows -/

/-- SS_STAT (R445). -/
def ssStatWord : BitVec 32 :=
  let n := fun st => (s.usedTasks.filter fun d => s.dState d == st).length
  setBits (setBits (setBit (s.reg Reg.ssStat) 30 (s.seq.midnight && s.barrierOpen none)) 21 11 (n 2)) 10 0 (n 1)

def viewSs (o k : Nat) : BitVec 32 :=
  if o = 4 then s.ssStatWord
  else if o = 0x18 then s.tick.setWidth 32
  else if 0x100 ≤ o ∧ o < 0x140 ∧ o % 4 = 0 then setBit (s.reg k) 30 (s.master ssNode ((o - 0x100) / 4)).frozen
  else s.reg k

def viewTt (o k : Nat) : BitVec 32 :=
  if o = 4 then setBits (s.reg k) 15 8 (numOf (fun n => (s.stream n).on) 8)
  else if 0x2000 ≤ o ∧ o < 0x2800 ∧ o % 0x100 = 0x2C then (s.fifoRead ((o - 0x2000) / 0x100) true []).bus
  else s.reg k

/-- Position of a halt point, counted over steps 0 to L - 1 and the midnight of each cycle (R500). -/
def posOf (cyc : BitVec 48) (step : Nat) : Nat := cyc.toNat * (s.len + 1) + min step s.len

/-- DBG_STAT.STEPS: positions from the slowest cluster to the target of a STEP (R500, R508). -/
def stepsLeft : Nat :=
  match s.dbg.target with
  | none => 0
  | some p =>
    if s.fld Reg.dbgStat 15 0 = 0 then 0
    else min 65535 (s.posOf p.cyc p.step - s.posOf s.seq.cycle (if s.seq.midnight then s.len else s.minStep))

/-- Whether the awl port is locked (R489, R490). -/
def awlLocked : Bool := (s.fuse 3 0).getLsbD 12 && !s.flag Reg.dbgAuth 29

def viewDm (o k : Nat) : BitVec 32 :=
  if o = 4 then
    setBits (setBit (s.reg k) 30 (!s.haltPoints.isEmpty || s.dbg.now || s.dbg.reached.isSome)) 15 0 s.stepsLeft
  else if o = 0x20 then setBit (setBit (s.reg k) 31 s.awlLocked) 30 ((s.fuse 3 0).getLsbD 13)
  else if o = 0x80 then setBit (s.reg k) 28 (decide (4 ≤ s.fld Reg.dbgAwl 29 27))
  else if o = 0xA0 then setBit (s.reg k) 29 s.dbg.fuse.isSome
  else if o = 0x110 then setBit (s.reg k) 30 (s.flag k 30 && s.flag Reg.dbgStat 31)
  else if o = 0x114 ∧ s.stallMoved = true then BitVec.ofNat 32 (100 * s.fld Reg.wdgStall 15 0)
  else if (0x60 ≤ o ∧ o < 0x80) ∨ o = 0xA4 then 0
  else s.reg k

/-- TIO_STAT.VOK and TIO_BANK_b.VOK follow the supply last measured (R515, R531). -/
def viewTio (o k : Nat) : BitVec 32 :=
  if o = 4 then setBits (s.reg k) 31 16 (numOf s.bankOk 16)
  else if 0x100 ≤ o ∧ o < 0x140 ∧ o % 4 = 0 then setBit (s.reg k) 25 (s.bankOk ((o - 0x100) / 4))
  else s.reg k

/-- Failing units of a kind in force: clusters by key with their units. -/
def badCount (l : Tab (List Nat)) (most : Nat) : Nat := l.foldl (fun n e => if e.2.length ≤ most then n + e.2.length else n) 0

/-- SPR_GRADE (R563). -/
def sprGradeWord : BitVec 32 :=
  let d := s.dev
  BitVec.ofNat 32 (2 ^ d.sold * 2 ^ 29 + (if d.grade < 3 then 2 ^ d.grade else 0) * 2 ^ 26 +
    d.fusedRows.foldl (fun n y => n + 2 ^ (y - 1)) 0 * 2 ^ 8 + d.fusedCols.foldl (fun n x => n + 2 ^ (x - 1)) 0)

/-- SPR_USED0: failed WUs and BPs that the spares of their clusters cover (R545, R563). -/
def sprUsed0Word : BitVec 32 :=
  BitVec.ofNat 32 (min 65535 (badCount s.dev.badWu 1) * 2 ^ 16 + min 65535 (badCount s.dev.badBp 4))

/-- Spare pseudo-channels in use at a stack. -/
def sparesUsed (m : Nat) : Nat :=
  match pcAssign s.dev m with
  | some l => (l.filter fun p => 62 ≤ p).length
  | none => 2

/-- SPR_USED1 (R563). -/
def sprUsed1Word : BitVec 32 :=
  let pcs := (List.range 6).foldl (fun n m => n + s.sparesUsed m) 0
  let lanes := s.dev.badLane.foldl (fun n e => n + e.2.length) 0
  let rows := s.dev.badRow.foldl (fun n e => n + e.2.length) 0
  BitVec.ofNat 32 (min 255 s.dev.ppr.length * 2 ^ 24 + min 255 pcs * 2 ^ 16 + min 255 lanes * 2 ^ 8 + min 255 rows)

/-- MODE_STAT (R561): a ramp in progress, a request below the preset's, no checkpoints for want of a single device. -/
def modeStatWord : BitVec 32 :=
  let w := s.reg Reg.modeStat
  let low := decide (bits w 7 0 < presetReq (bits w 31 30))
  setBit (setBit (setBit w 28 (!s.pm.ramping.isEmpty)) 27 low) 26 (w.getLsbD 29 && s.fld Reg.seqNbr 11 0 != 0)

def viewPm (o k : Nat) : BitVec 32 :=
  if 0x100 ≤ o ∧ o < 0x388 ∧ o % 8 = 0 then setBit (s.reg k) 28 (privileged ((o - 0x100) / 8))
  else if o = 0x10004 then s.modeStatWord
  else if o = 0x20008 then s.sprGradeWord
  else if o = 0x2000C then BitVec.ofNat 32 s.dev.gen
  else if o = 0x20014 then s.sprUsed0Word
  else if o = 0x20018 then s.sprUsed1Word
  else if 0x40000 ≤ o ∧ o < 0xC0000 ∧ o % 4 = 0 then
    (tget (fun _ => (0 : BitVec 256)) s.ledger ((o - 0x40000) / 0x20)).extractLsb' (8 * (o % 0x20)) 32
  else s.reg k

/-- NOC_NODE (R297). -/
def nocNodeWord (n : Nat) : BitVec 32 :=
  BitVec.ofNat 32 (n % 10 * 2 ^ 28 + n / 10 * 2 ^ 24 + min 8 (s.queueAt n).length)

/-- NOC_LOCK (R297). -/
def nocLockWord (n : Nat) : BitVec 32 :=
  let l := s.lock n
  BitVec.ofNat 32 (b2n l.isOpen * 2 ^ 31 + l.node % 10 * 2 ^ 27 + l.node / 10 * 2 ^ 23 + l.mid % 1024 * 2 ^ 13 +
    min 16 l.count * 2 ^ 8 + b2n (!l.broken.isEmpty) * 2 ^ 7)

/-- The BAR0 offset with the last alias of a cluster's block resolved (R89). -/
def key (k : Nat) : Nat :=
  let o := k % 0x100000
  match nodeKind (k / 0x100000) with
  | .tile t =>
    if 0xB0000 ≤ o ∧ o < 0xD0000 then
      match s.cluAlias t ((o - 0xB0000) / 0x800 % 8) ((o - 0xB0000) / 0x4000) with
      | some c => k - o + 0x80000 + 0x800 * c + o % 0x800
      | none => k
    else k
  | _ => k

/-- What the register at a BAR0 offset shows; 0 where none is defined (R11). -/
def view (k0 : Nat) : BitVec 32 :=
  let k := s.key k0
  let n := k / 0x100000
  let o := k % 0x100000
  if (rowAt k).isNone then 0
  else if o = 0xFF000 then s.nocNodeWord n
  else if o = 0xFF008 then s.nocLockWord n
  else match nodeKind n with
    | .ce => s.viewCe o k
    | .tile t => s.viewTile t o k
    | .ss => s.viewSs o k
    | .tt => s.viewTt o k
    | .dm => s.viewDm o k
    | .pm => s.viewPm o k
    | .tio => s.viewTio o k
    | _ => s.reg k

end State

end Sys2Proof.Machine
end

