-- ==== Sys2Proof/Machine/Watchdogs.lean ====
section
/-! DEFINITION. The two watchdogs' expiries (R40, R503, R504): when a period runs out is the command's to say (log 6, log 27). -/

namespace Sys2Proof.Machine

namespace State

variable (s : State)

/-- The clusters found waiting, with the conditions of R21 that each awaits, in ascending order of tile and physical index. -/
def stallWaiting : List (Nat × Nat × Nat) :=
  (List.range 64).flatMap fun t =>
    if s.tileActive t then
      (List.range 72).filterMap fun c =>
        let x := s.clu t c
        let w := (s.waits t c x).toNat
        if s.inWave t c x && w != 0 then some (t, c, w) else none
    else []

/-- The stall fault (R40, R503, R586): a record for each of the first 16 clusters that wait, or one that names the holds. -/
def stallExpiry : State :=
  if s.stallCounts then
    let l := s.stallWaiting.take 16
    let n := l.length
    let stat := s.seqStatWord.toNat
    let hold := s.seqHold.toNat
    let s' :=
      if n = 0 then s.seqReport 2 4 ceNode none 0 stat hold
      else l.zipIdx.foldl (fun (r : State) e =>
        let t := e.1.1
        let c := e.1.2.1
        r.seqReport 2 4 (tileNode t) (s.lastTile t) (routerHalf c + e.2 * 2 ^ 5 + n)
          (s.clusterWord t c (s.clu t c).step + b2n s.par * 2 ^ 9) e.1.2.2) s
    let s' := s'.stopRun
    { s' with seq := { s'.seq with stalled := true } }
  else s

/-- The heartbeat restarts its full period (R504). -/
def heartRestart : State := s.setFld Reg.wdgStat 27 0 (1000 * max 1 (s.fld Reg.wdgHb 15 0))

/-- The heartbeat expires (R504): HBEXP, its record and interrupt, and what HBACT asks for. -/
def heartExpiry : State :=
  if s.flag Reg.wdgCtrl 0 && !s.flag Reg.wdgStat 30 then
    let act := s.fld Reg.wdgCtrl 2 1
    let s := ((s.setFlag Reg.wdgStat 31 true).record 1 0xB 1 dmNode act 0 0).irq dmNode
    let s := if act = 1 ∨ act = 2 then s.armPoint 7 s.seq.cycle 0x7FF false true else s
    let s := if act = 2 then { s with tio := { s.tio with safe := true } } else s
    s.heartRestart
  else s

end State

/-- STALL_WATCHDOG_EXPIRY (R503). -/
def execStallWatchdogExpiry (s : State) : Out := .next s.stallExpiry

/-- HEARTBEAT_EXPIRY (R504). -/
def execHeartbeatExpiry (s : State) : Out := .next s.heartExpiry

end Sys2Proof.Machine
end

