-- ==== Sys2Proof/Machine/Power.lean ====
section
/-! DEFINITION. The 81 switched power domains (R285 to R289, R298, R299, R528): how one powers down, what it loses, and how
it wakes; the dusk handshake of MCs and ports (R254 to R256, R334). When a step of these happens is the command's to say
(log 6). -/

namespace Sys2Proof.Machine

/-- Node of a domain (R285). -/
def domainNode (k : Nat) : Nat :=
  if k < 64 then tileNode k
  else if k < 70 then mcNode (k - 64)
  else if k < 78 then portNode (k - 70)
  else match k with
    | 78 => ttNode
    | 79 => ssNode
    | _ => tioNode

namespace State

variable (s : State)

def setDomState (k st : Nat) : State := s.setFld (Reg.pwrDom k) 26 24 st

/-! ### Requests (R298, R299, R528) -/

/-- Whether a port carries a scheduled channel of the running image: a channel's far end is named for it, a receive entry is
valid, or a transit goes out by it (R299, R347). -/
def portScheduled (p : Nat) : Bool :=
  (tget (fun _ => none) s.fab.peers p).isSome ||
  (List.range 8).any fun q => (List.range 128).any fun j =>
    let e := s.reg (Reg.lnkChrx q j)
    e.getLsbD 31 && (q == p || (bits e 30 29 == 2 && bits e 28 26 == p))

/-- Whether the target interface keeps its domain on (R528). -/
def tioNeeded : Bool :=
  s.flag Reg.tioCadCtrl 31 || s.fld Reg.tioRecCtrl 1 0 != 0 || (List.range 640).any fun p => s.fld (Reg.tioPin p) 31 30 != 0

/-- Whether a power-down request is refused (R299, R528). -/
def downRefused (who : Who) (k : Nat) : Bool :=
  s.domState k != 2 || (s.flag Reg.pwrCtrl 0 && who == .host) ||
  (if k < 64 then s.rgnState k == 1 || s.rgnState k == 2
   else if k < 70 then false
   else if k < 78 then s.portScheduled (k - 70)
   else match k with
    | 78 => (List.range 8).any fun n => (s.stream n).on
    | 79 => s.usedTasks.any s.dLive
    | _ => s.tioNeeded)

/-- A refused request: ERR, and the PM's interrupt (R298). -/
def domErr (k : Nat) : State := (s.setFlag (Reg.pwrDom k) 29 true).irqIf (s.flag Reg.pwrCtrl 1) pmNode

/-- A power-down request: an ordinary domain enters PDOWN, a privileged one the dusk handshake. -/
def powerDown (who : Who) (k : Nat) : State :=
  if 81 ≤ k then s
  else if s.downRefused who k then s.domErr k
  else
    let s := (s.setFlag (Reg.pwrDom k) 30 true).setPw k Pwr.empty
    s.setDomState k (if privileged k then 5 else 3)

/-- A power-on request (R299): the host's is refused under PWR_CTRL.LOCK (R298). -/
def powerOn (who : Who) (k : Nat) : State :=
  if 81 ≤ k then s
  else if s.flag Reg.pwrCtrl 0 && who == .host then s.domErr k
  else
    let s := s.setFlag (Reg.pwrDom k) 30 false
    match s.domState k with
    | 3 => s.setDomState k 2
    | 0 | 4 | 5 => s.setPw k { s.pw k with wake := true }
    | _ => s

/-- PWR_DOM_k is written (R298). -/
def pwrDomWrite (who : Who) (k : Nat) (v : BitVec 32) : State :=
  if 81 ≤ k then s
  else
    let s := if v.getLsbD 29 then s.setFlag (Reg.pwrDom k) 29 false else s
    if v.getLsbD 31 then (if v.getLsbD 30 then s.powerDown who k else s.powerOn who k)
    else s.setFlag (Reg.pwrDom k) 30 (v.getLsbD 30)

/-! ### What a domain loses (R100, R144, R204, R255, R287, R449) -/

/-- The master interfaces of a node lose all that is under way. -/
def dropMasters (node : Nat) : State := { s with masters := tdrop (fun a => a / 1024 == node) s.masters }

/-- The registers of a node in a range of offsets return to their Reset values. -/
def dropRegs (node lo hi : Nat) : State :=
  { s with regs := tdrop (fun k => decide (0x100000 * node + lo ≤ k ∧ k < 0x100000 * node + hi)) s.regs }

/-- The domain of a tile is off: its clusters, routers and cluster registers lose their content; banks, gateway and welts
stay (R100, R144, R204, R410). -/
def tileLost (t : Nat) : State :=
  let n := tileNode t
  let gone := fun (k : Nat) => decide (k / (9 * 8 * 16 * 256) = t) || decide (k / (9 * 8 * 16 * 256) = 64 + t)
  let s := { s with clus := tdrop (fun k => k / 72 == t) s.clus, lanes := tdrop gone s.lanes }
  let x := s.tile t
  let s := match x.racc with
    | some a => if a.cmd.getLsbD 29 then s else (s.setTile t { x with racc := none }).setFlag (Reg.tileRaccStat t) 0 false
    | none => s
  (((s.dropRegs n 0x80000 0xA4000).dropRegs n 0xE0000 0xE8000).setFld (Reg.tilePad t) 15 0 0).dropMasters n

/-- A domain is off: what is in it is lost (R449, R481, R534), a LOCK set in its registers with the rest (DESIGN CHOICE, log 93). -/
def domainLost (k : Nat) : State :=
  if k < 64 then s.tileLost k
  else if k < 70 then
    let m := k - 64
    (s.migAbort m).setMc m { Mc.empty with rfm := (s.mc m).rfm }
  else if k < 78 then
    let p := k - 70
    ((s.setPort p Port.empty).setFlag (Reg.lnkPeer p) 31 false).dropMasters (portNode p)
  else match k with
    | 78 => ({ s with tt := Tt.empty }.dropRegs ttNode 0 0xFF000).dropMasters ttNode
    | 79 => ({ s with ss := Ss.empty, tick := 0 }.dropRegs ssNode 0 0xFF000).dropMasters ssNode
    | _ => ({ s with tio := { Tio.empty with levels := s.tio.levels, safe := s.tio.safe } }.dropRegs tioNode 0
        0xFF000).dropMasters tioNode

/-! ### The steps of an ordinary domain (R287) -/

/-- The point of no return. -/
def pointOfNoReturn (k : Nat) : State :=
  if k < 81 ∧ privileged k = false ∧ s.domState k = 3 then s.setDomState k 4 else s

/-- An ordinary domain reaches OFF. -/
def domainOff (k : Nat) : State :=
  if k < 81 ∧ privileged k = false ∧ s.domState k = 4 then (s.setDomState k 0).domainLost k else s

/-- Whether the task of an engine waits for a domain (R425, R447, R461): FORCE and PEEK for the tile of their state address,
CHECKPOINT and RESTORE for those of their mask, TRIGGER_ARM for the TT. -/
def engWants (e k : Nat) : Bool :=
  let d := s.engCur e
  s.engBusy e && (s.engResult e).isNone &&
  (match s.dType d with
    | 2 | 3 => (match s.stateTile (s.dword d 4) with
        | some (t, _) => t == k
        | none => false)
    | 4 | 5 => (maskTiles (BitVec.ofNat 64 (s.dpair d 6))).any fun p => s.physTile p.1 p.2 == some k
    | 7 => k == 78
    | _ => false)

/-- Whether a request waits for a domain (R287, R288, R410). -/
def domainWanted (k : Nat) : Bool :=
  let n := domainNode k
  (s.pw k).want || (s.queueAt n).any (fun pk => s.needsDomain n pk == some k) || (List.range 16).any (fun e => s.engWants e k) ||
  (match s.load with
    | some ld => (s.loadDark ld).contains k
    | none => false) || (k == 79 && s.pm.owed.isSome) || (k == 78 && s.pm.fid) || s.pkg.awlWant == some k

/-- An ordinary domain, or a port, begins to wake: on a request that waits for it, or a PWR write. -/
def domainWake (k : Nat) : State :=
  let port := decide (70 ≤ k ∧ k ≤ 77)
  if k < 81 ∧ (privileged k = false ∨ port = true) ∧ s.domState k = 0 then
    if (s.pw k).wake then (s.setPw k Pwr.empty).setDomState k 1
    else if !port && s.domainWanted k then ((s.setPw k { s.pw k with want := false }).setDomState k 1).count (Reg.pwrCnt k) 31 16 1
    else s
  else s

/-- FIDELITY's settings: streams 0 to 3 take its configuration and their enable, streams 4 to 7 THROTTLE (R541). The ring
address of a stream is an HBM address of R269. -/
def fidelityStreams : State :=
  let base := s.pair Reg.modeFrbLo Reg.modeFrbHi
  let size := s.fld Reg.modeFrsize 22 0
  let s := (List.range 4).foldl (fun s n =>
    let ring := 2 ^ 47 + base + n * size * 4096
    let s := (s.setReg (Reg.ttSCtrl n) 0).setReg (Reg.ttSCh n) (BitVec.ofNat 32 (16384 * n * 2 ^ 16 + 16384))
    let s := (s.setReg (Reg.ttSRbLo n) (BitVec.ofNat 32 ring)).setReg (Reg.ttSRbHi n) (BitVec.ofNat 32 (ring / 2 ^ 32))
    let s := s.setReg (Reg.ttSRsize n) (BitVec.ofNat 32 size)
    s.setStream n { TtStream.empty with enKey := some s.seq.cycle }) s
  (List.range 4).foldl (fun s n => s.setFlag (Reg.ttSCtrl (4 + n)) 29 false) s

/-- A domain reaches ON: a port trains afresh, what waited in the endpoint queue goes on. -/
def domainOn (k : Nat) : State :=
  let port := decide (70 ≤ k ∧ k ≤ 77)
  if k < 81 ∧ (privileged k = false ∨ port = true) ∧ s.domState k = 1 then
    let s := s.setDomState k 2
    let s := if port then s.setReg (Reg.lnkStat (k - 70)) 0 else s
    let s := s.drainQueue (domainNode k)
    if k = 79 then s.ckOwed
    else if k = 78 ∧ s.pm.fid = true then { s.fidelityStreams with pm := { s.pm with fid := false } }
    else s
  else s

/-- Whether a domain is on its way to ON: it wakes, or the device brings it on after a reset, while STATE reads ON as its Reset value
is (R300; log 89). -/
def comingOn (k : Nat) : Bool := s.domState k == 1 || (s.pm.bring && s.domState k == 2)

/-- A domain does not reach ON within 100 µs: FAILED, its held requests end with ERROR. -/
def domainFailed (k : Nat) : State :=
  let port := decide (70 ≤ k ∧ k ≤ 77)
  if k < 81 ∧ (privileged k = false ∨ port = true) ∧ s.comingOn k = true then
    let s := (s.setDomState k 6).record 2 4 1 pmNode k 0 0
    (s.irqIf (s.flag Reg.pwrCtrl 1) pmNode).drainQueue (domainNode k)
  else s

/-! ### The dusk handshake (R254, R289, R334) -/

/-- The fence: an MC ends its migration and shows FENCED; one that initialises is fenced after it. -/
def duskFence (k : Nat) : State :=
  if privileged k ∧ s.domState k = 5 ∧ (s.pw k).fence = false then
    let up := s.setPw k { s.pw k with fence := true }
    if k < 70 then
      match s.mcState (k - 64) with
      | 1 => s
      | 2 => (up.migAbort (k - 64)).setFld (Reg.mcStat (k - 64)) 2 0 3
      | _ => up.migAbort (k - 64)
    else up
  else s

/-- Whether a controller holds an accepted request. -/
def mcBusy (m : Nat) : Bool := ((s.mc m).queue.any fun e => !e.2.isEmpty) || !(s.mc m).ready.isEmpty

/-- Whether a CTRL record has come whole and not acted (R323). -/
def ctrlWaits (x : Port) : Bool :=
  match x.ctrlIn with
  | w :: _ => decide ((if recKind w = 7 ∨ recKind w = 10 then 2 else 1) ≤ x.ctrlIn.length)
  | [] => false

/-- Whether a port has requests it accepted, packets held or come, or records to deliver, or flits to send; without a link nothing
more leaves it (R334, R337). -/
def portBusy (p : Nat) : Bool :=
  let x := s.port p
  !x.arrived.isEmpty || !x.heldPk.isEmpty || !(s.srvAt (portNode p)).isEmpty || ctrlWaits x ||
  ((s.lnkState p == 2 || s.lnkState p == 3) &&
    (!x.replay.isEmpty || !x.svcQ.isEmpty || !x.bulkQ.isEmpty || !x.ctrlOut.isEmpty))

/-- The drain is complete and the domain acknowledges to the PM. -/
def duskDrained (k : Nat) : State :=
  if privileged k ∧ s.domState k = 5 ∧ (s.pw k).fence = true then
    let busy := if k < 70 then s.mcBusy (k - 64) else s.portBusy (k - 70)
    if busy then s else s.setPw k { s.pw k with acked := true }
  else s

/-- An MC precharges all banks, issues one all-bank refresh and enters self-refresh. -/
def selfRefresh (m : Nat) : State :=
  let k := 64 + m
  if m < 6 ∧ s.domState k = 5 ∧ (s.pw k).acked = true then
    let s := (s.setMc m { s.mc m with row := [], owed := [] }).setPw k { s.pw k with sref := true }
    if s.mcState m = 3 then s.setFld (Reg.mcStat m) 2 0 4 else s
  else s

/-- A privileged domain switches off; the stack of an MC keeps its content (R254). -/
def duskOff (k : Nat) : State :=
  if privileged k ∧ s.domState k = 5 ∧ (s.pw k).acked = true ∧ (70 ≤ k ∨ (s.pw k).sref = true) then
    let w := (s.pw k).wake
    let s := ((s.setDomState k 0).domainLost k).setPw k { Pwr.empty with wake := w, eco := (s.pw k).eco }
    if k < 70 then (if s.mcState (k - 64) = 4 then s.setFld (Reg.mcStat (k - 64)) 2 0 0 else s)
    else s.setReg (Reg.lnkStat (k - 70)) 0xA0000000#32
  else s

/-- A PWR write wakes an MC domain (R256). -/
def mcWake (m : Nat) : State :=
  let k := 64 + m
  if m < 6 ∧ s.domState k = 0 ∧ (s.pw k).wake = true then (s.setPw k Pwr.empty).setDomState k 1 else s

/-- The stack has left self-refresh: READY. A controller that had failed stays FAILED (R257, R258). -/
def mcWakeReady (m : Nat) : State :=
  let k := 64 + m
  if m < 6 ∧ s.domState k = 1 then
    let s := s.setDomState k 2
    (if s.mcState m = 0 then s.setFld (Reg.mcStat m) 2 0 2 else s).drainQueue (mcNode m)
  else s

/-- The PHY does not lock: the controller fails; its domain has power (log 31). -/
def mcWakeTimeout (m : Nat) : State :=
  let k := 64 + m
  if m < 6 ∧ s.domState k = 1 then
    let s := s.setDomState k 2
    (if s.mcState m = 5 then s else s.mcFail m 3).drainQueue (mcNode m)
  else s

end State

/-- PWR_DOWN_REQUEST (R299): a write of PWR_DOM_dom with GO = 1 and REQOFF = 1. -/
def execPwrDownRequest (who : Who) (dom : Nat) (v : BitVec 32) (s : State) : Out :=
  .next (s.regWrite who (Reg.pwrDom dom) (setBits v 31 30 3) fun s v => s.pwrDomWrite who dom v)

/-- PWR_ON_REQUEST (R299): a write of PWR_DOM_dom with GO = 1 and REQOFF = 0. -/
def execPwrOnRequest (who : Who) (dom : Nat) (v : BitVec 32) (s : State) : Out :=
  .next (s.regWrite who (Reg.pwrDom dom) (setBits v 31 30 2) fun s v => s.pwrDomWrite who dom v)

/-- POINT_OF_NO_RETURN (R287). -/
def execPointOfNoReturn (dom : Nat) (s : State) : Out := .next (s.pointOfNoReturn dom)

/-- DOMAIN_OFF (R287). -/
def execDomainOff (dom : Nat) (s : State) : Out := .next (s.domainOff dom)

/-- DOMAIN_WAKE (R287). -/
def execDomainWake (dom : Nat) (s : State) : Out := .next (s.domainWake dom)

/-- DOMAIN_ON (R287). -/
def execDomainOn (dom : Nat) (s : State) : Out := .next (s.domainOn dom)

/-- DOMAIN_WAKE_TIMEOUT (R287). -/
def execDomainWakeTimeout (dom : Nat) (s : State) : Out := .next (s.domainFailed dom)

/-- DUSK_FENCE (R254 step 1, R334 step 1). -/
def execDuskFence (dom : Nat) (s : State) : Out := .next (s.duskFence dom)

/-- DUSK_DRAIN_COMPLETE (R254 steps 2 and 3, R334 steps 2 and 3). -/
def execDuskDrainComplete (dom : Nat) (s : State) : Out := .next (s.duskDrained dom)

/-- SELF_REFRESH_ENTRY (R254 step 4). -/
def execSelfRefreshEntry (mc : Nat) (s : State) : Out := .next (s.selfRefresh mc)

/-- DUSK_OFF (R254 steps 5 and 6, R334 steps 4 and 5). -/
def execDuskOff (dom : Nat) (s : State) : Out := .next (s.duskOff dom)

/-- MC_WAKE (R256 step 1). -/
def execMcWake (mc : Nat) (s : State) : Out := .next (s.mcWake mc)

/-- MC_WAKE_READY (R256 steps 2 to 4). -/
def execMcWakeReady (mc : Nat) (s : State) : Out := .next (s.mcWakeReady mc)

/-- MC_WAKE_TIMEOUT (R256). -/
def execMcWakeTimeout (mc : Nat) (s : State) : Out := .next (s.mcWakeTimeout mc)

end Sys2Proof.Machine
end

