-- ==== Sys2Proof/Machine/Manager.lean ====
section
/-! DEFINITION. The power and sparing manager: presets and limits (R535 to R541), cobbler passes and the repair map (R547 to
R552), and the ledger's read mark (R559). -/

namespace Sys2Proof.Machine

namespace State

variable (s : State)

/-! ### Presets (R535 to R538, R541) -/

/-- MODE_STAT.ERR (R537). -/
def modeErr : State := s.setFlag Reg.modeStat 24 true

/-- The four VCORE requests move to a value in units of 5 mV; the regulators ramp (R538, R573). -/
def vcoreRequest (v : Nat) : State :=
  if s.fld Reg.modeStat 7 0 = v then s
  else { s.setFld Reg.modeStat 7 0 v with pm := { s.pm with ramping := [0, 1, 2, 3] } }

/-- A preset comes into force; when ECONOMY ends, the privileged domains it powered down wake (R538, R540). -/
def presetApply (p : Nat) : State :=
  let eco := s.fld Reg.modeStat 31 30 == 2
  let s := (s.setFld Reg.modeStat 31 30 p).vcoreRequest (presetReq p)
  if eco && p != 2 then
    (List.range 14).foldl (fun s i =>
      if (s.pw (64 + i)).eco then (s.setPw (64 + i) { s.pw (64 + i) with eco := false }).powerOn .pm (64 + i) else s) s
  else s

/-- FIDELITY is entered; with the trace engine's domain dark its settings follow when the domain is on (R287, R541; log 32). -/
def fidelityOn : State :=
  let s := (s.domainCall 78).setFlag Reg.modeStat 29 true
  match s.domState 78 with
  | 2 => s.fidelityStreams
  | 6 => s
  | _ => { s with pm := { s.pm with fid := true } }

/-- Whether a write of MODE_CTRL with GO = 1 is refused (R536, R537). -/
def modeRefused (p : Nat) (fid : Bool) : Bool :=
  p == 3 || (p == 1 && s.fld Reg.ceStat 31 29 == 4 && decide (4 < s.fld Reg.seqCtrl 12 8)) ||
  (fid != s.fidelity && s.seqState != 0) || (fid && !s.fidelity && s.fld Reg.modeFrsize 22 0 == 0)

/-- MODE_CTRL is written (R537, R561); a refused write changes nothing but ERR. -/
def modeCtrlWrite (v : BitVec 32) : State :=
  let p := bits v 28 27
  let fid := v.getLsbD 26
  if v.getLsbD 31 && s.modeRefused p fid then s.modeErr
  else
    let s := s.setReg Reg.modeCtrl ((s.reg Reg.modeCtrl &&& 1#32) ||| (v &&& 0x1C000001#32))
    if v.getLsbD 31 then
      let s := s.presetApply p
      if fid && !s.fidelity then s.fidelityOn
      else if !fid then { s.setFlag Reg.modeStat 29 false with pm := { s.pm with fid := false } }
      else s
    else s

/-- A full load reaches LOADED with SPEED in force and L above 256: CAPACITY replaces it (R537). -/
def speedCheck : State :=
  if s.fld Reg.modeStat 31 30 = 1 ∧ 4 < s.fld Reg.seqCtrl 12 8 then (s.presetApply 0).modeErr else s

/-! ### Limits (R539, R573) and ECONOMY (R540) -/

/-- The regulators that do not acknowledge are recorded; each keeps its last voltage and is tried again (R573). -/
def nacks (acks : BitVec 4) : State :=
  (List.range 4).foldl (fun (s : State) k => if acks.getLsbD k then s else s.record 1 4 (0x40 + k) pmNode k 0 0) s

/-- The check of every millisecond: power in W, the hottest junction in °C, and which regulators acknowledge. -/
def limitCheck (power : Nat) (temp : Int) (acks : BitVec 4) : State :=
  let plim := s.fld Reg.modePlim 15 0
  let tlim : Int := min 125 (s.fld Reg.modeTlim 7 0 : Nat)
  let v := s.fld Reg.modeStat 7 0
  let top := presetReq (s.fld Reg.modeStat 31 30)
  let s' :=
    if (plim ≠ 0 ∧ plim < power) ∨ tlim < temp then s.vcoreRequest (if v < 122 then min v 120 else v - 2)
    else if (plim = 0 ∨ power * 100 < 95 * plim) ∧ temp + 5 ≤ tlim ∧ v < top then s.vcoreRequest (min top (v + 2))
    else s
  s'.nacks acks

/-- Whether a domain is idle in ECONOMY (R540). -/
def ecoIdle (k : Nat) : Bool :=
  if k < 64 then s.rgnState k == 0 || s.rgnState k == 3
  else if k < 78 then s.flag Reg.modeEcomask (k - 64)
  else match k with
    | 78 => !((List.range 8).any fun n => (s.stream n).on) && !((List.range 16).any fun u => s.flag (Reg.ttUCtrl u) 31)
    | 79 => !s.usedTasks.any s.dLive
    | _ => (List.range 16).all (fun b => s.fld (Reg.tioBank b) 31 28 == 0) && !s.flag Reg.tioCadCtrl 31

/-- The PM powers down the domains that are on and idle. -/
def economyCheck : State :=
  if s.fld Reg.modeStat 31 30 = 2 then
    (List.range 81).foldl (fun s k =>
      if s.domState k = 2 ∧ s.ecoIdle k = true then
        let s := s.powerDown .pm k
        if privileged k ∧ s.domState k = 5 then s.setPw k { s.pw k with eco := true } else s
      else s) s
  else s

/-! ### The repair map (R545, R546, R549, R552) -/

end State

/-- A unit joins one of the lists of the repair map. -/
def addTo (t : Tab (List Nat)) (k u : Nat) : Tab (List Nat) :=
  let l := tget (fun _ => []) t k
  if l.contains u then t else tput (fun _ => []) k (l ++ [u]) t

/-- Whether a named unit exists (R563). -/
def markExists (u : MarkUnit) : Bool :=
  match u.kind with
  | 0 => decide (u.idx < 64 ∧ u.prow < 9 ∧ u.pcol < 8 ∧ u.unit < 68)
  | 1 => decide (u.idx < 64 ∧ u.prow < 9 ∧ u.pcol < 8 ∧ u.unit < 5)
  | 2 => decide (u.idx < 64 ∧ u.prow < 9)
  | 3 => decide (u.idx < 64)
  | 4 => decide (u.idx < 8 ∧ u.unit < 18)
  | 5 => decide (u.idx < 6 ∧ u.unit < 64)
  | _ => false

/-- The layout of SPR_MARK with GO = 0 (R563, R586). -/
def markWord (u : MarkUnit) : BitVec 32 :=
  BitVec.ofNat 32 (u.kind * 2 ^ 28 + u.idx * 2 ^ 22 + u.prow * 2 ^ 18 + u.pcol * 2 ^ 15 + u.unit * 2 ^ 8)

/-- The repair map with a unit added. -/
def Device.mark (d : Device) (u : MarkUnit) : Device :=
  let c := 72 * u.idx + 8 * u.prow + u.pcol
  match u.kind with
  | 0 => { d with badBp := addTo d.badBp c u.unit }
  | 1 => { d with badWu := addTo d.badWu c u.unit }
  | 2 => { d with badRow := addTo d.badRow u.idx u.prow }
  | 3 => if d.badTile.contains u.idx then d else { d with badTile := d.badTile ++ [u.idx] }
  | 4 => { d with badLane := addTo d.badLane u.idx u.unit }
  | _ => { d with badPc := addTo d.badPc u.idx u.unit }

/-- The failed rows of a tile: those named, and those of a cluster without enough spares (R546). -/
def Device.failedRows (d : Device) (t : Nat) : List Nat :=
  (List.range 9).filter fun r =>
    (tget (fun _ => []) d.badRow t).contains r || (List.range 8).any fun c =>
      decide (4 < (tget (fun _ => []) d.badBp (72 * t + 8 * r + c)).length) ||
      decide (1 < (tget (fun _ => []) d.badWu (72 * t + 8 * r + c)).length)

/-- Whether a tile has failed (R546). -/
def Device.tileFailed (d : Device) (t : Nat) : Bool := d.badTile.contains t || decide (1 < (d.failedRows t).length)

/-- Numbers lo to lo + 3 of a half given up: those of the failed tiles, then the highest, until n are. -/
def giveUp (failed : List Nat) (lo n : Nat) : List Nat :=
  let bad := (List.range 4).map (· + lo) |>.filter failed.contains
  let good := ((List.range 4).map (· + lo) |>.filter fun k => !failed.contains k).reverse
  let l := (bad ++ good).take n
  ((List.range 4).map (· + lo)).filter l.contains

/-- The device after its failed tiles (R552). -/
def Device.downgrade (d : Device) : Device :=
  let failed := (List.range 64).filter fun t => d.tileFailed t && !d.fused t
  if failed.isEmpty then d
  else if d.grade ≠ 0 then { d with grade := 3 }
  else
    let rows := failed.map fun t => t / 8 + 1
    let cols := failed.map fun t => t % 8 + 1
    let n := fun (l : List Nat) lo => ((List.range 4).filter fun k => l.contains (lo + k)).length
    if n rows 1 ≤ 1 ∧ n rows 5 ≤ 1 then { d with grade := 1, fusedRows := giveUp rows 1 1 ++ giveUp rows 5 1 }
    else if n cols 1 ≤ 2 ∧ n cols 5 ≤ 2 then { d with grade := 2, fusedCols := giveUp cols 1 2 ++ giveUp cols 5 2 }
    else { d with grade := 3 }

/-- The skipped row of each tile follows its failed row (R186, R545). -/
def Device.skipRows (d : Device) : Device :=
  { d with srow := (List.range 64).foldl (fun m t =>
      tput (fun _ => 8) t (match d.failedRows t with
        | [r] => r
        | _ => 8) m) [] }

namespace State

variable (s : State)

/-- Units join the repair map in one generation; each new one has its record (R549, R586). -/
def addUnits (l : List MarkUnit) (byHost : Bool) : State :=
  let new := l.foldl (fun (r : Device × List MarkUnit) u =>
    if markExists u && r.1.mark u != r.1 then (r.1.mark u, r.2 ++ [u]) else r) (s.dev, [])
  if new.2.isEmpty then s
  else
    let s := s.mapWrite new.1.skipRows.downgrade
    let s := new.2.foldl (fun (s : State) u => s.record 1 0xC (u.kind + 1) pmNode (b2n byHost) (markWord u).toNat 0) s
    let old := s.flag Reg.sprStat 28
    (s.setFlag Reg.sprStat 28 true).irqIf (!old && s.flag Reg.sprCtrl 2) pmNode

/-- SPR_MARK is written (R563); a reserved KIND, or a unit that does not exist, is refused (log 33). -/
def markWrite (v : BitVec 32) : State :=
  let s := s.setReg Reg.sprMark (v &&& 0x7FFFFF00#32)
  if v.getLsbD 31 then
    s.addUnits [{ kind := bits v 30 28, idx := bits v 27 22, prow := bits v 21 18, pcol := bits v 17 15, unit := bits v 14 8 }] true
  else s

/-! ### Cobbler passes (R547 to R551) -/

/-- The tiles that an idle or a host pass tests (R547): those whose region is EMPTY or PARKED; with the sequencer IDLE every
tile but an ACTIVE one, which a pass never tests (log 39). -/
def passTiles : List Nat :=
  (List.range 64).filter fun t => s.rgnState t = 0 ∨ s.rgnState t = 3 ∨ (s.seqState = 0 ∧ s.rgnState t ≠ 1)

/-- A pass starts; st as SPR_STAT.STATE codes it. -/
def passStart (st : Nat) : State :=
  let l := s.passTiles
  ({ s with pm := { s.pm with pass := l } }.setFld Reg.sprStat 31 29 st).setFld Reg.sprStat 6 0 (l.headD 127)

/-- IDLEINT hours have passed; a pass that finds no idle tile waits for one, as it waits for a load to end. -/
def idlePass : State :=
  if s.fld Reg.sprCtrl 23 16 = 0 ∨ s.fld Reg.sprStat 31 29 ≠ 0 ∨ s.load.isSome ∨ s.passTiles = [] then s else s.passStart 2

/-- SPR_CTRL is written (R563): GO starts a host pass while the sequencer is IDLE. -/
def sprCtrlWrite (v : BitVec 32) : State :=
  let keep : BitVec 32 := if s.flag Reg.sprCtrl 0 then 0x60FF0001#32 else 0
  let s := s.setReg Reg.sprCtrl ((s.reg Reg.sprCtrl &&& keep) ||| (v &&& 0x60FFFF0D#32 &&& ~~~keep))
  if v.getLsbD 31 && s.seqState == 0 && s.fld Reg.sprStat 31 29 == 0 && !s.fullLoading then s.passStart 3 else s

/-- An aging loss is measured (R550). -/
def ageSet (t loss : Nat) : State :=
  if t < 64 then
    let k := Reg.sprAge t
    let th := 10 * s.fld Reg.sprCtrl 15 8
    let first := decide (s.fld k 15 0 ≤ th ∧ th < min loss 65535)
    let s := s.setReg k (BitVec.ofNat 32 (min loss 65535))
    if first then s.record 1 0xD 1 pmNode t (min loss 65535) 0 else s
  else s

/-- Whether a pass may repair a row: SPR_CTRL.HBMTEST is 1, the stack is READY, the pseudo-channel is a user's and the stack has a
repair left for the bank group (R253, R548). -/
def rowRepairable (d : Device) (r : RowRepair) : Bool :=
  let used := d.ppr.filter fun e => e.1 == 64 * r.stack + r.pch && e.2.1 / 4 == r.bank / 4
  s.flag Reg.sprCtrl 29 && s.mcState r.stack == 2 && (List.range 62).any (fun k => s.pcOf r.stack k == r.pch) && r.ok &&
    decide (used.length < Config.rowRepairs (64 * r.stack + r.pch) (r.bank / 4))

/-- The repair map with the rows that a pass has repaired, and the pseudo-channels of the repairs refused, which have failed (R546,
R548; log 88). Without HBMTEST a pass repairs nothing. -/
def rowsRepaired (rows : List RowRepair) : Device × List MarkUnit :=
  if s.flag Reg.sprCtrl 29 then
    rows.foldl (fun (x : Device × List MarkUnit) r =>
      if s.rowRepairable x.1 r then ({ x.1 with ppr := x.1.ppr ++ [(64 * r.stack + r.pch, r.bank, r.row)] }, x.2)
      else (x.1, x.2 ++ [{ kind := 5, idx := r.stack, prow := 0, pcol := 0, unit := r.pch }])) (s.dev, [])
  else (s.dev, [])

/-- A pass ends (R547 to R550): the stores of the tiles tested have been written over (log 4), the losses and the failing
units are recorded, rows are repaired, spare store blocks that failed are retired (R390), and a load pass gives its map to the load
that follows. -/
def passDone (failing : List MarkUnit) (ages : List (Nat × Nat)) (blocks : List Nat) (rows : List RowRepair) : State :=
  let st := s.fld Reg.sprStat 31 29
  if st = 0 then s
  else
    let tiles := s.pm.pass
    let gone := fun (k : Nat) => tiles.contains (k / (9 * 8 * 16 * 256) % 64) && decide (k / (9 * 8 * 16 * 256) < 128)
    let s := { s with clus := tdrop (fun k => tiles.contains (k / 72)) s.clus, lanes := tdrop gone s.lanes,
                      pm := { s.pm with pass := [] } }
    let s := (s.setFld Reg.sprStat 31 29 0).setFld Reg.sprStat 6 0 127
    let s := ages.foldl (fun (s : State) a => s.ageSet a.1 a.2) s
    let s := s.retire (blocks.filter s.blockFree)
    let r := s.rowsRepaired rows
    let s := if r.1 = s.dev then s else s.mapWrite r.1
    let s := s.addUnits (failing ++ r.2) false
    if st = 1 then { s with devIn := s.dev }.applyRepairMap else s

/-! ### The ledger (R556, R559) -/

/-- SPR_LG_RD is written; a mark beyond the records written is ignored. -/
def ledgerMark (v : BitVec 32) : State :=
  if (s.reg Reg.sprLgWr - v).toNat < 2 ^ 31 then s.setReg Reg.sprLgRd v else s

end State

/-- MODE_APPLY (R537): a write of MODE_CTRL with GO = 1; acks are the regulators that acknowledge a new request. -/
def execModeApply (v : BitVec 32) (acks : BitVec 4) (s : State) : Out :=
  .next (s.regWrite .host Reg.modeCtrl (setBit v 31 true) fun s v =>
    let t := s.modeCtrlWrite v
    if t.fld Reg.modeStat 7 0 = s.fld Reg.modeStat 7 0 then t else t.nacks acks)

/-- PM_LIMIT_CHECK (R539, R573). -/
def execPmLimitCheck (power : Nat) (temp : Int) (acks : BitVec 4) (s : State) : Out := .next (s.limitCheck power temp acks)

/-- ECONOMY_CHECK (R540). -/
def execEconomyCheck (s : State) : Out := .next s.economyCheck

/-- VCORE_RAMP_DONE (R538): the rail has reached its request. -/
def execVcoreRampDone (rail : Nat) (s : State) : Out :=
  .next { s with pm := { s.pm with ramping := s.pm.ramping.filter fun k => k ≠ rail } }

/-- IDLE_PASS_DUE (R547). -/
def execIdlePassDue (s : State) : Out := .next s.idlePass

/-- HOST_PASS (R547): a write of SPR_CTRL with GO = 1. -/
def execHostPass (v : BitVec 32) (s : State) : Out := .next (s.regWrite .host Reg.sprCtrl (setBit v 31 true) State.sprCtrlWrite)

/-- COBBLER_PASS_DONE (R549). -/
def execCobblerPassDone (failing : List MarkUnit) (f : PassFinds) (s : State) : Out :=
  .next (s.passDone failing f.ages f.blocks f.rows)

/-- SPR_MARK (R549): a write of SPR_MARK with GO = 1. -/
def execSprMark (v : BitVec 32) (s : State) : Out := .next (s.regWrite .host Reg.sprMark (setBit v 31 true) State.markWrite)

/-- LEDGER_READ_MARK (R559). -/
def execLedgerReadMark (v : BitVec 32) (s : State) : Out := .next (s.regWrite .host Reg.sprLgRd v State.ledgerMark)

end Sys2Proof.Machine
end

