-- ==== Sys2Proof/Machine/Package.lean ====
section
/-! DEFINITION. Resets of the device (R51, R230, R257, R300, R348, R397, R448, R483, R512, R534, R564, R575, R583), the thermal
stop (R581), PERST_N (R579) and the SMBus target (R580). -/

namespace Sys2Proof.Machine

namespace State

variable (s : State)

/-- A kept register takes its word of another state. -/
def keepReg (old : State) (k : Nat) : State := s.setReg k (old.reg k)

/-- The registers that a device reset keeps: the aging losses (R564) and, while VAON stays up and no power-on reset comes,
the ledger's (R559) and DBG_AWL.FAILS (R512), the geometry read from a stack and a FAILED controller (R257; log 34). -/
def keepRegs (old : State) (log awl : Bool) : State :=
  let s := (List.range 64).foldl (fun (s : State) t => s.keepReg old (Reg.sprAge t)) s
  let s := if log then ((s.keepReg old Reg.sprLgWr).keepReg old Reg.sprLgRd).keepReg old Reg.sprLgLost else s
  if awl then
    (List.range 6).foldl (fun (s : State) m =>
      let s := s.keepReg old (Reg.mcGeom m)
      let st := old.mcState m
      (s.setFld (Reg.mcStat m) 2 0 (if st = 5 ∨ st = 1 then st else 4)).setFlag (Reg.mcStat m) 5 (st != 5 && st != 1))
      (s.setFld Reg.dbgAwl 29 27 (old.fld Reg.dbgAwl 29 27))
  else s

/-- What a device reset leaves. log says that the ledger is kept, awl that the reset came by the awl wire. Memory that the
always-on supply and the stacks hold is kept, as are the configuration store, the repair map and the fuses, whose values
take effect (R491); fabric identity is read again (R348). A fuse word under programming keeps any part of its new bits
(log 34). The reset itself is in force in pkg, and nothing loads yet. -/
def deviceReset (log awl : Bool) : State :=
  let fuses := match s.dbg.fuse with
    | some (g, w, v) => tput (fun _ => 0) (64 * g + w)
        (tget (fun _ => 0) s.fuses (64 * g + w) ||| (v &&& s.drawn.setWidth 32)) s.fuses
    | none => s.fuses
  let ramping := if s.fld Reg.modeStat 7 0 = presetReq 0 then s.pm.ramping else [0, 1, 2, 3]
  let r := { State.reset with
    pending := s.pending, free := s.free + 1, bus := s.bus, msix := s.msix, spad := s.spad, hbm := s.hbm, hbmBad := s.hbmBad, fuses := fuses,
    fusesIn := fuses, dev := s.dev, devIn := s.dev, store := { s.store with op := none }, fabId := s.store.record.id, load := none,
    ledger := if log then s.ledger else [], us := if log then s.us else 0, overt := s.overt,
    tio := { Tio.empty with levels := s.tio.levels, safe := s.overt }, pm := { Pm.empty with ramping := ramping, bring := true },
    mcs := tmap (fun _ => Mc.empty) (fun x => { Mc.empty with rfm := x.rfm }) s.mcs, pkg := s.pkg }
  r.keepRegs s log awl

/-! ### Writes that an awl reset cuts short (R257) -/

/-- A burst of a write that is cut short holds its old content, its new content or undefined data, whose check bits
may fit or not. -/
def cutBurst (pk : Packet) (j : Nat) : State :=
  let a := aHbm pk.addr / 32 * 32 + 32 * j
  let v := s.drawn
  let u := fun (i : Nat) => Config.freeValue (s.free + 1 + i)
  let s := { s with free := s.free + 9 }
  let new : List (BitVec 8) :=
    if pk.cmd = 1 then (pk.data.map fun d => bytesOf 32 d.toNat).getD j []
    else
      let i := aHbm pk.addr % 32 / 8
      ((List.range 4).map fun k =>
        let w := s.hbmWord a [] k
        if k = i then mergeBytes pk.be w (flitWord (pk.data.getD 0 0) 0) 8 else w).flatMap fun w => bytesOf 8 w.toNat
  match v.toNat % 3 with
  | 0 => s
  | 1 => s.hbmPut a new
  | _ =>
    let s := s.hbmPut a ((List.range 4).flatMap fun i => bytesOf 8 (u i).toNat)
    (List.range 4).foldl (fun (s : State) i =>
      { s with hbmBad := tput (fun _ => false) (s.hbmFlat (a + 8 * i)) ((u (4 + i)).getLsbD 0) s.hbmBad }) s

/-- Every write that a controller has accepted and not acknowledged is cut short. -/
def cutWrites : State :=
  s.mcs.foldl (fun (s : State) e =>
    let l := ((e.2.queue.flatMap fun q => q.2) ++ e.2.ready).filter fun r => r.pk.cmd % 2 = 1
    l.foldl (fun (s : State) r => (List.range (if r.pk.cmd = 1 then r.pk.len else 1)).foldl (fun (s : State) j => s.cutBurst r.pk j) s) s) s

/-! ### The resets -/

/-- A power-on reset begins: PWRGD falls, or a watched rail stays low (R575). OVERT_N is released (R583); the cause is the
over-temperature when it was low (R581). -/
def porBegin (cause : Nat) (pwrgd : Bool) : State :=
  let cause := if s.pkg.overtPin then 4 else cause
  let s := { s with hbm := [], hbmBad := [], mcs := tmap (fun _ => Mc.empty) (fun x => { x with queue := [], ready := [] }) s.mcs, overt := false }
  let r := s.deviceReset false false
  { r with pkg := { r.pkg with por := true, awl := false, pwrgd := pwrgd, cause := cause, awlN := 0, overtPin := false,
                               smb := none, awlOut := [], awlWant := none, awlPart := none } }

/-- The reset ends: every register is at its Reset value, the copies of the store's regions are read (R351), and a full load
starts from the source that the boot selection names (R369, R397). -/
def resetEnd (awl : Bool) (lost : List LostCopy) : State :=
  let r := s.deviceReset true awl
  let r := { r with pkg := { r.pkg with por := false, awl := false, pwrgd := true } }.readCopies lost
  { r with fabId := r.store.record.id }.loadStart r.loadSource

/-- An awl reset is recognised (R483); while a power-on reset is in force it is part of that one (R584). -/
def awlBegin : State :=
  if s.inReset || !s.pkg.vaon then s
  else
    let r := s.cutWrites.deviceReset true true
    { r with pkg := { r.pkg with awl := true, cause := 3, awlN := r.pkg.awlN + 1, awlOut := [], awlWant := none, awlPart := none } }

/-- The awl reset ends: every stack leaves self-refresh with its content (R257). -/
def awlEnd (lost : List LostCopy) : State :=
  if s.pkg.awl then
    let s := s.resetEnd true lost
    (List.range 6).foldl (fun (s : State) m => if s.mcState m = 4 then s.setFld (Reg.mcStat m) 2 0 2 else s) s
  else s

/-- The power-on reset ends; the PM writes the transition rate to each regulator (R573, R575). -/
def porEnd (acks : BitVec 4) (lost : List LostCopy) : State :=
  if s.pkg.por && s.pkg.vaon then (s.resetEnd false lost).nacks acks else s

/-- VAON is lost: everything it holds is lost, and the device stops (R554, R559, R575). -/
def vaonLoss : State :=
  if s.pkg.vaon then
    let r := { (s.porBegin 1 false) with spad := [], regs := [] }
    { r with pkg := { r.pkg with vaon := false } }
  else s

/-- VAON reaches its window (R574, R580). -/
def vaonRise (straps : Nat) : State :=
  if s.pkg.vaon then s else { s with pkg := { s.pkg with vaon := true, straps := straps % 4, por := true } }

/-- A sensor reads 130 °C or more (R581). -/
def overTemp (sensor : Nat) (reading : Int) : State :=
  if reading < 130 ∨ 70 ≤ sensor ∨ s.overt ∨ !s.pkg.vaon then s
  else
    let s := { s with overt := true, tio := { s.tio with safe := true }, pkg := { s.pkg with overtPin := true } }
    s.record 3 4 0xF0 pmNode (sensor * 256 + (BitVec.ofInt 8 reading).toNat) 0 0

/-- The rails of a stack are lost (R257, R258). -/
def stackLoss (m : Nat) : State :=
  if m < 6 then
    let s := { s with hbm := tdrop (fun a => a / 2 ^ 36 == m) s.hbm, hbmBad := tdrop (fun a => a / 2 ^ 36 == m) s.hbmBad }
    if s.mcState m = 5 then s else s.mcFail m 4
  else s

/-- PERST_N resets the host port and its link only (R579): what is under way for its masters gets no response. -/
def perst : State :=
  let drop := fun (a : Nat) (m : Master) =>
    if a / 1024 = hpNode then { m with slots := (m.slots.map fun e => (e.1, { e.2 with gen := e.2.gen + 1 })) } else m
  { s with msix := 0, masters := (s.masters.map fun (e : Nat × Master) => (e.1, drop e.1 e.2)).filter fun e => decide (e.2 ≠ Master.empty) }

/-! ### SMBus (R580) -/

/-- The SMBus target answers a Read Word while VAON is up; otherwise it does not acknowledge. -/
def smbAnswer (known : Bool) (v : Nat) : State :=
  { s with pkg := { s.pkg with smb := if s.pkg.vaon && known then some (BitVec.ofNat 16 v) else none } }

def smbStatus (link : Bool) : Nat :=
  b2n s.pkg.vaon + 2 * b2n s.pkg.pwrgd + 4 * s.fld Reg.ceStat 31 29 + 32 * b2n s.pkg.overtPin + 64 * b2n link

/-- The reset cause; what the byte of the awl resets shows beyond 255 of them is not stated, a free value (log 34). -/
def smbCause : Nat := s.pkg.cause + 256 * (if s.pkg.awlN < 256 then s.pkg.awlN else s.drawn.toNat % 256)

end State

/-- AWL_RESET (R483). -/
def execAwlReset (s : State) : Out := .next s.awlBegin

/-- AWL_RESET_END (R369); a free value says which copies of the store's regions do not read right (R351; log 99). -/
def execAwlResetEnd (s : State) : Out := .next (if s.pkg.awl then { s with free := s.free + 1 }.awlEnd (State.lostCopies s.drawn) else s)

/-- POWER_ON_RESET (R571, R575): PWRGD falls low. -/
def execPowerOnReset (s : State) : Out := .next (s.porBegin 1 false)

/-- POWER_ON_RESET_END (R575). -/
def execPowerOnResetEnd (e : PorEnd) (s : State) : Out := .next (s.porEnd e.acks e.lost)

/-- UNDERVOLTAGE (R575): rails 0 to 3 are VCORE0 to VCORE3, 4 VSRAM, 5 VAON. -/
def execUndervoltage (rail : Nat) (s : State) : Out :=
  .next (if rail < 6 && s.pkg.pwrgd && !s.pkg.por then s.porBegin 2 true else s)

/-- OVER_TEMPERATURE (R581): sensors 0 to 63 are the tiles', 64 to 69 the stacks'. -/
def execOverTemperature (sensor : Nat) (reading : Int) (s : State) : Out := .next (s.overTemp sensor reading)

/-- STACK_RAIL_LOSS (R257). -/
def execStackRailLoss (mc : Nat) (s : State) : Out := .next (s.stackLoss mc)

/-- PERST (R579). -/
def execPerst (s : State) : Out := .next s.perst

/-- VAON_RISE (R580). -/
def execVaonRise (straps : Nat) (s : State) : Out := .next (s.vaonRise straps)

/-- VAON_LOSS (R575). -/
def execVaonLoss (s : State) : Out := .next s.vaonLoss

/-- SMB_STATUS: command 00h; link says whether the PCIe link is up. -/
def execSmbStatus (link : Bool) (s : State) : Out := .next (s.smbAnswer true (s.smbStatus link))

/-- SMB_RESET_CAUSE: command 01h. -/
def execSmbResetCause (s : State) : Out := .next { s.smbAnswer true s.smbCause with free := s.free + 1 }

/-- SMB_FUSES: command 02h. -/
def execSmbFuses (s : State) : Out := .next (s.smbAnswer true ((s.fuse 3 0).toNat % 2 ^ 14))

/-- SMB_GRADE: command 03h. -/
def execSmbGrade (s : State) : Out := .next (s.smbAnswer true (bits s.sprGradeWord 31 16))

/-- SMB_VCORE_VOLTAGE: commands 10h to 13h, in mV. -/
def execSmbVcoreVoltage (rail mv : Nat) (s : State) : Out := .next (s.smbAnswer (decide (rail < 4)) mv)

/-- SMB_VCORE_CURRENT: commands 14h to 17h, in A. -/
def execSmbVcoreCurrent (rail amps : Nat) (s : State) : Out := .next (s.smbAnswer (decide (rail < 4)) amps)

/-- SMB_DIE_TEMP: command 20h. -/
def execSmbDieTemp (temp : Int) (s : State) : Out := .next (s.smbAnswer true (BitVec.ofInt 16 temp).toNat)

/-- SMB_HBM_TEMP: command 21h. -/
def execSmbHbmTemp (temp : Int) (s : State) : Out := .next (s.smbAnswer true (BitVec.ofInt 16 temp).toNat)

/-- SMB_POWER: command 22h. -/
def execSmbPower (watts : Nat) (s : State) : Out := .next (s.smbAnswer true watts)

end Sys2Proof.Machine
end

