-- ==== Sys2Proof/Machine/Store.lean ====
section
/-! DEFINITION. The configuration store: operations on its slots (R383 to R385), boot selection (R386) and upkeep (R387 to
R389). -/

namespace Sys2Proof.Machine

namespace State

variable (s : State)

/-- The directory gives a slot a state (R352). -/
def putSlot (k st : Nat) : State := s.dirWrite fun d => { d with slot := tput (fun _ => 0) k st d.slot }

/-- CE_PGM_SRC. -/
def pgmSrc : Nat := s.pair Reg.cePgmSrcLo Reg.cePgmSrcHi

/-- Frame 0 of a slot, when its CRC and MAGIC hold (R383). -/
def frameZero (k : Nat) : Option (List (BitVec 8)) :=
  match s.page k 0 with
  | some w =>
    let l := pageBytes w
    if frameCrcOk l && fieldBE l 0 4 == 0x58444C49 then some l else none
  | none => none

/-- Whether a store operation is refused (R384). -/
def pgmRefused (op slot first count : Nat) : Bool :=
  let loading := match s.load with
    | some ld => op != 4 && ld.src == slot + 1
    | none => false
  s.store.op.isSome || decide (4 < op) || loading ||
  (decide (2 ≤ slot) && decide (op < 3) && !s.flag Reg.ceCtrl 7) ||
  (op == 1 && (decide (slotSize slot < first + count) || s.pgmSrc % 4096 != 0 || decide (1 < s.slotState slot) ||
    (List.range count).any fun i => (s.page slot (first + i)).isSome)) ||
  (op == 2 && (s.slotState slot != 1 || (s.frameZero slot).isNone))

/-- CE_PGM_CTRL is written (R383, R384, R395): with GO = 1 an operation starts, or nothing changes but ERR. -/
def pgmWrite (v : BitVec 32) : State :=
  let op := bits v 30 28
  let slot := bits v 27 26
  let first := bits v 22 0
  let count := s.fld Reg.cePgmCnt 22 0
  if v.getLsbD 31 && s.pgmRefused op slot first count then s.setFlag Reg.cePgmStat 29 true
  else
    let s := s.setReg Reg.cePgmCtrl (v &&& 0x7C7FFFFF#32)
    if v.getLsbD 31 then
      let o : StoreOp := { op := op, slot := slot, first := first, count := count, src := BitVec.ofNat 64 s.pgmSrc }
      let s := { s with store := { s.store with op := some o } }.setFlag Reg.cePgmStat 31 true
      if op = 0 ∨ (op = 1 ∧ s.slotState slot ≠ 1) then s.putSlot slot 1 else s
    else s

/-- The operation in progress ends with DONE or ERR (R395). -/
def pgmEnd (err : Bool) : State :=
  (({ s with store := { s.store with op := none } }).setFlag Reg.cePgmStat 31 false).setFlag Reg.cePgmStat (if err then 29 else 30) true

/-- CE_BOOT.SEL is written (R386, R394). -/
def bootWrite (v : BitVec 32) : State :=
  if s.flag Reg.ceCtrl 0 then s else s.dirWrite fun t => { t with sel := v.getLsbD 0 }

/-- The frames of a WRITE, from frame i of n on, are copied while the controllers answer OK, the words as ecc says; the state with
the number still to copy (R383, R384). -/
def copyFrames (o : StoreOp) (ecc : List EccAt) : Nat → Nat → State → State × Nat
  | 0, _, s => (s, 0)
  | n + 1, i, s =>
    let a := o.src.toNat + 4096 * i
    if hbmTop < a + 4096 ∨ (s.hbmStates a 4064).any (fun e => e.2 ≠ 2) = true then (s, n + 1)
    else
      let r := s.hbmReadBlocks a 16 1 (eccFrom ecc (512 * i))
      if r.2.2 then (r.1, n + 1)
      else copyFrames o ecc n (i + 1) (r.1.putPage o.slot (o.first + i) (pageOf (r.2.1.flatMap fun w => bytesOf 8 w.toNat)))

/-- A WRITE completes; one that fails has written a number of its frames that the spec does not fix (log 36). A controller
that initialises makes it wait; without a spare block for one retired it ends with ERR (R389). -/
def writeDone (o : StoreOp) (ok : Bool) (ecc : List EccAt) : State :=
  if (s.hbmStates o.src.toNat (4096 * o.count)).any (fun e => e.2 = 1) = true then s
  else if ok && !s.spareWanting then
    let r := copyFrames o ecc o.count 0 s
    r.1.pgmEnd (r.2 != 0)
  else
    let n := s.drawn.toNat % (o.count + 1)
    ((copyFrames o ecc n 0 { s with free := s.free + 1 }).1).pgmEnd true

/-- The block map after an ERASE of slot A or B: the CE spreads writes over the normal region, so that each block stands on a spare
block that is a free value (R353; log 81). -/
def spreadMap (slot : Nat) : Tab Nat :=
  (List.range (slotSize slot / 1024)).foldl (fun m i =>
    let h := homeBlock slot i
    let s := { s with free := s.free + i, store := { s.store with dir := { s.store.dir with bmap := m } } }
    match s.freshBlock (s.blockOf h) with
    | some q => tput (fun h => h) h q m
    | none => m) s.store.dir.bmap

/-- An ERASE completes: the slot's blocks, and those that take their place, hold nothing (R352, R353, R383). -/
def eraseDone (o : StoreOp) : State :=
  let t := s.dirWrite fun d => { d with
    bmap := if o.slot < 2 then s.spreadMap o.slot else d.bmap,
    slot := tput (fun _ => 0) o.slot 0 d.slot, fcount := tput (fun _ => 0) o.slot 0 d.fcount }
  let gone := fun (q : Nat) => s.inRegion o.slot q || t.inRegion o.slot q
  let t := { t with free := s.free + slotSize o.slot / 1024,
                    store := { t.store with pages := tdrop (fun k => gone (k / 1024)) t.store.pages,
                                            reads := tdrop gone t.store.reads } }
  t.pgmEnd false

/-- A COMMIT completes: FCOUNT is recorded (R383, R394). -/
def commitDone (o : StoreOp) : State :=
  let f := match s.frameZero o.slot with
    | some l => fieldBE l 16 4 % 2 ^ 23
    | none => 0
  let s := s.dirWrite fun d => { d with slot := tput (fun _ => 0) o.slot 2 d.slot, fcount := tput (fun _ => 0) o.slot f d.fcount }
  s.pgmEnd false

/-- A VERIFY ends with a code (R352, R383). -/
def verifyEnd (o : StoreOp) (code : Nat) : State :=
  ((s.putSlot o.slot (if code = 0 then 3 else 4)).setFld Reg.cePgmStat 7 0 code).pgmEnd false

/-- Frames that a slot holds after its header, as its frame 0 says. -/
def slotFrames (k : Nat) : Nat :=
  match s.frameZero k with
  | some l => fieldBE l 16 4 % 2 ^ 23
  | none => 0

/-- A VERIFY is aborted (R383): how many pages it had read is a free value (R388; log 36). -/
def verifyAbort (o : StoreOp) : State :=
  ({ s with free := s.free + 1 }.countReads o.slot (s.drawn.toNat % (s.slotFrames o.slot + 2))).retryEnd.verifyEnd o 0x0E

/-- CE_CTRL is written: ABORT also ends a VERIFY (R378, R383, R392). lost names the copies of the store's regions that do not read
right at a start (R351). -/
def ceWrite (v : BitVec 32) (lost : List LostCopy) : State :=
  let s := match s.store.op with
    | some o => if v.getLsbD 28 && o.op == 3 then s.verifyAbort o else s
    | none => s
  s.ceCtrlWrite v lost

/-! ### Upkeep (R387, R388) -/

/-- The blocks that hold a written page: those of the slots, and the copies of the other regions (R350, R387). -/
def writtenBlocks : List Nat :=
  let single := [(4, 0), (4, 1), (5, 0), (5, 1), (6, 0), (6, 1), (6, 2)].map fun b => homeBlock b.1 b.2
  s.store.pages.foldl (fun l e =>
    match s.blockAt (e.1 / 1024) with
    | some h => if l.contains h then l else h :: l
    | none => l) single

/-- The patrol reads a block in time that no load or store operation uses; reloc says that a read needed a shift or many
corrections (R387). -/
def patrol (region block : Nat) (reloc : Bool) : State :=
  let h := homeBlock region block
  if s.load.isSome ∨ s.store.op.isSome ∨ !s.writtenBlocks.contains h then s
  else
    let s := s.countRead h
    let s := if reloc then s.relocate h else s
    let seen := if s.store.patrolled.contains h then s.store.patrolled else h :: s.store.patrolled
    if s.writtenBlocks.all seen.contains then
      { s with store := { s.store with patrolled := [] } }.dirWrite fun d => { d with passes := d.passes + 1 }
    else { s with store := { s.store with patrolled := seen } }

end State

/-- LOAD_START (R369): a write of CE_CTRL with LOAD = 1. -/
def execLoadStart (w : LoadWrite) (s : State) : Out :=
  .next (s.regWrite .host Reg.ceCtrl (setBit w.v 31 true) fun s v => s.ceWrite v w.lost)

/-- LOAD_ABORT (R378): a write of CE_CTRL with ABORT = 1. -/
def execLoadAbort (v : BitVec 32) (s : State) : Out := .next (s.regWrite .host Reg.ceCtrl (setBit v 28 true) fun s v => s.ceWrite v [])

/-- ERASE (R383): a write of CE_PGM_CTRL with GO = 1 and OP = 000b. -/
def execErase (v : BitVec 32) (s : State) : Out := .next (s.regWrite .host Reg.cePgmCtrl (setBits v 31 28 8) State.pgmWrite)

/-- WRITE (R383): OP = 001b. -/
def execWrite (v : BitVec 32) (s : State) : Out := .next (s.regWrite .host Reg.cePgmCtrl (setBits v 31 28 9) State.pgmWrite)

/-- COMMIT (R383): OP = 010b. -/
def execCommit (v : BitVec 32) (s : State) : Out := .next (s.regWrite .host Reg.cePgmCtrl (setBits v 31 28 10) State.pgmWrite)

/-- VERIFY (R383): OP = 011b. -/
def execVerify (v : BitVec 32) (s : State) : Out := .next (s.regWrite .host Reg.cePgmCtrl (setBits v 31 28 11) State.pgmWrite)

/-- IDENT (R383): OP = 100b. -/
def execIdent (v : BitVec 32) (s : State) : Out := .next (s.regWrite .host Reg.cePgmCtrl (setBits v 31 28 12) State.pgmWrite)

/-- BOOT_SELECT_WRITE (R386). -/
def execBootSelectWrite (v : BitVec 32) (s : State) : Out := .next (s.regWrite .host Reg.ceBoot v State.bootWrite)

/-- STORE_PATROL_READ (R387): a block of a region as homeBlock numbers them. -/
def execStorePatrolRead (region block : Nat) (reloc : Bool) (s : State) : Out := .next (s.patrol region block reloc)

end Sys2Proof.Machine
end

