-- ==== Sys2Proof/Machine/Debug.lean ====
section
/-! DEFINITION. The debug master's own registers: the lock of the awl port (R489, R490), the fuses (R491) and the unfreezing of
the DM (R492). -/

namespace Sys2Proof.Machine

/-- The eight 32-bit words of a 256-bit value, the most significant first. -/
def words256 (v : BitVec 256) : List (BitVec 32) := (List.range 8).map fun i => v.extractLsb' (32 * (7 - i)) 32

namespace State

variable (s : State)

/-- Eight registers as one value, the first most significant. -/
def regs256 (f : Nat → Nat) : BitVec 256 := BitVec.ofNat 256 ((List.range 8).foldl (fun v i => 2 ^ 32 * v + (s.reg (f i)).toNat) 0)

/-- A new challenge fills DBG_CHAL (R490). -/
def newChallenge (rnd : BitVec 256) : State :=
  let s := (words256 rnd).zipIdx.foldl (fun (s : State) p => s.setReg (Reg.dbgChal p.2) p.1) s
  { s with dbg := { s.dbg with freshCh := true } }

/-- The response that unlocks: the first 32 bytes of the HMAC over the challenge and the fabric identity (R490). -/
def authResponse : BitVec 256 :=
  (hmacSha384 (BitVec.ofNat 256 (s.fuseWords 2 0 8))
    (beBytes 32 (s.regs256 Reg.dbgChal).toNat ++ beBytes 8 s.fabIdentity.toNat)).extractLsb' 128 256

/-- The response is compared; every comparison uses up the challenge, and after four failures none is made (R490). -/
def authCheck : State :=
  let fails := s.fld Reg.dbgAwl 29 27
  if 4 ≤ fails then s
  else
    let ok := s.dbg.freshCh && s.regs256 Reg.dbgResp == s.authResponse
    let s := { s with dbg := { s.dbg with freshCh := false } }
    if ok then s.setFlag Reg.dbgAuth 29 true else s.setFld Reg.dbgAwl 29 27 (fails + 1)

/-- DBG_AUTH is written; the challenge comes from the random source, a free value. CHECK acts on the challenge as it stood
before a NEWCH of the same write (log 37). -/
def authWrite (v : BitVec 32) : State :=
  let s := if v.getLsbD 30 then s.authCheck else s
  if v.getLsbD 31 then
    let f := fun (i : Nat) => Config.freeValue (s.free + i)
    ({ s with free := s.free + 4 }).newChallenge (f 0 ++ f 1 ++ f 2 ++ f 3)
  else s

/-- Words of a fuse group (R491). -/
def fuseCount (g : Nat) : Nat :=
  match g with
  | 0 => 48
  | 1 => 32
  | 2 => 8
  | 3 => 1
  | _ => 0

/-- A fuse word as programmed so far, whether it has taken effect or not. -/
def fuseSet (g w : Nat) : BitVec 32 := s.fuse g w ||| tget (fun _ => 0) s.fuses (64 * g + w)

/-- DBG_FUSE_CTRL is written (R491); who is the debugger only for awl requests. A GO while a word is being programmed is
refused (log 37). -/
def fuseWrite (who : Who) (v : BitVec 32) : State :=
  let k := Reg.dbgFuseCtrl
  let armed := s.flag k 30
  let s := if v.getLsbD 28 then s.setFlag k 28 false else s
  let s := s.setReg k ((s.reg k &&& 0x10000000#32) ||| (v &&& 0x4F00003F#32))
  if v.getLsbD 31 then
    let g := bits v 27 24
    let w := bits v 5 0
    let d := s.reg Reg.dbgFuseData
    let lock := g == 3 && d.getLsbD 12 && !(s.fuseSet 3 0).getLsbD 13 && !d.getLsbD 13
    let s := s.setFlag k 30 false
    if !armed || decide (fuseCount g ≤ w) || who != .debug || s.seqState != 0 || lock || s.dbg.fuse.isSome then s.setFlag k 28 true
    else { s with dbg := { s.dbg with fuse := some (g, w, d) } }
  else s

/-- The word is programmed: bits only change from 0 to 1 (R491). -/
def fuseDone : State :=
  match s.dbg.fuse with
  | some (g, w, d) =>
    { s with fuses := tput (fun _ => 0) (64 * g + w) (tget (fun _ => 0) s.fuses (64 * g + w) ||| d) s.fuses,
             dbg := { s.dbg with fuse := none } }
  | none => s

/-- DBG_CTRL is written (R492, R508). -/
def dbgCtrlWrite (v : BitVec 32) : State :=
  let k := Reg.dbgCtrl
  let m : BitVec 32 := if s.flag k 0 then 0x6#32 else 0xF00007#32
  let s := s.setReg k ((s.reg k &&& ~~~m) ||| (v &&& m))
  if v.getLsbD 31 then s.unfreeze dmNode 0 else s

end State

/-- AUTH_NEW_CHALLENGE (R490): rnd is what the random source gives. -/
def execAuthNewChallenge (rnd : BitVec 256) (s : State) : Out := .next (s.newChallenge rnd)

/-- AUTH_CHECK (R490). -/
def execAuthCheck (s : State) : Out := .next s.authCheck

/-- FUSE_PROGRAM (R491): a write of DBG_FUSE_CTRL with GO = 1. -/
def execFuseProgram (who : Who) (v : BitVec 32) (s : State) : Out := 
  .next (s.regWrite who Reg.dbgFuseCtrl (setBit v 31 true) fun s v => s.fuseWrite who v)

/-- FUSE_PROGRAM_DONE (R491). -/
def execFuseProgramDone (s : State) : Out := .next s.fuseDone

/-- DM_UNFREEZE (R492): a write of DBG_CTRL with UNFRZ = 1. -/
def execDmUnfreeze (v : BitVec 32) (s : State) : Out := .next (s.regWrite .host Reg.dbgCtrl (setBit v 31 true) State.dbgCtrlWrite)

end Sys2Proof.Machine
end

