-- ==== Sys2Proof/Machine/RegBus.lean ====
section
/-! DEFINITION. Reading and writing registers (R8 to R12): the access codes, and the registers whose write or read does more. -/

namespace Sys2Proof.Machine

namespace State

variable (s : State)

/-- Whether the lock of a row's RWL fields is set. -/
def rowLocked (node : Nat) (r : RegRow) : Bool :=
  match r.lock with
  | some (o, b) => s.flag (0x100000 * node + o) b
  | none => false

/-- The fields of a register take a value: RW and unlocked RWL fields take it, W1C fields are cleared by ones, every other
field keeps what it holds (R9, R10), also the fields of CLU_FAULT once SCHED, ORPHAN and IPAR are clear (log 96). -/
def plainWrite (k : Nat) (v : BitVec 32) : State :=
  match rowAt k with
  | none => s
  | some r =>
    let m := BitVec.ofNat 32 (r.rw ||| r.wo ||| if s.rowLocked (k / 0x100000) r then 0 else r.rwl)
    s.setReg k ((s.reg k &&& ~~~m &&& ~~~(v &&& BitVec.ofNat 32 r.w1c)) ||| (v &&& m))

/-! ### The windows -/

/-- A register of the CE window is written. -/
def writeCe (o k : Nat) (v : BitVec 32) : State :=
  match o with
  | 0x0 => s.ceWrite v []
  | 0x1C => s.bootWrite v
  | 0x40 => s.pgmWrite v
  | 0x40020 => s.seqFaultWrite v
  | 0x60010 => s.unfreezeWrite v
  | 0x61000 | 0x61004 => s
  | 0x70000 => s.fabCtrlWrite v
  | 0x70010 => s.rtCtrlWrite v
  | 0x90000 => s.dawnWrite v
  | _ =>
    if 0x72000 ≤ o ∧ o < 0x76000 then
      if s.epoch = decide (0x74000 ≤ o) then s.setFlag Reg.fabRtCtrl 29 true else s.plainWrite k v
    else s.plainWrite k v

/-- A register of a tile's window is written. -/
def writeTileReg (who : Who) (t o k : Nat) (v : BitVec 32) : State :=
  if 0x80000 ≤ o ∧ o < 0xA4000 then
    let c := (o - 0x80000) / 0x800
    let r := (o - 0x80000) % 0x800
    if r = 0x20 then s.cluAccStart who t c v
    else if 0x200 ≤ r ∧ r < 0x340 ∧ r % 0x40 = 0x10 then s.wuAccStart who t c ((r - 0x200) / 0x40) v
    else s.plainWrite k v
  else if o = 0x50010 then s.raccStart who t v
  else if 0x60000 ≤ o ∧ o < 0x60400 ∧ o % 0x40 = 0 then s.ownerWrite who t ((o - 0x60000) / 0x40) v
  else if o = 0x70014 then s.weltRead t v
  else if 0xE0000 ≤ o ∧ o < 0xE8000 then
    if s.rgnState t = 1 then s.ttErr 3 else s.plainWrite k v
  else if 0xD0000 ≤ o ∧ o < 0xD0100 ∧ o % 0x20 = 0 then
    let r := (o - 0xD0000) / 0x20
    let enables := v.getLsbD 31 && !s.flag k 31
    let s := s.plainWrite k v
    if enables then
      let h := (s.tile t).ruHist
      s.setTile t { s.tile t with ruHist := setBit (setBit h (r / 2 * 2) false) (r / 2 * 2 + 1) false }
    else s
  else s.plainWrite k v

/-- A register of the SS window is written (R427, R428, R431, R434). -/
def writeSs (o k : Nat) (v : BitVec 32) : State :=
  if o = 0 then (s.plainWrite k v).fillSlots
  else if o = 8 then s.submitWrite v
  else if o = 0xC then s.cancelWrite v
  else if o = 0x10 then s.ackWrite v
  else if 0x10000 ≤ o ∧ o < 0x20000 then
    let d := (o - 0x10000) / 0x40
    if s.dLive d then s.ssRefuse 5 d else s.plainWrite k v
  else s.plainWrite k v

/-- Whether a write of a TT register is one that R462, R478 or R541 has the TT ignore. The key of a stream command goes with
the command (log 26). -/
def ttIgnored (who : Who) (o : Nat) (v : BitVec 32) : Bool :=
  if 0x1000 ≤ o ∧ o < 0x2000 then s.flag (Reg.ttUCtrl ((o - 0x1000) / 0x100)) 31
  else if 0x200 ≤ o ∧ o < 0x240 then
    let um := s.fld (Reg.ttEqCtrl ((o - 0x200) / 0x10)) 15 0
    (List.range 16).any fun u => um.testBit u && s.flag (Reg.ttUCtrl u) 31
  else if 0x2000 ≤ o ∧ o < 0x2800 then
    let n := (o - 0x2000) / 0x100
    let r := o % 0x100
    if r = 0x1C ∨ r = 0x20 then false
    else (s.stream n).on || (s.fidelity && r == 0 && v.getLsbD 29 && who == .host)
  else false

/-- A register of the TT window is written (R462, R464, R466, R471, R478). -/
def writeTt (who : Who) (o k : Nat) (v : BitVec 32) : State :=
  let n := (o - 0x2000) / 0x100
  let inStream := decide (0x2000 ≤ o ∧ o < 0x2800)
  if o = 0x310 then s.stimWrite who v
  else if inStream && o % 0x100 == 0x18 then s.rdWrite n v
  else if inStream && o % 0x100 == 0x24 then s.streamCmd n v (who == .host)
  else if s.ttIgnored who o v then s.ttErr 3
  else s.plainWrite k v

/-- A register of the DM window is written. -/
def writeDm (who : Who) (o k : Nat) (v : BitVec 32) : State :=
  match o with
  | 0x0 => s.dbgCtrlWrite v
  | 0x8 => s.dbgRunWrite v
  | 0x80 => s.authWrite v
  | 0xA0 => s.fuseWrite who v
  | 0x100 =>
    let was := s.flag Reg.wdgCtrl 0
    let s := s.plainWrite k v
    if !was && s.flag Reg.wdgCtrl 0 then s.heartRestart else s
  | 0x10C => if v.getLsbD 31 then s.heartRestart else s
  | _ => s.plainWrite k v

/-- A register of the PM window is written. -/
def writePm (who : Who) (o k : Nat) (v : BitVec 32) : State :=
  match o with
  | 0x10000 => s.modeCtrlWrite v
  | 0x20000 => s.sprCtrlWrite v
  | 0x20010 => s.markWrite v
  | 0x20024 => s.ledgerMark v
  | _ => if 0x100 ≤ o ∧ o < 0x388 ∧ o % 8 = 0 then s.pwrDomWrite who ((o - 0x100) / 8) v else s.plainWrite k v

/-- A register of the TIO window is written; in replay mode WR is RW and RD is RO (R532). -/
def writeTio (o k : Nat) (v : BitVec 32) : State :=
  let replay := s.fld Reg.tioRecCtrl 1 0 == 2
  match o with
  | 0x34 => s.recDirWrite v
  | 0x2C => if replay then s.setReg k v else s
  | 0x30 => if replay then s else s.setReg k v
  | _ => s.plainWrite k v

/-- A register is written; a write where none is defined has no effect (R11). -/
def writeReg (who : Who) (k0 : Nat) (v : BitVec 32) : State :=
  let k := s.key k0
  let o := k % 0x100000
  if (rowAt k).isNone then s
  else match nodeKind (k / 0x100000) with
    | .ce => s.writeCe o k v
    | .tile t => s.writeTileReg who t o k v
    | .mc m => if o = 0x38 then s.migWrite m v else s.plainWrite k v
    | .port p => if o = 0 then s.lnkCtrlWrite p v else s.plainWrite k v
    | .ss => s.writeSs o k v
    | .tt => s.writeTt who o k v
    | .dm => s.writeDm who o k v
    | .pm => s.writePm who o k v
    | .tio => s.writeTio o k v
    | _ => s.plainWrite k v

/-- What reading a register changes: RC fields are cleared, but by a peek (R9); the count and tick latch their high words
(R45, R446); TT_S_FIFO advances (R471). -/
def readEffect (k0 : Nat) (peek : Bool) : State :=
  let k := s.key k0
  if peek then s
  else if k = Reg.seqCycleLo then { s.cycleLoRead false with bus := s.bus }
  else if k = Reg.ssTickLo then s.setReg Reg.ssTickHi (BitVec.ofNat 32 (s.tick.toNat / 2 ^ 32))
  else if k / 0x100000 = ttNode ∧ 0x2000 ≤ k % 0x100000 ∧ k % 0x100000 < 0x2800 ∧ k % 0x100 = 0x2C then
    { s.fifoRead ((k % 0x100000 - 0x2000) / 0x100) false [] with bus := s.bus }
  else
    match rowAt k with
    | some r => if r.rc = 0 then s else s.setReg k (s.reg k &&& ~~~BitVec.ofNat 32 r.rc)
    | none => s

/-- A register is read: the answer and what reading changes. -/
def readReg (k : Nat) (peek : Bool) : State := (s.readEffect k peek).answer (s.view k)

/-! ### The loader's writes (R361) -/

/-- The loader writes a REGS pair: a write of the value to the address, and every field that an image loads. A bank's owner
is set directly (R231); a unit's ARMED bit arms it (R461; log 35). Its domain is on: writePairs waits for it. -/
def loadWrite (k : Nat) (v : BitVec 32) : State :=
  let o := k % 0x100000
  match rowAt k with
  | none => s
  | some r =>
    match nodeKind (k / 0x100000) with
    | .tile _ =>
      if 0x60000 ≤ o ∧ o < 0x60400 ∧ o % 0x40 = 0 then (s.setFld k 2 0 (bits v 2 0)).setFld k 7 4 (bits v 7 4)
      else
        let m := BitVec.ofNat 32 r.img
        let s := s.writeReg .ce k v
        s.setReg k ((s.reg k &&& ~~~m) ||| (v &&& m))
    | .tt =>
      let s := s.writeReg .ce k v
      if 0x1000 ≤ o ∧ o < 0x2000 ∧ o % 0x100 = 0 ∧ v.getLsbD 31 = true then s.armUnits (BitVec.ofNat 16 (2 ^ ((o - 0x1000) / 0x100))) true
      else s
    | _ =>
      let m := BitVec.ofNat 32 r.img
      let s := s.writeReg .ce k v
      s.setReg k ((s.reg k &&& ~~~m) ||| (v &&& m))

end State

/-- REGISTER_WRITE (R9): key is the register's BAR0 offset (R271). -/
def execRegisterWrite (who : Who) (key : Nat) (v : BitVec 32) (s : State) : Out :=
  .next (s.regWrite who key v fun s v => s.writeReg who key v)

/-- RC_FIELD_READ (R9): a register is read. -/
def execRcFieldRead (key : Nat) (peek : Bool) (s : State) : Out :=
  .next (s.regAccess .host key false peek 0 fun s => s.readReg key peek)

/-- SS_TICK_LO_READ (R446). -/
def execSsTickLoRead (peek : Bool) (s : State) : Out :=
  .next (s.regAccess .host Reg.ssTickLo false peek 0 fun s => s.readReg Reg.ssTickLo peek)

/-- CLU_ACCESS_START (R95): a write of CLU_ACC_CTRL with GO = 1. -/
def execCluAccessStart (who : Who) (t row col : Nat) (v : BitVec 32) (s : State) : Out :=
  .next (s.regWrite who (Reg.cluAccCtrl t (8 * row + col)) (setBit v 31 true) fun s v => s.cluAccStart who t (8 * row + col) v)

/-- WU_ACCESS_START (R139): a write of CLU_WACC_CTRL with GO = 1. -/
def execWuAccessStart (who : Who) (t row col pw : Nat) (v : BitVec 32) (s : State) : Out :=
  .next (s.regWrite who (Reg.cluWaccCtrl t (8 * row + col) pw) (setBit v 31 true) fun s v =>
    s.wuAccStart who t (8 * row + col) pw v)

/-- MERGE_ACCESS_START (R173): a write of TILE_RACC_CTRL with GO = 1. -/
def execMergeAccessStart (who : Who) (t : Nat) (v : BitVec 32) (s : State) : Out :=
  .next (s.regWrite who (Reg.tileRaccCtrl t) (setBit v 31 true) fun s v => s.raccStart who t v)

end Sys2Proof.Machine
end

