-- ==== Sys2Proof/Machine/LoaderRun.lean ====
section
/-! DEFINITION. The steps of a load (R370, R374 to R380), with the register writes it makes, and the completion of store operations
(R383, R395), VERIFY among them. -/

namespace Sys2Proof.Machine

namespace State

variable (s : State)

/-- A full load has passed: LOADED, and the dawn follows, but not after a golden image (R370 steps 5 and 6). -/
def loadedFull (ld : Load) : State :=
  let golden := decide (3 ≤ ld.src)
  let s := { (s.recordSkips ld).ceState 4 with load := none }
  let s := s.irqIf (s.flag Reg.ceCtrl 2) ceNode
  let s := (List.range 64).foldl (fun (s : State) t =>
    if s.flag (Reg.tilePlace t) 31 then s.setFld (Reg.rgnStat t) 31 30 1 else s) s
  if golden then s else s.speedCheck.dawnBegin

/-- A region image has passed: the region waits for its join (R406). -/
def loadedRegion (ld : Load) (t : Nat) : State :=
  let s := { (s.recordSkips ld).setFlag Reg.ceStat 24 false with load := none }
  s.setFlag (Reg.rgnStat t) 28 true

/-- A frame read ends; err is a read that fails (R370 steps 4 to 6, R374), ecc describes the words of a read from HBM. The load waits
while a tile it writes, or a domain that a pair writes, has no power (R287), and while a controller it uses initialises. -/
def frameRead (err : Bool) (ecc : List EccAt) : State :=
  match s.load with
  | none => s
  | some ld =>
    if !ld.header ∨ s.fld Reg.ceStat 31 29 = 3 ∨ s.loadDark ld ≠ [] ∨ s.readWaits ld = true then s
    else
      let r := s.readFrame ld ecc
      match r.2 with
      | none => if err ∨ ld.src = 5 then r.1.loadRetry ld else r.1.loadFail ld 0x0B ld.frame none
      | some l =>
        if err ∨ !frameCrcOk l then r.1.loadRetry ld
        else
          match r.1.doFrame loadWrite ld l true with
          | .wait d => d.elim s s.domainCall
          | .fail s ld c f b => s.loadFail ld c f b
          | .ok s ld done =>
            let s := s.loadPass ld
            let s := if ld.region.isNone then s.setReg Reg.ceProg (BitVec.ofNat 32 (min (s.fld Reg.ceProg 22 0 + 1) (2 ^ 23 - 1))) else s
            if done then
              match ld.region with
              | some t => s.loadedRegion ld t
              | none => s.loadedFull ld
            else s

/-- The clean-up ends: the golden load starts, or the device is unconfigured (R376, R377). -/
def cleanDone : State :=
  match s.load with
  | some ld =>
    if s.fld Reg.ceStat 31 29 ≠ 3 then s
    else if ld.src = 0 then
      let s := { (s.ceState 5).setReg Reg.ceImgidLo 0 with load := none }
      (s.setReg Reg.ceImgidHi 0).irqIf (s.flag Reg.ceCtrl 2) ceNode
    else ((s.ceState 0).setFlag Reg.ceStat 25 true).setReg Reg.ceProg 0
  | none => s

/-! ### VERIFY (R383, R385) -/

/-- Frames of a copy of the device are checked in order; n bounds their number. The code and the last frame read, or the frame that
does not read right, and is read again for ever. -/
def verifyFrames : Nat → State → Load → Except Nat (Nat × Nat)
  | 0, _, ld => .error ld.frame
  | n + 1, s, ld =>
    match (s.readFrame ld []).2 with
    | none => .ok (0x0B, ld.frame)
    | some l =>
      if frameCrcOk l then
        match s.doFrame loadWrite ld l false with
        | .wait _ => .error ld.frame
        | .fail _ _ c _ _ => .ok (c, ld.frame)
        | .ok s ld' done => if done then .ok (0, ld.frame) else verifyFrames n s ld'
      else .error ld.frame

/-- The device as VERIFY pretends it: no load, every domain on, every controller ready, every loaded field at its Reset value
when the image is a full one, so that only the image is checked. -/
def verifyBase (full : Bool) : State :=
  let s := { s with load := none }
  let s := if full then s.discardRun.cleanRegs else s
  let s := (List.range 81).foldl (fun (s : State) k => s.setDomState k 2) s
  (List.range 6).foldl (fun (s : State) m => s.setFld (Reg.mcStat m) 2 0 2) s

/-- The code of VERIFY for a slot and the last frame it read: code 0 passes; or the frame that does not read right. A region image in
slot A or B is checked as the load of its own tile (log 36). -/
def verifyCode (slot : Nat) : Except Nat (Nat × Nat) :=
  let start := fun (r : Option Nat) => Load.start r (slot + 1) 0
  match (s.readFrame (start none) []).2 with
  | none => if s.slotState slot = 2 ∨ s.slotState slot = 3 then .error 0 else .ok (7, 0)
  | some l =>
    if !frameCrcOk l then .error 0
    else
      let region := if slot < 2 ∧ fieldBE l 6 1 = 2 then some (s.devIn.tileOf (fieldBE l 12 1) (fieldBE l 13 1)) else none
      match s.checkHeader (start region) l with
      | .error c => .ok (c, 0)
      | .ok ld =>
        let b := s.verifyBase region.isNone
        verifyFrames ld.fcount (if region.isNone then b.acceptHeader ld else b) ld

/-- A VERIFY has read a frame n times over, and goes on or not (R374, R383, R393): the retries count as a load's; CE_STAT, which shows
loads, stays (log 36). -/
def verifyRetry (frame n : Nat) (active : Bool) : State :=
  if n = 0 then s
  else
    let w := b2n active * 2 ^ 31 + n % 8 * 2 ^ 28 + frame % 2 ^ 23
    let s := (s.setReg Reg.ceRframe (BitVec.ofNat 32 w)).setFld Reg.ceRetry 31 16 (min n 65535)
    (s.count Reg.ceRetry 15 0 n).irqIf (s.flag Reg.ceCtrl 1) ceNode

/-- A VERIFY has read its slot; retries names frames with the transient failures they met (R374). A frame that does not read right at
all is read again, once more for each command. -/
def verifyDone (o : StoreOp) (retries : List (Nat × Nat)) : State :=
  match s.verifyCode o.slot with
  | .ok (c, n) =>
    let s := (retries.filter fun r => decide (r.1 ≤ n)).foldl (fun (s : State) r => s.verifyRetry r.1 r.2 false) s
    (s.countReads o.slot (n + 1)).retryEnd.verifyEnd o c
  | .error f =>
    let again := s.flag Reg.ceRframe 31 && s.fld Reg.ceRframe 22 0 == f
    let n := if again then s.fld Reg.ceRetry 31 16 + 1 else 1
    let s := ((s.setReg Reg.ceRframe (BitVec.ofNat 32 (2 ^ 31 + n % 8 * 2 ^ 28 + f % 2 ^ 23))).setFld Reg.ceRetry 31 16 (min n 65535))
    ((s.count Reg.ceRetry 15 0 1).irqIf (!again && s.flag Reg.ceCtrl 1) ceNode).countRead (homeBlock o.slot (f / 1024))

/-- The store operation in progress completes (R383, R389, R395). ok says that no block was wanting and every HBM response
was OK; bad names the physical blocks whose program or erase failed; retries belongs to a VERIFY, ecc to the words that a WRITE
reads. -/
def storeDone (ok : Bool) (bad : List Nat) (retries : List (Nat × Nat)) (ecc : List EccAt) : State :=
  match s.store.op with
  | none => s
  | some o =>
    match o.op with
    | 0 => (s.retire (bad.filter (s.inRegion o.slot))).eraseDone o
    | 1 => (s.retire (bad.filter (s.inRegion o.slot))).writeDone o ok ecc
    | 2 => (s.countReads o.slot 1).commitDone o
    | 3 => s.verifyDone o retries
    | _ => (s.recordWrite o.src).pgmEnd false

end State

/-- LOAD_HEADER (R370). -/
def execLoadHeader (r : ReadEnd) (s : State) : Out := .next (s.loadHeader r.err r.ecc)

/-- FRAME_READ (R370). -/
def execFrameRead (r : ReadEnd) (s : State) : Out := .next (s.frameRead r.err r.ecc)

/-- LOAD_CLEAN_DONE (R376). -/
def execLoadCleanDone (s : State) : Out := .next s.cleanDone

/-- STORE_OPERATION_DONE (R395). -/
def execStoreOperationDone (ok : Bool) (e : StoreEnd) (s : State) : Out := .next (s.storeDone ok e.bad e.retries e.ecc)

end Sys2Proof.Machine
end

