-- ==== Sys2Proof/Machine/NocServe.lean ====
section
/-! DEFINITION. How a node serves the requests it has admitted (R273, R277, R278, R215): registers, banks, and the HBM requests
whose column access has been issued. -/

namespace Sys2Proof.Machine

/-- Who sends a packet, as the register rules distinguish writers. -/
def whoOf (pk : Packet) : Who :=
  match nodeKind (10 * pk.sy + pk.sx) with
  | .hp => .host
  | .dm => .debug
  | .ss => .engine pk.mid
  | .ce => .ce
  | .pm => .pm
  | .tt => .trace
  | _ => .other

/-- Eight registers as a data flit, register 0 lowest. -/
def regFlit (l : List (BitVec 32)) : BitVec 256 := BitVec.ofNat 256 (l.foldr (fun v n => v.toNat + 2 ^ 32 * n) 0)

/-- The registers as data flits. -/
def regFlits (l : List (BitVec 32)) : Nat → List (BitVec 256)
  | 0 => []
  | n + 1 => regFlit (l.take 8) :: regFlits (l.drop 8) n

namespace State

variable (s : State)

/-- n registers from offset k on are read in order: their words, and the state after. -/
def readRegs (k : Nat) (peek : Bool) : Nat → State → List (BitVec 32) × State
  | 0, s => ([], s)
  | n + 1, s =>
    let r := readRegs (k + 4) peek n (s.readEffect k peek)
    (s.view k :: r.1, r.2)

/-- The registers that a read names are read in order from offset k on: the words of its flits, and the state after. -/
def readNamed (k : Nat) (pk : Packet) : List (BitVec 32) × State :=
  (List.range (8 * pk.len)).foldl (fun (r : List (BitVec 32) × State) i =>
    if (regsOf pk).contains i then (r.1 ++ [r.2.view (k + 4 * i)], r.2.readEffect (k + 4 * i) pk.peek) else (r.1 ++ [0], r.2))
    ([], s)

/-- A node serves a control-space read or write (R273): in the last flit BE names the registers written. -/
def controlServe (node : Nat) (pk : Packet) : State :=
  let k := 0x100000 * node + aOff pk.addr
  if pk.cmd = 0 ∨ pk.cmd = 4 then
    let r := s.readNamed k pk
    r.2.respond node pk 0 (regFlits r.1 pk.len)
  else
    let s := (regsOf pk).foldl (fun (s : State) i =>
      s.writeReg (whoOf pk) (k + 4 * i) (flitReg (pk.data.getD (i / 8) 0) (i % 8))) s
    s.respond node pk 0 []

/-- A node's registers or banks serve a request. -/
def nodeServe (node : Nat) (pk : Packet) (ecc : List EccAt) : State :=
  match nodeKind node with
  | .tile t =>
    let s := s.rangeUnits t pk false
    if aSpace pk.addr = 1 then s.scratchServe t pk ecc else s.controlServe node pk
  | _ => s.controlServe node pk

/-- The request is taken and served; a locked one finds its lock broken, or opens the lock and counts (R277, R278). -/
def serveNow (node : Nat) (pk : Packet) (ecc : List EccAt) : State :=
  if pk.cmd = 4 ∨ pk.cmd = 5 then
    if s.findsBroken node pk then s.answerBroken node pk
    else ((s.openLock node pk).nodeServe node pk ecc).countLock node pk
  else s.nodeServe node pk ecc

/-- Whether two requests meet the same server at a node: its registers, or one bank. -/
def sameServer (a b : Packet) : Bool :=
  (aSpace a.addr == 0 && aSpace b.addr == 0) || (aSpace a.addr == 1 && aSpace b.addr == 1 && aBank a.addr == aBank b.addr)

/-- Whether request i of those a node has admitted stands behind another: an earlier one of its source, or one that the same server
can serve, in the order of acceptance (R215, R267, R287; log 91). -/
def servedAfter (node i : Nat) (pk : Packet) : Bool :=
  ((s.srvAt node).take i).any fun g =>
    (g.sx == pk.sx && g.sy == pk.sy && g.mid == pk.mid) || (sameServer g pk && s.admission node g != 1)

/-- Request i of those a node has admitted is served in its order, once its domain and the lock let it. -/
def serveAt (node i : Nat) (p : Packet → Bool) (f : State → Packet → State) : State :=
  match (s.srvAt node)[i]? with
  | none => s
  | some pk =>
    if !p pk || s.servedAfter node i pk || aSpace pk.addr == 2 || isRemote node pk then s
    else
      let t := s.arriving node pk
      let rest := t.setSrvAt node ((t.srvAt node).eraseIdx i)
      match t.admission node pk with
      | 0 => f rest pk
      | 2 => rest.respond node pk 2 []
      | 3 => rest.respond node pk 1 []
      | _ => t

/-- Request i of a controller, counted from those whose column access has been issued. -/
def hbmAt (m i cmd : Nat) (ecc : List EccAt) : State :=
  match (s.mc m).ready[i]? with
  | some r => if r.pk.cmd = cmd ∧ (s.mcState m = 2 ∨ s.mcState m = 3) then (s.hbmTake m i).hbmServe m r.pk ecc else s
  | none => s

/-- A request of a kind is served: index i counts the node's admitted requests and then, at a controller, those whose column
access has been issued. -/
def serveCmd (node i cmd : Nat) (ecc : List EccAt) : State :=
  let n := (s.srvAt node).length
  match nodeKind node with
  | .mc m => if n ≤ i then s.hbmAt m (i - n) cmd ecc else s.serveAt node i (fun pk => pk.cmd == cmd) fun s pk => s.serveNow node pk ecc
  | _ => s.serveAt node i (fun pk => pk.cmd == cmd) fun s pk => s.serveNow node pk ecc

/-- UNLK (R278): the holder's lock is released; one whose lock was broken learns of it; without a lock, or from the CE within
another master's, it ends OK and closes nothing (R277; log 38). -/
def unlk (node : Nat) (pk : Packet) : State :=
  if s.findsBroken node pk then s.answerBroken node pk
  else if s.holdsLock node pk then (s.releaseLock node).respond node pk 0 []
  else s.respond node pk 0 []

end State

/-- RD (R273): ecc says what the check bits say of the words read. -/
def execRd (node idx : Nat) (ecc : List EccAt) (s : State) : Out := .next (s.serveCmd node idx 0 ecc)

/-- WR (R273). -/
def execWr (node idx : Nat) (ecc : List EccAt) (s : State) : Out := .next (s.serveCmd node idx 1 ecc)

/-- RDW (R273). -/
def execRdw (node idx : Nat) (ecc : List EccAt) (s : State) : Out := .next (s.serveCmd node idx 2 ecc)

/-- WRW (R273). -/
def execWrw (node idx : Nat) (ecc : List EccAt) (s : State) : Out := .next (s.serveCmd node idx 3 ecc)

/-- LRD (R277). -/
def execLrd (node idx : Nat) (ecc : List EccAt) (s : State) : Out := .next (s.serveCmd node idx 4 ecc)

/-- LWR (R277). -/
def execLwr (node idx : Nat) (ecc : List EccAt) (s : State) : Out := .next (s.serveCmd node idx 5 ecc)

/-- UNLK (R278). -/
def execUnlk (node idx : Nat) (s : State) : Out :=
  .next (s.serveAt node idx (fun pk => pk.cmd == 6) fun s pk => s.unlk node pk)

/-- SCRATCHPAD_NOC_ACCESS (R215): a bank serves the request. -/
def execScratchpadNocAccess (node idx : Nat) (ecc : List EccAt) (s : State) : Out :=
  .next (s.serveAt node idx (fun pk => aSpace pk.addr == 1 && pk.cmd != 6) fun s pk => s.serveNow node pk ecc)

end Sys2Proof.Machine
end

