-- ==== Sys2Proof/Machine/Awl.lean ====
section
/-! DEFINITION. The awl port: its frames (R484, R485) and how the debug master serves them (R486 to R489). A frame is the list of its
bytes from SYNC on; the line code, the preamble and the bit rate's tolerance lie below the model (log 29). -/

namespace Sys2Proof.Machine

/-- The CRC of awl frames over bytes, each from its most significant bit down (R485). -/
def awlCrc (l : List (BitVec 8)) : BitVec 16 := crcReg 0x1021#16 0xFFFF#16 (l.flatMap fun b => bitsDown b.toNat 8)

/-- A response frame. -/
def awlFrame (code : Nat) (data : List (BitVec 32)) : List (BitVec 8) :=
  let body := BitVec.ofNat 8 (16 * code) :: data.flatMap fun w => beBytes 4 w.toNat
  0x9B#8 :: body ++ beBytes 2 (awlCrc body).toNat

/-- A request as decoded: write, PEEK, address, the number of data words and the words of a write. -/
structure AwlReq where
  wr : Bool
  peek : Bool
  addr : BitVec 48
  n : Nat
  data : List (BitVec 32)

/-- The request that a frame spells; none where it is answered FRAME (R486). -/
def awlRequest (l : List (BitVec 8)) : Option AwlReq :=
  let hdr := l.getD 1 0
  let n := bits hdr 4 0 + 1
  let cmd := bits hdr 7 6
  let addr := BitVec.ofNat 48 (fieldBE l 2 6)
  let len := if cmd = 1 then 10 + 4 * n else 10
  let aligned := !(aSpace addr == 1 || aSpace addr == 2) || (addr.toNat % 8 == 0 && n % 2 == 0)
  if l.getD 0 0 = 0x9B#8 ∧ cmd < 2 ∧ l.length = len ∧ fieldBE l (len - 2) 2 = (awlCrc ((l.drop 1).take (len - 3))).toNat ∧
      aligned = true then
    some { wr := cmd == 1, peek := hdr.getLsbD 5, addr := addr, n := n,
           data := (piecesOf 4 (if cmd = 1 then n else 0) (l.drop 8)).map fun p => BitVec.ofNat 32 (beNat p) }
  else none

/-- An awl request under way: the state, the accesses made, the code of the first that was not OK, whether it waits, the words read, the
response that came through a remote window, and the slot of a request that has just gone to one. -/
structure AwlRun where
  s : State
  n : Nat
  code : Nat
  wait : Bool
  out : List (BitVec 32)
  ans : Option Packet
  sent : Option Nat

namespace State

variable (s : State)

/-- A request of the DM (R275, R486). The extent of a register or of a bank word is checked for the data flit that holds it. -/
def dmPacket (wr peek : Bool) (a : BitVec 48) : Packet :=
  let hbm := aSpace a == 2
  let unit := if aSpace a = 0 then 4 else 8
  let a' := if !hbm && a.toNat % unit == 0 then BitVec.ofNat 48 (a.toNat / 32 * 32) else a
  { dx := 0, dy := 0, sx := dmNode % 10, sy := dmNode / 10, mid := 0, ctx := 0,
    cmd := (if hbm then 2 else 0) + b2n wr, cls := 2, len := if hbm && !wr then 0 else 1, slot := 0, gen := 0, addr := a',
    resp := 0, peek := peek, q := false, be := 0xFF, data := [] }

/-- One register or word is read or written: the state, the words read, and whether an uncorrected error was met. l says what the
check bits say of the word read, or of the burst that a write of an HBM word reads (R245). A write to HBM sets no UNBAR (log 95). -/
def dmServe (wr peek : Bool) (a : BitVec 48) (v : BitVec 64) (l : List EccAt) : State × List (BitVec 32) × Bool :=
  let halves := fun (w : BitVec 64) => [w.setWidth 32, w.extractLsb' 32 32]
  let e := eccOf l 0
  match aSpace a with
  | 0 =>
    match s.destOf a with
    | some n =>
      let k := 0x100000 * n + aOff a
      if wr then (s.writeReg .debug k (v.setWidth 32), [], false) else (s.readEffect k peek, [s.view k], false)
    | none => (s, [], false)
  | 1 =>
    match (s.destOf a).bind (fun n => tileAt (n % 10) (n / 10)) with
    | some t =>
      let b := aBank a
      if wr then
        let s := s.setSpWord t b (aWord a) 0xFF v
        (if s.bankOwn t b = 1 then s.loss 1 else s, [], false)
      else (s.bankRead t b (aWord a) 1 e, halves (eccWord e (s.spWord t b (aWord a))), anyUe l 1)
    | none => (s, [], false)
  | _ =>
    let x := aHbm a
    if wr then (s.hbmWriteNow x (bytesOf 8 v.toNat) l, [], false)
    else
      let r := s.hbmReadNow x 1 1 l
      (r.1, r.2.1.flatMap halves, r.2.2)

/-- The request of one register through a remote window goes out under a slot, when one is free (R325). -/
def dmRemote (pk : Packet) (k : Nat) : State :=
  (s.setMaster dmNode 0 { s.master dmNode 0 with last := none }).request dmNode 0 { pk with slot := k }

end State

/-- Whether the request goes on. -/
def AwlRun.on (x : AwlRun) : Bool := x.code == 0 && !x.wait

/-- The access of an awl request to a register in a remote window (R325): its request goes out, or its response has come. -/
def AwlRun.remote (x : AwlRun) (pk : Packet) (key : Nat) : AwlRun :=
  match x.ans with
  | some r =>
    { x with n := x.n + 1, ans := none, code := r.resp,
             out := if pk.cmd = 0 ∧ (r.resp = 0 ∨ r.resp = 5) then x.out ++ [State.flitReg (r.data.getD 0 0) (key % 32 / 4)] else x.out }
  | none =>
    match x.s.freeSlot dmNode 0 with
    | some k => { x with s := x.s.dmRemote pk k, wait := true, sent := some k }
    | none => { x with wait := true }

/-- The next access of an awl request. A frozen interface holds it until its timer expires (R283); stop names the access that
the network answers with a code, and the code. -/
def AwlRun.access (x : AwlRun) (wr peek : Bool) (stop : Option (Nat × Nat)) (a : BitVec 48) (v : BitVec 64) (e : List EccAt) : AwlRun :=
  if !x.on then x
  else
    let pk := State.dmPacket wr peek a
    let hit := match stop with
      | some (i, c) => if i = x.n ∧ 1 ≤ c ∧ c ≤ 7 then c else 0
      | none => 0
    let serve := fun (s : State) =>
      let s := match (s.destOf a).bind (fun n => tileAt (n % 10) (n / 10)) with
        | some t => if aSpace a = 2 then s else s.rangeUnits t pk false
        | none => s
      let r := s.dmServe wr peek a v e
      { x with s := r.1, n := x.n + 1, out := x.out ++ r.2.1, code := if r.2.2 then 5 else 0 : AwlRun }
    let key := 0x100000 * (x.s.destOf a).getD 0 + aOff a
    if x.ans.isSome then x.remote (State.regPacket .debug key wr peek (v.setWidth 32)) key
    else if hit ≠ 0 then { x with code := hit }
    else if (x.s.master dmNode 0).frozen then { x with code := 4 }
    else if aSpace a = 0 ∧ (x.s.destOf a).any (fun n => State.isRemote n pk) = true ∧ State.formatCause pk = 0 ∧
        x.s.contextCause pk = 0 then
      x.remote (State.regPacket .debug key wr peek (v.setWidth 32)) key
    else
      match x.s.engMeets pk with
      | 0 => serve x.s
      | 8 => { x with wait := true }
      | 9 =>
        match (x.s.destOf a).bind State.domainOf with
        | some k => serve (x.s.cancelDown k)
        | none => x
      | m =>
        if m < 8 then { x with code := m }
        else if m < 32 then { x with s := x.s.violate dmNode 0 pk (m - 16), code := 4 }
        else
          let s := x.s.recordViolation dmNode 0 pk (m - 32) (x.s.destOf a)
          { x with s := s.setMaster dmNode 0 { s.master dmNode 0 with frozen := true, bad := some (State.respOf pk dmNode 6 []) },
                   code := 4 }

namespace State

variable (s : State)

/-- Whether a request is one to the DM's own window, which is served inside the DM (R488). -/
def awlInside (r : AwlReq) : Bool :=
  aSpace r.addr == 0 && aPh r.addr && aX r.addr == 0 && aY r.addr == 9 && bits r.addr 36 20 == 0 && aOff r.addr % 4 == 0 &&
    decide (aOff r.addr + 4 * r.n ≤ 0x100000)

/-- Whether a locked port serves a register of the DM window (R489). -/
def awlOpen (o : Nat) : Bool := o == 0x20 || decide (0x40 ≤ o ∧ o < 0x84)

/-- The request served inside the DM. -/
def dmInside (r : AwlReq) : State × List (BitVec 32) :=
  let k := 0x100000 * dmNode + aOff r.addr
  if r.wr then (r.data.zipIdx.foldl (fun (s : State) p => s.writeReg .debug (k + 4 * p.2) p.1) s, [])
  else
    let q := readRegs k r.peek r.n s
    (q.2, q.1)

/-- The accesses of a request in order, from the first that is not made yet: registers one by one, bank and HBM words as two data
words each (R486). -/
def dmAccesses (r : AwlReq) (ecc : List EccAt) (stop : Option (Nat × Nat)) (start : AwlRun) : AwlRun :=
  let wide := aSpace r.addr == 1 || aSpace r.addr == 2
  let count := if wide then r.n / 2 else r.n
  ((List.range count).drop start.n).foldl (fun (x : AwlRun) i =>
    let a := r.addr + BitVec.ofNat 48 ((if wide then 8 else 4) * i)
    let v : BitVec 64 := if wide then r.data.getD (2 * i + 1) 0 ++ r.data.getD (2 * i) 0 else (r.data.getD i 0).setWidth 64
    x.access r.wr r.peek stop a v (eccFrom ecc (if r.wr then 4 * i else i))) start

/-- Where an awl frame stands (log 29): at its first access, or where its access through a remote window left it; one whose response
has not come waits, and one whose response the frozen interface keeps has timed out. -/
def awlStart (frame : List (BitVec 8)) : AwlRun :=
  let m := s.master dmNode 0
  match s.pkg.awlPart with
  | some y =>
    if y.frame ≠ frame then { s := s, n := 0, code := 0, wait := false, out := [], ans := none, sent := none }
    else
      let x : AwlRun := { s := s, n := y.done, code := 0, wait := false, out := y.out, ans := none, sent := none }
      if (tget (fun _ => Slot.empty) m.slots y.slot).req.isSome then { x with wait := true, sent := some y.slot }
      else match m.last with
        | some p => if p.slot = y.slot then { x with ans := some p } else { x with code := 4 }
        | none => { x with code := 4 }
  | none => { s := s, n := 0, code := 0, wait := false, out := [], ans := none, sent := none }

/-- The device answers on the wire. -/
def awlAnswer (rate code : Nat) (data : List (BitVec 32)) : State :=
  let s := s.setFld Reg.dbgAwl 23 16 rate
  { s with pkg := { s.pkg with awlOut := awlFrame code data, awlWant := none, awlPart := none } }

/-- An awl frame arrives at a rate in Mbit/s. A request that waits for a domain or a lock changes nothing but that it waits, and one
whose access through a remote window is under way goes on from there; the
words of a read after one with an uncorrected error are not stated (log 29). -/
def awlServe (wr : Bool) (frame : List (BitVec 8)) (rate : Nat) (ecc : List EccAt) (stop : Option (Nat × Nat)) : State :=
  if s.inReset || !s.pkg.vaon then s
  else
    match awlRequest frame with
    | none => (s.count Reg.dbgAwl 15 0 1).awlAnswer rate 9 []
    | some r =>
      if r.wr != wr then s
      else if s.awlLocked && !(awlInside r && (List.range r.n).all fun i => awlOpen (aOff r.addr + 4 * i)) then s.awlAnswer rate 8 []
      else if awlInside r then
        let q := s.dmInside r
        q.1.awlAnswer rate 0 q.2
      else
        let x := dmAccesses r ecc stop (s.awlStart frame)
        match x.sent with
        | some k => { x.s with pkg := { x.s.pkg with awlWant := none, awlPart := some ⟨frame, x.n, x.out, k⟩ } }
        | none =>
        if x.wait then
          let want := (s.destOf r.addr).bind fun n => s.needsDomain n (dmPacket wr false r.addr)
          { s with pkg := { s.pkg with awlWant := want } }
        else if !wr && (x.code == 0 || x.code == 5) then
          let fill := (List.range (r.n - x.out.length)).map fun i => (Config.freeValue (x.s.free + i)).setWidth 32
          ({ x.s with free := x.s.free + fill.length }).awlAnswer rate x.code (x.out ++ fill)
        else x.s.awlAnswer rate x.code []

end State

/-- AWL_READ (R486). -/
def execAwlRead (frame : List (BitVec 8)) (rate : Nat) (ecc : List EccAt) (stop : Option (Nat × Nat)) (s : State) : Out :=
  .next (s.awlServe false frame rate ecc stop)

/-- AWL_WRITE (R486). -/
def execAwlWrite (frame : List (BitVec 8)) (rate : Nat) (c : AwlCourse) (s : State) : Out :=
  .next (s.awlServe true frame rate c.ecc c.stop)

end Sys2Proof.Machine
end

