-- ==== Sys2Proof/Machine/Dispatch.lean ====
section
/-! DEFINITION. One arm for each command: the effect of the command on everything but the queue. -/

namespace Sys2Proof.Machine

def exec (i : Instr) (s : State) : Host.Outcome State Fault Refusal :=
  match i with
  | .clusterStep t row col ue => Sys2Proof.Machine.execClusterStep t row col ue s
  | .turnToStep t row col ue => Sys2Proof.Machine.execTurnToStep t row col ue s
  | .laneByteArrival t row col pos err => Sys2Proof.Machine.execLaneByteArrival t row col pos err s
  | .laneStagePass lane stage err => Sys2Proof.Machine.execLaneStagePass lane stage err s
  | .mergeTake lane err flip => Sys2Proof.Machine.execMergeTake lane err flip s
  | .localMidnight => Sys2Proof.Machine.execLocalMidnight s
  | .midnightRelease waitNs => Sys2Proof.Machine.execMidnightRelease waitNs s
  | .seqFaultWrite v => Sys2Proof.Machine.execSeqFaultWrite v s
  | .seqRateWindow whole => Sys2Proof.Machine.execSeqRateWindow whole s
  | .seqCycleLoRead peek => Sys2Proof.Machine.execSeqCycleLoRead peek s
  | .rcFieldRead key peek => Sys2Proof.Machine.execRcFieldRead key peek s
  | .registerWrite who key v => Sys2Proof.Machine.execRegisterWrite who key v s
  | .cluAccessStart who t row col v => Sys2Proof.Machine.execCluAccessStart who t row col v s
  | .cluAccessComplete t row col => Sys2Proof.Machine.execCluAccessComplete t row col s
  | .wuAccessStart who t row col pw v => Sys2Proof.Machine.execWuAccessStart who t row col pw v s
  | .wuAccessComplete t row col pw => Sys2Proof.Machine.execWuAccessComplete t row col pw s
  | .bankGrant t bank ecc => Sys2Proof.Machine.execBankGrant t bank ecc s
  | .hbmResponseArrival idx => Sys2Proof.Machine.execHbmResponseArrival idx s
  | .portSideDeliver port lane => Sys2Proof.Machine.execPortSideDeliver port lane s
  | .mergeAccessStart who t v => Sys2Proof.Machine.execMergeAccessStart who t v s
  | .mergeAccessComplete t => Sys2Proof.Machine.execMergeAccessComplete t s
  | .bankHandoverStart who t bank v => Sys2Proof.Machine.execBankHandoverStart who t bank v s
  | .bankHandoverFence t bank => Sys2Proof.Machine.execBankHandoverFence t bank s
  | .bankHandoverDrained t bank => Sys2Proof.Machine.execBankHandoverDrained t bank s
  | .bankHandoverCleared t bank => Sys2Proof.Machine.execBankHandoverCleared t bank s
  | .scratchpadNocAccess node idx ecc => Sys2Proof.Machine.execScratchpadNocAccess node idx ecc s
  | .bankScrubRead t bank ecc => Sys2Proof.Machine.execBankScrubRead t bank ecc s
  | .hbmRequestArrival mc r => Sys2Proof.Machine.execHbmRequestArrival mc r s
  | .hbmCommandSelect mc pch dt => Sys2Proof.Machine.execHbmCommandSelect mc pch dt s
  | .pageIdleExpiry mc pch bank => Sys2Proof.Machine.execPageIdleExpiry mc pch bank s
  | .perBankRefreshDue mc pch bank trate => Sys2Proof.Machine.execPerBankRefreshDue mc pch bank trate s
  | .refreshWindowEnd mc pch bank => Sys2Proof.Machine.execRefreshWindowEnd mc pch bank s
  | .hbmParityRetry mc idx => Sys2Proof.Machine.execHbmParityRetry mc idx s
  | .hbmScrubRead mc pch ecc => Sys2Proof.Machine.execHbmScrubRead mc pch ecc s
  | .migrationStart mc v => Sys2Proof.Machine.execMigrationStart mc v s
  | .migrationAbort mc v => Sys2Proof.Machine.execMigrationAbort mc v s
  | .migrationBlockCopy mc ecc => Sys2Proof.Machine.execMigrationBlockCopy mc ecc s
  | .mcInitDone mc geom ok lrep => Sys2Proof.Machine.execMcInitDone mc geom ok lrep s
  | .mcWake mc => Sys2Proof.Machine.execMcWake mc s
  | .mcWakeReady mc => Sys2Proof.Machine.execMcWakeReady mc s
  | .mcWakeTimeout mc => Sys2Proof.Machine.execMcWakeTimeout mc s
  | .routerForward idx err => Sys2Proof.Machine.execRouterForward idx err s
  | .nocRequestSend node mid req => Sys2Proof.Machine.execNocRequestSend node mid req s
  | .rd node idx ecc => Sys2Proof.Machine.execRd node idx ecc s
  | .wr node idx ecc => Sys2Proof.Machine.execWr node idx ecc s
  | .rdw node idx ecc => Sys2Proof.Machine.execRdw node idx ecc s
  | .wrw node idx ecc => Sys2Proof.Machine.execWrw node idx ecc s
  | .lrd node idx ecc => Sys2Proof.Machine.execLrd node idx ecc s
  | .lwr node idx ecc => Sys2Proof.Machine.execLwr node idx ecc s
  | .unlk node idx => Sys2Proof.Machine.execUnlk node idx s
  | .resp idx => Sys2Proof.Machine.execResp idx s
  | .evt idx => Sys2Proof.Machine.execEvt idx s
  | .nocRequestTimeout node mid slot => Sys2Proof.Machine.execNocRequestTimeout node mid slot s
  | .slotReuseTimeout node mid slot => Sys2Proof.Machine.execSlotReuseTimeout node mid slot s
  | .lockIdleExpiry node => Sys2Proof.Machine.execLockIdleExpiry node s
  | .nocUnfreezeMaster v => Sys2Proof.Machine.execNocUnfreezeMaster v s
  | .nocUnfreezeAll v => Sys2Proof.Machine.execNocUnfreezeAll v s
  | .pwrDownRequest who dom v => Sys2Proof.Machine.execPwrDownRequest who dom v s
  | .pwrOnRequest who dom v => Sys2Proof.Machine.execPwrOnRequest who dom v s
  | .pointOfNoReturn dom => Sys2Proof.Machine.execPointOfNoReturn dom s
  | .domainOff dom => Sys2Proof.Machine.execDomainOff dom s
  | .domainWake dom => Sys2Proof.Machine.execDomainWake dom s
  | .domainOn dom => Sys2Proof.Machine.execDomainOn dom s
  | .domainWakeTimeout dom => Sys2Proof.Machine.execDomainWakeTimeout dom s
  | .duskFence dom => Sys2Proof.Machine.execDuskFence dom s
  | .duskDrainComplete dom => Sys2Proof.Machine.execDuskDrainComplete dom s
  | .selfRefreshEntry mc => Sys2Proof.Machine.execSelfRefreshEntry mc s
  | .duskOff dom => Sys2Proof.Machine.execDuskOff dom s
  | .portSignalDetect p => Sys2Proof.Machine.execPortSignalDetect p s
  | .portTrainComplete p pass => Sys2Proof.Machine.execPortTrainComplete p pass s
  | .portTrainTimeout p pass => Sys2Proof.Machine.execPortTrainTimeout p pass s
  | .laneLossOfLock p lane => Sys2Proof.Machine.execLaneLossOfLock p lane s
  | .farEndRetrain e => Sys2Proof.Machine.execFarEndRetrain e s
  | .lnkRetrain p v => Sys2Proof.Machine.execLnkRetrain p v s
  | .codewordReceive p outcome flits => Sys2Proof.Machine.execCodewordReceive p outcome flits s
  | .flitSend p => Sys2Proof.Machine.execFlitSend p s
  | .replayTimeout p => Sys2Proof.Machine.execReplayTimeout p s
  | .token p => Sys2Proof.Machine.execToken p s
  | .halt p => Sys2Proof.Machine.execHalt p s
  | .resume p => Sys2Proof.Machine.execResume p s
  | .credit p => Sys2Proof.Machine.execCredit p s
  | .nak p => Sys2Proof.Machine.execNak p s
  | .probe p => Sys2Proof.Machine.execProbe p s
  | .preply p => Sys2Proof.Machine.execPreply p s
  | .claim p => Sys2Proof.Machine.execClaim p s
  | .explore p => Sys2Proof.Machine.execExplore p s
  | .report p => Sys2Proof.Machine.execReport p s
  | .unclaim p => Sys2Proof.Machine.execUnclaim p s
  | .probeTimeout p => Sys2Proof.Machine.execProbeTimeout p s
  | .discoveryStart v => Sys2Proof.Machine.execDiscoveryStart v s
  | .epochSwitch v => Sys2Proof.Machine.execEpochSwitch v s
  | .fabricPacketRoute p idx => Sys2Proof.Machine.execFabricPacketRoute p idx s
  | .holdNack p idx => Sys2Proof.Machine.execHoldNack p idx s
  | .remoteRequest p idx => Sys2Proof.Machine.execRemoteRequest p idx s
  | .remoteRequestArrive p => Sys2Proof.Machine.execRemoteRequestArrive p s
  | .loadStart w => Sys2Proof.Machine.execLoadStart w s
  | .loadHeader r => Sys2Proof.Machine.execLoadHeader r s
  | .frameRead r => Sys2Proof.Machine.execFrameRead r s
  | .loadCleanDone => Sys2Proof.Machine.execLoadCleanDone s
  | .loadAbort v => Sys2Proof.Machine.execLoadAbort v s
  | .erase v => Sys2Proof.Machine.execErase v s
  | .write v => Sys2Proof.Machine.execWrite v s
  | .commit v => Sys2Proof.Machine.execCommit v s
  | .verify v => Sys2Proof.Machine.execVerify v s
  | .ident v => Sys2Proof.Machine.execIdent v s
  | .storeOperationDone ok e => Sys2Proof.Machine.execStoreOperationDone ok e s
  | .bootSelectWrite v => Sys2Proof.Machine.execBootSelectWrite v s
  | .storePatrolRead slot block relocate => Sys2Proof.Machine.execStorePatrolRead slot block relocate s
  | .dawnLockWaitEnd => Sys2Proof.Machine.execDawnLockWaitEnd s
  | .dawnLockTimeout pcie ports => Sys2Proof.Machine.execDawnLockTimeout pcie ports s
  | .dawnRelease => Sys2Proof.Machine.execDawnRelease s
  | .dawnGo v => Sys2Proof.Machine.execDawnGo v s
  | .dawnRetry v => Sys2Proof.Machine.execDawnRetry v s
  | .regionDrainDone t => Sys2Proof.Machine.execRegionDrainDone t s
  | .regionSwap t => Sys2Proof.Machine.execRegionSwap t s
  | .weltEmit t lane => Sys2Proof.Machine.execWeltEmit t lane s
  | .weltDiscard t lane => Sys2Proof.Machine.execWeltDiscard t lane s
  | .weltRecordRead t v => Sys2Proof.Machine.execWeltRecordRead t v s
  | .taskSubmit who v => Sys2Proof.Machine.execTaskSubmit who v s
  | .taskCancel v => Sys2Proof.Machine.execTaskCancel v s
  | .taskAck v => Sys2Proof.Machine.execTaskAck v s
  | .taskDueTick us => Sys2Proof.Machine.execTaskDueTick us s
  | .taskStart e => Sys2Proof.Machine.execTaskStart e s
  | .copy e ecc stop => Sys2Proof.Machine.execCopy e ecc stop s
  | .fill e stop => Sys2Proof.Machine.execFill e stop s
  | .force e stop => Sys2Proof.Machine.execForce e stop s
  | .peek e stop => Sys2Proof.Machine.execPeek e stop s
  | .checkpoint e ecc stop => Sys2Proof.Machine.execCheckpoint e ecc stop s
  | .restore e ecc stop => Sys2Proof.Machine.execRestore e ecc stop s
  | .regionLoad e => Sys2Proof.Machine.execRegionLoad e s
  | .triggerArm e => Sys2Proof.Machine.execTriggerArm e s
  | .hostNotify e => Sys2Proof.Machine.execHostNotify e s
  | .taskEnd e => Sys2Proof.Machine.execTaskEnd e s
  | .ttCycleEvaluate => Sys2Proof.Machine.execTtCycleEvaluate s
  | .stimulusWrite who v => Sys2Proof.Machine.execStimulusWrite who v s
  | .stimulusDelivery p => Sys2Proof.Machine.execStimulusDelivery p s
  | .streamEnable n v => Sys2Proof.Machine.execStreamEnable n v s
  | .streamDisable n v => Sys2Proof.Machine.execStreamDisable n v s
  | .ringWrite n e => Sys2Proof.Machine.execRingWrite n e s
  | .ringWriteRepeat n => Sys2Proof.Machine.execRingWriteRepeat n s
  | .traceFifoRead n r => Sys2Proof.Machine.execTraceFifoRead n r s
  | .traceRdWrite n v => Sys2Proof.Machine.execTraceRdWrite n v s
  | .awlReset => Sys2Proof.Machine.execAwlReset s
  | .awlRead frame rate ecc stop => Sys2Proof.Machine.execAwlRead frame rate ecc stop s
  | .awlWrite frame rate c => Sys2Proof.Machine.execAwlWrite frame rate c s
  | .authNewChallenge rnd => Sys2Proof.Machine.execAuthNewChallenge rnd s
  | .authCheck => Sys2Proof.Machine.execAuthCheck s
  | .fuseProgram who v => Sys2Proof.Machine.execFuseProgram who v s
  | .fuseProgramDone => Sys2Proof.Machine.execFuseProgramDone s
  | .dmUnfreeze v => Sys2Proof.Machine.execDmUnfreeze v s
  | .dbgHalt v => Sys2Proof.Machine.execDbgHalt v s
  | .dbgHaltnow v => Sys2Proof.Machine.execDbgHaltnow v s
  | .dbgResume v => Sys2Proof.Machine.execDbgResume v s
  | .dbgStep v => Sys2Proof.Machine.execDbgStep v s
  | .dbgCycle v => Sys2Proof.Machine.execDbgCycle v s
  | .dbgCancel v => Sys2Proof.Machine.execDbgCancel v s
  | .haltPointReached => Sys2Proof.Machine.execHaltPointReached s
  | .haltLockBreak => Sys2Proof.Machine.execHaltLockBreak s
  | .haltComplete => Sys2Proof.Machine.execHaltComplete s
  | .stallWatchdogExpiry => Sys2Proof.Machine.execStallWatchdogExpiry s
  | .wdgKick v => Sys2Proof.Machine.execWdgKick v s
  | .heartbeatExpiry => Sys2Proof.Machine.execHeartbeatExpiry s
  | .sampleInstant e => Sys2Proof.Machine.execSampleInstant e s
  | .cadenceTick => Sys2Proof.Machine.execCadenceTick s
  | .cadenceLockLoss => Sys2Proof.Machine.execCadenceLockLoss s
  | .cadenceRelock => Sys2Proof.Machine.execCadenceRelock s
  | .vccoOutOfWindow bank vsense => Sys2Proof.Machine.execVccoOutOfWindow bank vsense s
  | .vccoReturn bank vsense => Sys2Proof.Machine.execVccoReturn bank vsense s
  | .recDirWrite v => Sys2Proof.Machine.execRecDirWrite v s
  | .modeApply v acks => Sys2Proof.Machine.execModeApply v acks s
  | .pmLimitCheck power temp acks => Sys2Proof.Machine.execPmLimitCheck power temp acks s
  | .economyCheck => Sys2Proof.Machine.execEconomyCheck s
  | .idlePassDue => Sys2Proof.Machine.execIdlePassDue s
  | .hostPass v => Sys2Proof.Machine.execHostPass v s
  | .cobblerPassDone failing f => Sys2Proof.Machine.execCobblerPassDone failing f s
  | .sprMark v => Sys2Proof.Machine.execSprMark v s
  | .ledgerReadMark v => Sys2Proof.Machine.execLedgerReadMark v s
  | .powerOnReset => Sys2Proof.Machine.execPowerOnReset s
  | .powerOnResetEnd e => Sys2Proof.Machine.execPowerOnResetEnd e s
  | .undervoltage rail => Sys2Proof.Machine.execUndervoltage rail s
  | .overTemperature sensor reading => Sys2Proof.Machine.execOverTemperature sensor reading s
  | .perst => Sys2Proof.Machine.execPerst s
  | .smbStatus link => Sys2Proof.Machine.execSmbStatus link s
  | .smbResetCause => Sys2Proof.Machine.execSmbResetCause s
  | .smbFuses => Sys2Proof.Machine.execSmbFuses s
  | .smbGrade => Sys2Proof.Machine.execSmbGrade s
  | .smbVcoreVoltage rail mv => Sys2Proof.Machine.execSmbVcoreVoltage rail mv s
  | .smbVcoreCurrent rail amps => Sys2Proof.Machine.execSmbVcoreCurrent rail amps s
  | .smbDieTemp temp => Sys2Proof.Machine.execSmbDieTemp temp s
  | .smbHbmTemp temp => Sys2Proof.Machine.execSmbHbmTemp temp s
  | .smbPower watts => Sys2Proof.Machine.execSmbPower watts s
  | .awlResetEnd => Sys2Proof.Machine.execAwlResetEnd s
  | .ssTickLoRead peek => Sys2Proof.Machine.execSsTickLoRead peek s
  | .stackRailLoss mc => Sys2Proof.Machine.execStackRailLoss mc s
  | .inputEdge pin level time => Sys2Proof.Machine.execInputEdge pin level time s
  | .cadenceClockFall => Sys2Proof.Machine.execCadenceClockFall s
  | .vcoreRampDone rail => Sys2Proof.Machine.execVcoreRampDone rail s
  | .vaonRise straps => Sys2Proof.Machine.execVaonRise straps s
  | .vaonLoss => Sys2Proof.Machine.execVaonLoss s

end Sys2Proof.Machine
end

