-- ==== Sys2Proof/Safety.lean ====
section
/-! DEFINITION. What claims mean by a safe state, by the canonical form of a state, and by "nothing else changes". -/

namespace Sys2Proof.Machine.State

/-- No fault has stopped the run, and the stall watchdog has not (R26, R503). -/
def notStopped (s : State) : Bool := !s.seq.faulted && !s.seq.stalled

/-- No master interface is frozen (R282). -/
def noneFrozen (s : State) : Bool := s.masters.all fun e => !e.2.frozen

/-- The promise of R37 stands: no bit of SEQ_LOSS is set (R38). -/
def promiseKept (s : State) : Bool := s.reg Reg.seqLoss == 0

/-- A state in which the run goes on as the image says. -/
def safe (s : State) : Bool := s.notStopped && s.noneFrozen && s.promiseKept

/-- The memories and the register table are in canonical form: keys strictly rising, nothing listed that an unlisted key
reads as. -/
def Canonical (s : State) : Prop :=
  Memory.wf s.spad = true ∧ Memory.wf s.hbm = true ∧ twf resetWord 0 s.regs = true

/-- No register changes from s to t but those listed. -/
def RegsKept (s t : State) (ks : List Nat) : Prop := ∀ k, k ∉ ks → t.reg k = s.reg k

/-- No bit of register k changes from s to t but bits [hi:lo]. -/
def BitsKept (s t : State) (k hi lo : Nat) : Prop := ∀ i, i < lo ∨ hi < i → t.flag k i = s.flag k i

/-- From s to t nothing changes but registers, and of these only those listed. -/
def OnlyRegs (s t : State) (ks : List Nat) : Prop := t = { s with regs := t.regs } ∧ s.RegsKept t ks

/-- From s to t nothing changes but bits [hi:lo] of register k. -/
def OnlyField (s t : State) (k hi lo : Nat) : Prop := s.OnlyRegs t [k] ∧ s.BitsKept t k hi lo

/-- Every byte of the scratchpads and of the HBM reads in t as in s. -/
def MemoryKept (s t : State) : Prop :=
  (∀ a, Memory.get t.spad a = Memory.get s.spad a) ∧ ∀ a, Memory.get t.hbm a = Memory.get s.hbm a

/-- Nothing enters or leaves the network from s to t but EVT messages of the device's own units (R291). -/
def NetKept (s t : State) : Prop := ∃ l, t.net = s.net ++ l ∧ ∀ f ∈ l, f.pk.cmd = 8

/-- No master interface changes from s to t but that of a node and MID. -/
def MastersKept (s t : State) (node mid : Nat) : Prop :=
  ∀ k, k ≠ 1024 * node + mid → tget (fun _ => Master.empty) t.masters k = tget (fun _ => Master.empty) s.masters k

/-- No bank's book-keeping changes from s to t but that of bank b of tile t0. -/
def BanksKept (s t : State) (t0 b : Nat) : Prop :=
  ∀ k, k ≠ 16 * t0 + b → tget (fun _ => Bank.empty) t.banks k = tget (fun _ => Bank.empty) s.banks k

/-- No cluster changes from s to t but cluster c of tile t0. -/
def ClustersKept (s t : State) (t0 c : Nat) : Prop :=
  ∀ k, k ≠ 72 * t0 + c → tget (fun _ => Cluster.empty) t.clus k = tget (fun _ => Cluster.empty) s.clus k

/-- No output lane changes from s to t but those listed by key. -/
def LanesKept (s t : State) (ks : List Nat) : Prop :=
  ∀ k, k ∉ ks → tget (fun _ => Lane.empty) t.lanes k = tget (fun _ => Lane.empty) s.lanes k

/-- No port bridge changes from s to t but that of port p. -/
def PortsKept (s t : State) (p : Nat) : Prop :=
  ∀ q, q ≠ p → tget (fun _ => Port.empty) t.ports q = tget (fun _ => Port.empty) s.ports q

end Sys2Proof.Machine.State
end

