-- ==== Sys2Proof/WellFormed.lean ====
section
/-! DEFINITION. Which commands are well formed: every operand names something that the spec gives the block. What an
operand within these bounds names may still be absent, or in no state to act; then the command changes nothing (log 2). -/

namespace Sys2Proof.WellFormed

/-- A tile by its domain index (R6, R285). -/
def tileOk (t : Nat) : Bool := decide (t < 64)

/-- A physical cluster of a tile: 9 rows of 8 (R7). -/
def cluOk (t row col : Nat) : Bool := tileOk t && decide (row < 9) && decide (col < 8)

/-- A physical word unit of a cluster (R102). -/
def wuOk (w : Nat) : Bool := decide (w < 5)

/-- A scratchpad bank of a tile (R205). -/
def bankOk (b : Nat) : Bool := decide (b < 16)

/-- An HBM controller (R237). -/
def mcOk (m : Nat) : Bool := decide (m < 6)

/-- A pseudo-channel of a stack (R237). -/
def pchOk (k : Nat) : Bool := decide (k < 64)

/-- A bank of a pseudo-channel, as the model numbers them: 6 bits (R238, R246). -/
def hbmBankOk (b : Nat) : Bool := decide (b < 64)

/-- A port of the fabric (R301). -/
def portOk (p : Nat) : Bool := decide (p < 8)

/-- A stimulus port of the trace engine (R463). -/
def stimOk (p : Nat) : Bool := decide (p < 32)

/-- A lane of a scheduled link as its receiver numbers them (R313). -/
def linkLaneOk (l : Nat) : Bool := decide (l < 128)

/-- A serial lane of a port, the two spares included (R302). -/
def serialLaneOk (l : Nat) : Bool := decide (l < 18)

/-- A power domain (R285). -/
def domOk (k : Nat) : Bool := decide (k < 81)

/-- An engine of the service scheduler (R432). -/
def engineOk (e : Nat) : Bool := decide (e < 16)

/-- A trace stream (R466). -/
def streamOk (n : Nat) : Bool := decide (n < 8)

/-- A node of the network as 10 * y + x (R262). -/
def nodeOk (n : Nat) : Bool := decide (n < 100)

/-- A master of a node (R275). -/
def midOk (m : Nat) : Bool := decide (m < 1024)

/-- A transaction slot: TAG[213:208] (R281). -/
def slotOk (k : Nat) : Bool := decide (k < 64)

/-- A target pin (R516). -/
def pinOk (p : Nat) : Bool := decide (p < 640)

/-- A lane position of a cluster (R20, R75). -/
def posOk (j : Nat) : Bool := decide (j < 4)

/-- A place of a chain of stages (R158). -/
def stageOk (i : Nat) : Bool := decide (i < 20)

/-- A welt lane: 36 on each of the four sides at the most (R411). -/
def weltOk (i : Nat) : Bool := decide (i < 144)

/-- A temperature sensor: 64 tiles, 6 stacks (R581). -/
def sensorOk (k : Nat) : Bool := decide (k < 70)

/-- A VCORE rail (R572). -/
def vcoreOk (k : Nat) : Bool := decide (k < 4)

/-- A rail that the device watches: VCORE0 to VCORE3, VSRAM, VAON (R575). -/
def watchedOk (k : Nat) : Bool := decide (k < 6)

/-- The SMBus address straps (R580). -/
def strapsOk (k : Nat) : Bool := decide (k < 4)

/-- The BAR0 offset of a register: a 32-bit word of one of the 100 nodes (R271). -/
def keyOk (k : Nat) : Bool := decide (k < 100 * 0x100000) && decide (k % 4 = 0)

/-- An erase block of a region of the store (R350, R353): slots A, B, G0 and G1, then the directory, the device record and the
repair map with their copies. -/
def blockOk (region block : Nat) : Bool :=
  decide (region < 7) && decide (block < if region < 2 then 6144 else if region < 4 then 64 else if region < 6 then 2 else 3)

/-- A physical erase block of the store (R350, R389). -/
def storeBlockOk (b : Nat) : Bool := decide (b < 31915)

/-- A row of an HBM bank (R237, R253). -/
def rowRepairOk (r : RowRepair) : Bool := mcOk r.stack && pchOk r.pch && hbmBankOk r.bank && decide (r.row < 16384)

/-- A writer of a register: an engine it names is one of the 16. -/
def whoOk : Who → Bool
  | .engine e => engineOk e
  | _ => true

/-- An output lane (R152). -/
def laneIdOk (l : LaneId) : Bool :=
  decide (l.kind < 5) && cluOk l.tile l.row l.col && decide (l.out < 16) && decide (l.lane < 256)

/-- The soft errors a step meets: stores of CLU_ACC_CTRL, units and entries within them (R83, R96). -/
def sramOk (l : List SramErr) : Bool := l.all fun e => decide (e.store < 16) && decide (e.unit < 68) && decide (e.entry < 1024)

/-- A request frame of the awl as it comes over the wire: SYNC, HDR, ADDR, up to 32 data words, CRC (R485). -/
def frameOk (f : List (BitVec 8)) : Bool := decide (f.length ≤ 138)

/-- A request that a master hands over: its fields fit the header flit (R272). -/
def packetOk : Option Packet → Bool
  | none => true
  | some p => decide (p.dx < 16) && decide (p.dy < 16) && decide (p.sx < 16) && decide (p.sy < 16) && midOk p.mid &&
      decide (p.cmd < 16) && slotOk p.slot

end Sys2Proof.WellFormed

open Sys2Proof.WellFormed in
/-- Whether a command is well formed. -/
def Sys2Proof.Instr.wf : Sys2Proof.Instr → Bool
  | .clusterStep t row col ue => cluOk t row col && sramOk ue
  | .turnToStep t row col ue => cluOk t row col && sramOk ue
  | .laneByteArrival t row col pos _ => cluOk t row col && posOk pos
  | .laneStagePass lane stage _ => laneIdOk lane && stageOk stage
  | .mergeTake lane _ _ => laneIdOk lane
  | .localMidnight => true
  | .midnightRelease _ => true
  | .seqFaultWrite _ => true
  | .seqRateWindow _ => true
  | .seqCycleLoRead _ => true
  | .rcFieldRead key _ => keyOk key
  | .registerWrite who key _ => whoOk who && keyOk key
  | .cluAccessStart who t row col _ => cluOk t row col && whoOk who
  | .cluAccessComplete t row col => cluOk t row col
  | .wuAccessStart who t row col pw _ => cluOk t row col && whoOk who && wuOk pw
  | .wuAccessComplete t row col pw => cluOk t row col && wuOk pw
  | .bankGrant t bank _ => tileOk t && bankOk bank
  | .hbmResponseArrival _ => true
  | .portSideDeliver port lane => portOk port && linkLaneOk lane
  | .mergeAccessStart who t _ => whoOk who && tileOk t
  | .mergeAccessComplete t => tileOk t
  | .bankHandoverStart who t bank _ => whoOk who && tileOk t && bankOk bank
  | .bankHandoverFence t bank => tileOk t && bankOk bank
  | .bankHandoverDrained t bank => tileOk t && bankOk bank
  | .bankHandoverCleared t bank => tileOk t && bankOk bank
  | .scratchpadNocAccess node _ _ => nodeOk node
  | .bankScrubRead t bank _ => tileOk t && bankOk bank
  | .hbmRequestArrival mc _ => mcOk mc
  | .hbmCommandSelect mc pch _ => mcOk mc && pchOk pch
  | .pageIdleExpiry mc pch bank => mcOk mc && pchOk pch && hbmBankOk bank
  | .perBankRefreshDue mc pch bank _ => mcOk mc && pchOk pch && hbmBankOk bank
  | .refreshWindowEnd mc pch bank => mcOk mc && pchOk pch && hbmBankOk bank
  | .hbmParityRetry mc _ => mcOk mc
  | .hbmScrubRead mc pch _ => mcOk mc && pchOk pch
  | .migrationStart mc _ => mcOk mc
  | .migrationAbort mc _ => mcOk mc
  | .migrationBlockCopy mc _ => mcOk mc
  | .mcInitDone mc _ _ _ => mcOk mc
  | .mcWake mc => mcOk mc
  | .mcWakeReady mc => mcOk mc
  | .mcWakeTimeout mc => mcOk mc
  | .routerForward _ _ => true
  | .nocRequestSend node mid req => nodeOk node && midOk mid && packetOk req
  | .rd node _ _ => nodeOk node
  | .wr node _ _ => nodeOk node
  | .rdw node _ _ => nodeOk node
  | .wrw node _ _ => nodeOk node
  | .lrd node _ _ => nodeOk node
  | .lwr node _ _ => nodeOk node
  | .unlk node _ => nodeOk node
  | .resp _ => true
  | .evt _ => true
  | .nocRequestTimeout node mid slot => nodeOk node && midOk mid && slotOk slot
  | .slotReuseTimeout node mid slot => nodeOk node && midOk mid && slotOk slot
  | .lockIdleExpiry node => nodeOk node
  | .nocUnfreezeMaster _ => true
  | .nocUnfreezeAll _ => true
  | .pwrDownRequest who dom _ => whoOk who && domOk dom
  | .pwrOnRequest who dom _ => whoOk who && domOk dom
  | .pointOfNoReturn dom => domOk dom
  | .domainOff dom => domOk dom
  | .domainWake dom => domOk dom
  | .domainOn dom => domOk dom
  | .domainWakeTimeout dom => domOk dom
  | .duskFence dom => domOk dom
  | .duskDrainComplete dom => domOk dom
  | .selfRefreshEntry mc => mcOk mc
  | .duskOff dom => domOk dom
  | .portSignalDetect p => portOk p
  | .portTrainComplete p _ => portOk p
  | .portTrainTimeout p _ => portOk p
  | .laneLossOfLock p lane => portOk p && serialLaneOk lane
  | .farEndRetrain e => portOk e.port
  | .lnkRetrain p _ => portOk p
  | .codewordReceive p _ _ => portOk p
  | .flitSend p => portOk p
  | .replayTimeout p => portOk p
  | .token p => portOk p
  | .halt p => portOk p
  | .resume p => portOk p
  | .credit p => portOk p
  | .nak p => portOk p
  | .probe p => portOk p
  | .preply p => portOk p
  | .claim p => portOk p
  | .explore p => portOk p
  | .report p => portOk p
  | .unclaim p => portOk p
  | .probeTimeout p => portOk p
  | .discoveryStart _ => true
  | .epochSwitch _ => true
  | .fabricPacketRoute p _ => portOk p
  | .holdNack p _ => portOk p
  | .remoteRequest p _ => portOk p
  | .remoteRequestArrive p => portOk p
  | .loadStart _ => true
  | .loadHeader _ => true
  | .frameRead _ => true
  | .loadCleanDone => true
  | .loadAbort _ => true
  | .erase _ => true
  | .write _ => true
  | .commit _ => true
  | .verify _ => true
  | .ident _ => true
  | .storeOperationDone _ e => e.bad.all storeBlockOk
  | .bootSelectWrite _ => true
  | .storePatrolRead slot block _ => blockOk slot block
  | .dawnLockWaitEnd => true
  | .dawnLockTimeout _ _ => true
  | .dawnRelease => true
  | .dawnGo _ => true
  | .dawnRetry _ => true
  | .regionDrainDone t => tileOk t
  | .regionSwap t => tileOk t
  | .weltEmit t lane => tileOk t && weltOk lane
  | .weltDiscard t lane => tileOk t && weltOk lane
  | .weltRecordRead t _ => tileOk t
  | .taskSubmit who _ => whoOk who
  | .taskCancel _ => true
  | .taskAck _ => true
  | .taskDueTick _ => true
  | .taskStart e => engineOk e
  | .copy e _ _ => engineOk e
  | .fill e _ => engineOk e
  | .force e _ => engineOk e
  | .peek e _ => engineOk e
  | .checkpoint e _ _ => engineOk e
  | .restore e _ _ => engineOk e
  | .regionLoad e => engineOk e
  | .triggerArm e => engineOk e
  | .hostNotify e => engineOk e
  | .taskEnd e => engineOk e
  | .ttCycleEvaluate => true
  | .stimulusWrite who _ => whoOk who
  | .stimulusDelivery p => stimOk p.port
  | .streamEnable n _ => streamOk n
  | .streamDisable n _ => streamOk n
  | .ringWrite n _ => streamOk n
  | .ringWriteRepeat n => streamOk n
  | .traceFifoRead n _ => streamOk n
  | .traceRdWrite n _ => streamOk n
  | .awlReset => true
  | .awlRead frame _ _ _ => frameOk frame
  | .awlWrite frame _ _ => frameOk frame
  | .authNewChallenge _ => true
  | .authCheck => true
  | .fuseProgram who _ => whoOk who
  | .fuseProgramDone => true
  | .dmUnfreeze _ => true
  | .dbgHalt _ => true
  | .dbgHaltnow _ => true
  | .dbgResume _ => true
  | .dbgStep _ => true
  | .dbgCycle _ => true
  | .dbgCancel _ => true
  | .haltPointReached => true
  | .haltLockBreak => true
  | .haltComplete => true
  | .stallWatchdogExpiry => true
  | .wdgKick _ => true
  | .heartbeatExpiry => true
  | .sampleInstant _ => true
  | .cadenceTick => true
  | .cadenceLockLoss => true
  | .cadenceRelock => true
  | .vccoOutOfWindow bank _ => bankOk bank
  | .vccoReturn bank _ => bankOk bank
  | .recDirWrite _ => true
  | .modeApply _ _ => true
  | .pmLimitCheck _ _ _ => true
  | .economyCheck => true
  | .idlePassDue => true
  | .hostPass _ => true
  | .cobblerPassDone _ f => f.blocks.all (fun b => decide (b < 31744)) && f.rows.all rowRepairOk
  | .sprMark _ => true
  | .ledgerReadMark _ => true
  | .powerOnReset => true
  | .powerOnResetEnd _ => true
  | .undervoltage rail => watchedOk rail
  | .overTemperature sensor _ => sensorOk sensor
  | .perst => true
  | .smbStatus _ => true
  | .smbResetCause => true
  | .smbFuses => true
  | .smbGrade => true
  | .smbVcoreVoltage rail _ => vcoreOk rail
  | .smbVcoreCurrent rail _ => vcoreOk rail
  | .smbDieTemp _ => true
  | .smbHbmTemp _ => true
  | .smbPower _ => true
  | .awlResetEnd => true
  | .ssTickLoRead _ => true
  | .stackRailLoss mc => mcOk mc
  | .inputEdge pin _ _ => pinOk pin
  | .cadenceClockFall => true
  | .vcoreRampDone rail => vcoreOk rail
  | .vaonRise straps => strapsOk straps
  | .vaonLoss => true
end

