-- ==== Sys2Proof/Certificates/Slice0/Obligations.lean ====
section
/-! DEFINITION. The statements for the provers. Each docstring names the rules of spec/ that it formalises; where a clause rests on a
choice of the model, it names the log entry. -/

open Sys2Proof Sys2Proof.Machine

/-! ### The block and its queue -/

/-- Log 1, log 14: the step of a state whose queue is not empty is exec of the command in front, on the state with the rest
of the queue; an empty queue leaves the block idle (the model's choice). -/
def Obligations.StepRunsTheFrontCommand : Prop :=
  (∀ (c : Instr) (q : List Instr) (s : State), s.pending = c :: q → step s = exec c { s with pending := q }) ∧
  ∀ s : State, s.pending = [] → step s = .next s

/-- A command never ends the run: exec answers a next state for every command in every state (log 2). -/
def Obligations.EveryCommandAnswersANextState : Prop :=
  ∀ (c : Instr) (s : State), ∃ t, exec c s = .next t

/-- No command touches the queue of those that wait behind it (log 1). -/
def Obligations.NoCommandTouchesTheQueue : Prop :=
  ∀ (c : Instr) (s t : State), exec c s = .next t → t.pending = s.pending

/-- Every step keeps both memories and the register table in canonical form: a byte or a register has one home, and a value
that an unlisted key reads as is not listed (log 5). -/
def Obligations.EveryStepKeepsTheCanonicalForm : Prop :=
  ∀ s t : State, s.Canonical → step s = .next t → t.Canonical

/-- The canonical form holds right after reset. -/
def Obligations.ResetIsCanonical : Prop := State.reset.Canonical

/-- What reset leaves (R8, R51, R448): every register its Reset value, no command, no packet, no EVT, no vector raised, no task,
no engine at work, every domain ON, no interface frozen, no run, the first cycle 0. -/
def Obligations.ResetState : Prop :=
  (∀ k, State.reset.reg k = resetWord k) ∧ State.reset.pending = [] ∧ State.reset.net = [] ∧ State.reset.evts = [] ∧
  State.reset.msix = 0 ∧ State.reset.seq.cycle = 0 ∧ State.reset.seq.run = false ∧ State.reset.seqState = 0 ∧
  (∀ e, e < 16 → State.reset.engBusy e = false) ∧ (∀ d, d < 1024 → State.reset.dState d = 0) ∧
  (∀ k, k < 81 → State.reset.domState k = 2) ∧ (∀ node mid, (State.reset.master node mid).frozen = false)

/-! ### The sequencer -/

/-- LOCAL_MIDNIGHT, MIDNIGHT_RELEASE (R27 steps 3, 5 and 6, R33, R36, R47): once every participating tile is done, the device stands
at its midnight, with the count, the clusters, the lanes and the memories as they were, and the samples of the cycle go to the
target interface and, while it is on, to the trace engine. With no hold in force the count goes on by one modulo 2^48, its parity
alternates, the device leaves the midnight, no cluster is done, every participating tile has eight steps more, and SEQ_WAIT is the
longest wait. A hold in force keeps the device at its midnight. -/
def Obligations.MidnightStandsAndReleases : Prop :=
  ∀ s : State, s.seq.faulted = false → s.seq.stalled = false →
    (s.seq.run = true → s.seq.midnight = false → s.tilesDone = true →
      ∃ t, exec .localMidnight s = .next t ∧ t.seq.midnight = true ∧ t.seq.cycle = s.seq.cycle ∧ t.seq.run = true ∧
        t.tio.instant = false ∧ t.tio.chans = s.cycleChans ∧ t.clus = s.clus ∧ t.lanes = s.lanes ∧ s.MemoryKept t ∧
        t.tt.buf.map (·.cyc) = s.tt.buf.map (·.cyc) ++ (if s.domState 78 = 2 ∨ s.domState 78 = 3 then [s.seq.cycle] else []) ∧
        (s.seq.neigh = [] → s.seq.tokOut = [] → t = { s with seq := t.seq, tio := t.tio, tt := t.tt, tiles := t.tiles, regs := t.regs } ∧
          s.RegsKept t [Reg.tioCadStat])) ∧
    ∀ w : Nat, s.seq.midnight = true →
      (s.seqHold = 0 →
        ∃ t, exec (.midnightRelease w) s = .next t ∧ t.seq.cycle = s.seq.cycle + 1 ∧ t.par = !s.par ∧
          t.seq.midnight = false ∧ (∀ e ∈ t.clus, e.2.done = false) ∧ t.lanes = s.lanes ∧ s.MemoryKept t ∧
          t.reg Reg.seqWait = BitVec.ofNat 32 (max (s.reg Reg.seqWait).toNat (min w (2 ^ 32 - 1))) ∧
          ∀ k, k < 64 → t.stepsOf k = s.stepsOf k + if s.tileActive k then 8 else 0) ∧
      (s.seqHold ≠ 0 → exec (.midnightRelease w) s = .next s)

/-- SEQ_FAULT_WRITE, SEQ_RATE_WINDOW, SEQ_CYCLE_LO_READ (R45, R47, R48): ones clear the fault bits, with the last of them the rest of
the register, and UE ends its hold; at the end of a window of 1,024 µs that lay whole within the time since the device reset the rate is the steps of the slowest participating tile by
1,024, rounded down and at most 65,535 (the model's choice, log 75), and every tile counts anew; a read answers the low word and,
but for a peek, latches the high one. Nothing else changes. A write or read is made at once where nothing keeps it waiting
(State.regNow). -/
def Obligations.SequencerRegisterCommands : Prop :=
  (∀ (s : State) (v : BitVec 32), s.regNow .host Reg.seqFault true false v = true → ∃ t, exec (.seqFaultWrite v) s = .next t ∧
    t = { s with regs := t.regs, seq := t.seq } ∧ s.RegsKept t [Reg.seqFault] ∧
    t.seq = { s.seq with uePend := s.seq.uePend && !v.getLsbD 5 } ∧
    (∀ i, i < 6 → t.flag Reg.seqFault i = (s.flag Reg.seqFault i && !v.getLsbD i)) ∧
    ∀ i, 6 ≤ i → i < 32 → t.flag Reg.seqFault i = (s.flag Reg.seqFault i && decide (t.fld Reg.seqFault 5 0 ≠ 0))) ∧
  (∀ s : State, exec (.seqRateWindow false) s = .next { s with steps := [] }) ∧
  (∀ s : State, ∃ t, exec (.seqRateWindow true) s = .next t ∧ t = { s with regs := t.regs, steps := [] } ∧
    s.RegsKept t [Reg.seqRate] ∧
    (∀ k, k < 64 → s.tileActive k = true → (t.reg Reg.seqRate).toNat ≤ s.stepsOf k / 1024) ∧
    (∀ k, k < 64 → s.tileActive k = true → (∀ j, j < 64 → s.tileActive j = true → s.stepsOf k ≤ s.stepsOf j) →
      t.reg Reg.seqRate = BitVec.ofNat 32 (min 65535 (s.stepsOf k / 1024))) ∧
    ((∀ k, k < 64 → s.tileActive k = false) → t.reg Reg.seqRate = 0)) ∧
  (∀ (s : State) (peek : Bool), s.regNow .host Reg.seqCycleLo false peek 0 = true →
    ∃ t, exec (.seqCycleLoRead peek) s = .next t ∧ t.bus = s.seq.cycle.setWidth 32 ∧
    t = { s with regs := t.regs, bus := t.bus } ∧ s.RegsKept t (if peek then [] else [Reg.seqCycleHi]) ∧
    (peek = false → t.reg Reg.seqCycleHi = BitVec.ofNat 32 (s.seq.cycle.toNat / 2 ^ 32)))

/-! ### Clusters -/

/-- TURN_TO_STEP (R22, R82, R103, R122): a cluster in the wave that nothing holds fetches its lane-table entry and the words its WUs
issue, soft errors of the stores included. With every parity right, or its error reported, and every head read of the right tag,
the cluster has turned: it holds the words fetched and presents the scratchpad requests of LD and ST; no other cluster, no lane and
no byte of memory changes, and without a soft error nothing but this cluster. A wrong lane-table entry, or else a wrong WU word,
stops the cluster and the run: CLU_FAULT.IPAR, SEQ_FAULT.IPAR. A wrong head stops them too: CLU_FAULT.SCHED, SEQ_FAULT.SCHED. -/
def Obligations.ClusterTurnsToItsStep : Prop :=
  ∀ (s : State) (t row col : Nat) (ue : List SramErr), t < 64 → row < 9 → col < 8 →
    let c := 8 * row + col
    let x := s.clu t c
    let tab := x.laneAt x.step ^^^ (sramFlip ue 6 0 x.step).setWidth 24
    let tabOk := oddOk tab || sramReported ue 6 0 x.step
    s.inWave t c x = true → x.turned = false → s.runHeld t c x = false →
    (tabOk = true → wuParityFault x ue = none → headFault (x.turnedTo ue) (stepTag s.seq.cycle x.step) = none →
      ∃ s', exec (.turnToStep t row col ue) s = .next s' ∧ (ue = [] → s' = { s with clus := s'.clus }) ∧
        s.ClustersKept s' t c ∧ s.MemoryKept s' ∧ s'.lanes = s.lanes ∧
        (s'.clu t c).turned = true ∧ (s'.clu t c).laneWord = tab ∧ (s'.clu t c).step = x.step ∧
        (s'.clu t c).flop = x.flop ∧ (s'.clu t c).res = x.res ∧
        ∀ w, w < 5 → ((s'.clu t c).wu w).word = wuFetch x ue w ∧
          (((x.wu w).sp = none ∨ ∃ r, (x.wu w).sp = some r ∧ r.granted = false) →
            ((s'.clu t c).wu w).sp = (wuFetch x ue w).bind (spOf (x.wu w)))) ∧
    (tabOk = false →
      ∃ s', exec (.turnToStep t row col ue) s = .next s' ∧ s'.clu t c = { x with faulted := true } ∧
        s'.flag (Reg.cluFault t c) 29 = true ∧ s'.flag Reg.seqFault 3 = true ∧ s'.seq.faulted = true ∧
        s.ClustersKept s' t c ∧ s.MemoryKept s') ∧
    (∀ pw k, tabOk = true → wuParityFault x ue = some (pw, k) →
      ∃ s', exec (.turnToStep t row col ue) s = .next s' ∧ s'.clu t c = { x with faulted := true } ∧
        s'.flag (Reg.cluFault t c) 29 = true ∧ s'.flag Reg.seqFault 3 = true ∧ s'.seq.faulted = true ∧
        s.ClustersKept s' t c ∧ s.MemoryKept s') ∧
    ∀ j g, tabOk = true → wuParityFault x ue = none → headFault (x.turnedTo ue) (stepTag s.seq.cycle x.step) = some (j, g) →
      ∃ s', exec (.turnToStep t row col ue) s = .next s' ∧ s'.clu t c = { x.turnedTo ue with faulted := true } ∧
        s'.flag (Reg.cluFault t c) 31 = true ∧ s'.flag Reg.seqFault 0 = true ∧ s'.seq.faulted = true ∧
        s.ClustersKept s' t c ∧ s.MemoryKept s'

/-- CLUSTER_STEP (R15, R21, R53, R57, R60, R68, R75, R82, R104, R145): a turned cluster that waits on nothing, whose heads are right and
whose comparators and BP words do not stop it, executes its step. The queues read lose their heads; each lane position written holds
the byte with the tag of the step, advanced by the out stage; each HBM request pushed waits at its WU's interface. After a step
other than the last, every BP's result and capture stand in its stores at the step, a latch takes the result of a word with FF = 1,
and every WU has executed. After the last step the cluster has committed: it is done and at step 0, the results and captures are gone, every flop
of a slot below L whose word has FF = 1 takes its latch, the other flops stay, every WU has committed; a lane-byte of the cycle's
parity left in a queue is an orphan fault. Other clusters and lanes and every byte of memory stay.
A wrong BP word stops the cluster and the run. A cluster that still waits on a condition stays as it is, and notes it; one that is not in the wave does nothing. -/
def Obligations.ClusterStepAndCommit : Prop :=
  ∀ (s : State) (t row col : Nat) (ue : List SramErr), t < 64 → row < 9 → col < 8 →
    let c := 8 * row + col
    let x := s.clu t c
    let e := s.bpEnv t c x ue
    let h := if x.compared then s else s.stepCmps t c x.step
    let cast := BitVec.ofNat 64 (castWord x e 64)
    let wuAfter := fun (pw : Nat) => wuStep (x.wu pw) x.step (s.mullat t c pw) cast e.lanes (xgetPeer x (s.wuSkip t c) (x.wu pw))
    let queue := fun (j : Nat) => if ird x.laneWord j then (x.queue j).drop 1 else x.queue j
    let latch := fun (p k : Nat) => if k = x.step ∧ bpLatches x e p = true then bpResult x e p else (rowOf x.latch p).getLsbD k
    (s.mayStep t c x = true → headFault x (stepTag s.seq.cycle x.step) = none → h.runHeld t c x = false → x.step < 1024 →
      (bpParityFault x e = none →
        ∃ s', exec (.clusterStep t row col ue) s = .next s' ∧
          (∀ j, j < 4 → (s'.clu t c).queue j = queue j) ∧ (s'.clu t c).turned = false ∧
          (∀ j, j < 4 → owr x.laneWord j = true → (s'.lane (outLane t c j)).place 0 =
            some { b := advance (mkLaneByte (stepTag s.seq.cycle x.step) (laneData x e (s.wuSkip t c) j)),
                   eye := 0, waited := false }) ∧
          (∀ pw, pw < 5 → (s'.master (tileNode t) (State.wuMid c pw)).want = (s.master (tileNode t) (State.wuMid c pw)).want ++
            match (x.wu pw).word with
            | some w => if (wOp w = 0x38 ∨ wOp w = 0x39) ∧ ((x.wu pw).queue (wCc w % 2)).length < 16 then
                [s.wuPacket t c pw (x.wu pw) w] else []
            | none => []) ∧
          s.ClustersKept s' t c ∧ s.LanesKept s' (((List.range 4).filter (owr x.laneWord)).map fun j => laneKey (outLane t c j)) ∧
          s.MemoryKept s' ∧
          (x.step + 1 ≠ s.len →
            (s'.clu t c).step = x.step + 1 ∧ (s'.clu t c).done = x.done ∧ (s'.clu t c).flop = x.flop ∧ s'.seq.faulted = s.seq.faulted ∧
            (∀ p, p < 68 → (rowOf (s'.clu t c).res p).getLsbD x.step = bpResult x e p ∧
              (rowOf (s'.clu t c).resW p).getLsbD x.step = true ∧
              (rowOf (s'.clu t c).cap p).getLsbD x.step = bpCapture x e p ∧ (s'.clu t c).prev.getLsbD p = bpResult x e p ∧
              ∀ k, k < 1024 → (rowOf (s'.clu t c).latch p).getLsbD k = latch p k) ∧
            ∀ pw, pw < 5 → (s'.clu t c).wu pw = wuAfter pw) ∧
          (x.step + 1 = s.len →
            (s'.clu t c).done = true ∧ (s'.clu t c).step = 0 ∧ (s'.clu t c).res = [] ∧ (s'.clu t c).cap = [] ∧
            (∀ p k, p < 68 → k < 1024 → (rowOf (s'.clu t c).flop p).getLsbD k =
              if k < s.len ∧ (x.insAt p k).getLsbD 8 = true then latch p k else (rowOf x.flop p).getLsbD k) ∧
            (∀ pw, pw < 5 → (s'.clu t c).wu pw = (wuAfter pw).commit x.step) ∧
            ((∀ j, j < 4 → ∀ b ∈ queue j, b.getLsbD 11 ≠ s.par) → s'.seq.faulted = s.seq.faulted ∧ (s'.clu t c).faulted = x.faulted) ∧
            ((∃ j, j < 4 ∧ ∃ b ∈ queue j, b.getLsbD 11 = s.par) → s'.seq.faulted = true ∧ (s'.clu t c).faulted = true ∧
              s'.flag (Reg.cluFault t c) 30 = true ∧ s'.flag Reg.seqFault 1 = true))) ∧
      (∀ p, bpParityFault x e = some p →
        ∃ s', exec (.clusterStep t row col ue) s = .next s' ∧ (s'.clu t c).faulted = true ∧ (s'.clu t c).step = x.step ∧
          s'.flag (Reg.cluFault t c) 29 = true ∧ s'.flag Reg.seqFault 3 = true ∧ s'.seq.faulted = true ∧
          s.ClustersKept s' t c ∧ s'.lanes = s.lanes ∧ s.MemoryKept s')) ∧
    (s.inWave t c x = true → s.mayStep t c x = false →
      (x.turned = false ∨ s.runHeld t c x = true ∨ headFault x (stepTag s.seq.cycle x.step) = none) →
      ∃ s', exec (.clusterStep t row col ue) s = .next s' ∧ s' = { s with clus := s'.clus } ∧ s.ClustersKept s' t c ∧
        s'.clu t c = { x with waited := x.waited ||| s.waits t c x }) ∧
    (s.inWave t c x = false → exec (.clusterStep t row col ue) s = .next s)

/-- R57, R81, R108: outside MUXC mode the result of a BP is bit 64 + A + 2B + 4C + 8D of its word. On n bits, ADD and ADC give the sum
modulo 2^n and carry out of it, SUB and SBB the difference modulo 2^n and the borrow. -/
def Obligations.BpResultIsTheTableBit : Prop :=
  (∀ (x : Cluster) (e : BpEnv) (p : Nat), (bpWord x e p).getLsbD 7 = false →
    bpResult x e p = (bpWord x e p).getLsbD (64 + b2n (bpOperand x e p 0) + 2 * b2n (bpOperand x e p 1) +
      4 * b2n (bpOperand x e p 2) + 8 * b2n (bpOperand x e p 3))) ∧
  ∀ (u : Wu) (w : BitVec 128) (lat : Nat) (cast peer got popped : BitVec 64) (lanes : List (Option (BitVec 8))),
    let n := wWidth w
    let a := (u.reg (wRa w)).toNat % 2 ^ n
    let b := (wOperandB u w).toNat % 2 ^ n
    let k := b2n u.c
    let r := wuResult u w lat cast lanes peer got popped
    (wOp w = 1 → ∃ v, r.val = some v ∧ v.toNat < 2 ^ n ∧ r.carry = some (decide (2 ^ n ≤ a + b)) ∧
      (v.toNat : Int) = a + b - 2 ^ n * b2n (decide (2 ^ n ≤ a + b))) ∧
    (wOp w = 2 → ∃ v, r.val = some v ∧ v.toNat < 2 ^ n ∧ r.carry = some (decide (2 ^ n ≤ a + b + k)) ∧
      (v.toNat : Int) = a + b + k - 2 ^ n * b2n (decide (2 ^ n ≤ a + b + k))) ∧
    (wOp w = 3 → ∃ v, r.val = some v ∧ v.toNat < 2 ^ n ∧ r.carry = some (decide (a < b)) ∧
      (v.toNat : Int) = a - b + 2 ^ n * b2n (decide (a < b))) ∧
    (wOp w = 4 → ∃ v, r.val = some v ∧ v.toNat < 2 ^ n ∧ r.carry = some (decide (a < b + k)) ∧
      (v.toNat : Int) = a - b - k + 2 ^ n * b2n (decide (a < b + k)))

/-! ### Lanes -/

/-- LANE_STAGE_PASS (R146, R155, R166, R172): into the next place, free and open, of a lane: a counted stage passes a byte of odd parity
with ST one higher modulo 8, CP and data unchanged and P regenerated; one of even parity it does not pass, and raises the lane parity fault; an
uncounted eyelet changes no bit. With no such place the byte stays; at a gateway's link output it counts once in LINKWAIT. -/
def Obligations.StagePassesALaneByte : Prop :=
  ∀ (s : State) (l : LaneId) (i : Nat) (h : Held) (err : LaneByte), WellFormed.laneIdOk l = true →
    (s.lane l).place i = some h →
    let b0 := h.b ^^^ err
    let opened := i + 1 < s.chainLen l ∧ (s.lane l).place (i + 1) = none ∧ (s.lane l).closedAt (i + 1) = false
    let uncounted := i + 1 < eyelets l ∧ h.eye ≤ i + 1
    (opened → ¬ uncounted → oddOk b0 = true →
      ∃ t, exec (.laneStagePass l i err) s = .next t ∧ t = { s with lanes := t.lanes } ∧ s.LanesKept t [laneKey l] ∧
        (t.lane l).place i = none ∧ ∃ b, (t.lane l).place (i + 1) = some { h with b := b } ∧ oddOk b = true ∧
          bits b 10 8 = (bits b0 10 8 + 1) % 8 ∧ b.getLsbD 11 = b0.getLsbD 11 ∧
          b.extractLsb' 0 8 = b0.extractLsb' 0 8) ∧
    (opened → ¬ uncounted → oddOk b0 = false →
      ∃ t, exec (.laneStagePass l i err) s = .next t ∧ (t.lane l).place i = some h ∧ (t.lane l).place (i + 1) = none ∧
        (t.lane l).closedAt (i + 1) = true ∧ t.flag (Reg.tileLfault l.tile) 31 = true ∧ t.flag Reg.seqFault 4 = true ∧
        s.MemoryKept t) ∧
    (opened → uncounted →
      ∃ t, exec (.laneStagePass l i err) s = .next t ∧ t = { s with lanes := t.lanes } ∧ s.LanesKept t [laneKey l] ∧
        (t.lane l).place i = none ∧ (t.lane l).place (i + 1) = some { h with b := b0 }) ∧
    (¬ opened →
      ∃ t, exec (.laneStagePass l i err) s = .next t ∧ t = { s with lanes := t.lanes, regs := t.regs } ∧
        s.LanesKept t [laneKey l] ∧ s.RegsKept t [Reg.tileGwwait l.tile] ∧
        (t.lane l).place i = some { h with waited := h.waited || decide (l.kind = 2) } ∧
        t.fld (Reg.tileGwwait l.tile) 31 16 =
          if l.kind = 2 ∧ h.waited = false ∧ 8 ≤ l.out ∧ l.out ≤ 11 then min (s.fld (Reg.tileGwwait l.tile) 31 16 + 1) 65535
          else s.fld (Reg.tileGwwait l.tile) 31 16)

/-- MERGE_TAKE (R150, R151, R155, R166, R412): a lane with room takes the head of the input that its current merge entry names into its
first place, through the first eyelet if that counts, and stands at the next entry; the welt that the byte passes records or counts
it. A merge entry of even parity, or a byte of even parity that a counted place checks, raises the lane parity fault and nothing is
taken. PORT_SIDE_DELIVER (R162): the head of a link lane goes to its port-side lane with ST advanced by P, CP and data unchanged; its
credit returns when the port gateway takes it (R307). LANE_BYTE_ARRIVAL (R20, R22): the lane-byte in the last place of a router's
output joins the tail of the arrival queue when it has room; where it is the head a turned cluster reads and its tag is wrong, the
cluster stops; a full queue keeps it where it is. -/
def Obligations.LanesTakeFromTheirInputs : Prop :=
  (∀ (s : State) (l u : LaneId) (w : Option Nat) (h : Held) (err : LaneByte) (flip : BitVec 16),
    WellFormed.laneIdOk l = true → (l.kind = 1 ∨ l.kind = 2) →
    let x := s.lane l
    let e := x.entry x.idx ^^^ flip
    let eye := if l.kind = 1 then bits e 4 1 % 4 else bits e 4 1
    let b := h.b ^^^ err
    0 < x.n → x.place 0 = none → x.closedAt 0 = false →
    (oddOk e = false → ∃ t, exec (.mergeTake l err flip) s = .next t ∧ t.flag (Reg.tileLfault l.tile) 31 = true ∧
      t.flag Reg.seqFault 4 = true ∧ (t.lane l).place 0 = none ∧ (t.lane l).idx = x.idx ∧ s.LanesKept t [laneKey l] ∧ s.MemoryKept t) ∧
    (oddOk e = true → s.sourceOf l (bits e 15 12) (bits e 11 5) = some (u, w) →
      (s.lane u).place (s.chainLen u - 1) = some h → s.weltOpen l (bits e 15 12) = true →
      (eye = 0 ∨ oddOk b = true →
        ∃ t, exec (.mergeTake l err flip) s = .next t ∧
          t = { s with lanes := t.lanes, tiles := t.tiles, ports := t.ports } ∧
          s.LanesKept t [laneKey l, laneKey u] ∧ (t.lane u).place (s.chainLen u - 1) = none ∧
          (t.lane l).place 0 = some { b := if eye = 0 then b else advance b, eye := eye, waited := false } ∧
          (t.lane l).idx = (if x.idx + 1 < x.n then x.idx + 1 else 0) ∧
          (∀ p, u.kind = 3 → portAt u.tile = some p →
            s.PortsKept t p ∧ t.port p = { s.port p with ctrlOut := (s.port p).ctrlOut ++ [creditRecord 0 u.lane 1] }) ∧
          (u.kind ≠ 3 → t.ports = s.ports) ∧
          (match w with
            | none => t.tiles = s.tiles
            | some i => l.kind = 1 → (t.welt l.tile i).inb = (s.welt l.tile i).inb + 1) ∧
          (∀ i, w = some i → l.kind = 2 → (s.welt l.tile i).rcd.length < 1024 →
            (t.welt l.tile i).rcd = (s.welt l.tile i).rcd ++ [b.extractLsb' 0 11])) ∧
      (eye ≠ 0 → oddOk b = false →
        ∃ t, exec (.mergeTake l err flip) s = .next t ∧ t.flag (Reg.tileLfault l.tile) 31 = true ∧ t.flag Reg.seqFault 4 = true ∧
          (t.lane l).place 0 = none ∧ (t.lane u).place (s.chainLen u - 1) = some h ∧ s.MemoryKept t))) ∧
  (∀ (s : State) (t row col j : Nat) (h : Held) (err : LaneByte), t < 64 → row < 9 → col < 8 → j < 4 →
    let c := 8 * row + col
    let x := s.clu t c
    let y := x.setQueue j (x.queue j ++ [h.b ^^^ err])
    let compares := x.turned = true ∧ s.runHeld t c x = false ∧ x.queue j = []
    (s.lane (inLane t c j)).place 3 = some h →
    ((x.queue j).length < 8 → (¬ compares ∨ headFault y (stepTag s.seq.cycle x.step) = none) →
      ∃ s', exec (.laneByteArrival t row col j err) s = .next s' ∧ s' = { s with clus := s'.clus, lanes := s'.lanes } ∧
        (s'.clu t c).queue j = x.queue j ++ [h.b ^^^ err] ∧ (s'.lane (inLane t c j)).place 3 = none ∧
        (∀ i, i ≠ j → (s'.clu t c).queue i = x.queue i) ∧ (∀ i, i ≠ 3 → (s'.lane (inLane t c j)).place i =
          (s.lane (inLane t c j)).place i) ∧ s.ClustersKept s' t c ∧ s.LanesKept s' [laneKey (inLane t c j)]) ∧
    (compares → headFault y (stepTag s.seq.cycle x.step) ≠ none →
      ∃ s', exec (.laneByteArrival t row col j err) s = .next s' ∧ s'.clu t c = { y with faulted := true } ∧
        s'.flag (Reg.cluFault t c) 31 = true ∧ s'.flag Reg.seqFault 0 = true ∧ s'.seq.faulted = (s.seq.run || s.seq.faulted)) ∧
    (8 ≤ (x.queue j).length → exec (.laneByteArrival t row col j err) s = .next s)) ∧
  (∀ (s : State) (p lane : Nat) (b : LaneByte) (rest : List LaneByte), p < 8 →
    tget (fun _ => []) (s.port p).rx lane = b :: rest →
    ((s.lane (portInLane (portTile p) lane)).place 0 = none →
      ∃ t, exec (.portSideDeliver p lane) s = .next t ∧ t = { s with lanes := t.lanes, ports := t.ports } ∧
        s.LanesKept t [laneKey (portInLane (portTile p) lane)] ∧ s.PortsKept t p ∧
        t.port p = { s.port p with rx := (t.port p).rx } ∧ tget (fun _ => []) (t.port p).rx lane = rest ∧
        (∀ k, k ≠ lane → tget (fun _ => []) (t.port p).rx k = tget (fun _ => []) (s.port p).rx k) ∧
        (t.lane (portInLane (portTile p) lane)).place 0 = some
          { b := mkLaneByte (8 * b2n (b.getLsbD 11) + (bits b 10 8 + s.fld (Reg.lnkChrx p lane) 18 9) % 8)
                   (b.extractLsb' 0 8), eye := 0, waited := false }) ∧
    ((s.lane (portInLane (portTile p) lane)).place 0 ≠ none → exec (.portSideDeliver p lane) s = .next s))

/-! ### Accesses to the stores of clusters, WUs and routers -/

/-- CLU_ACCESS_START, CLU_ACCESS_COMPLETE (R60, R85, R95 to R97): an access that is allowed and meets none in progress sets BUSY and is
held with the data registers as they stand; a write while the run is live sets SEQ_LOSS.UNBAR, but that of a flop by a barrier
task. Any other sets ERR only. A write completes into the entries of the store named and no others, and changes no register but
BUSY; a read fills the data registers with the entry, or with the 32 entries of a bit store, flops reading 0 until resets are
released; BUSY clears. With no access in progress nothing completes. -/
def Obligations.ClusterStoreAccesses : Prop :=
  (∀ (s : State) (who : Who) (t row col : Nat) (v : BitVec 32), t < 64 → row < 9 → col < 8 →
    let c := 8 * row + col
    let w := setBit v 31 true
    let x := s.clu t c
    let k := Reg.cluAccStat t c
    s.regNow who (Reg.cluAccCtrl t c) true false w = true →
    (x.acc = none → s.cluAccessOk t w = true →
      ∃ s', exec (.cluAccessStart who t row col v) s = .next s' ∧ s' = { s with regs := s'.regs, clus := s'.clus } ∧
        s.RegsKept s' [Reg.cluAccCtrl t c, k, Reg.seqLoss] ∧ s.ClustersKept s' t c ∧ s'.flag k 0 = true ∧
        s'.flag Reg.seqLoss 1 = (s.flag Reg.seqLoss 1 ||
          (v.getLsbD 30 && s.liveStores t && !(bits v 29 27 == 1 && s.barrierWriter who))) ∧
        s'.clu t c = { x with acc := some { cmd := w, who := who, data :=
          ((s.reg (Reg.cluAccD2 t c) ++ s.reg (Reg.cluAccD1 t c) ++ s.reg (Reg.cluAccD0 t c)).setWidth 128) } }) ∧
    ((x.acc ≠ none ∨ s.cluAccessOk t w = false) →
      ∃ s', exec (.cluAccessStart who t row col v) s = .next s' ∧ s.OnlyRegs s' [Reg.cluAccCtrl t c, k] ∧
        s'.flag k 2 = true ∧ s'.flag k 0 = s.flag k 0)) ∧
  ∀ (s : State) (t row col : Nat), t < 64 → row < 9 → col < 8 →
    let c := 8 * row + col
    let x := s.clu t c
    let k := Reg.cluAccStat t c
    (x.acc = none → exec (.cluAccessComplete t row col) s = .next s) ∧
    ∀ a, x.acc = some a →
      let st := bits a.cmd 29 27
      let u := bits a.cmd 26 20
      let e := bits a.cmd 9 0
      let cell := fun (i : Nat) => match st with
        | 1 => s.flag Reg.dwnStat 25 && (rowOf x.flop u).getLsbD i
        | 2 => (rowOf x.latch u).getLsbD i
        | 3 => (rowOf x.res u).getLsbD i && (rowOf x.resW u).getLsbD i
        | 4 => (rowOf x.cap u).getLsbD i && (rowOf x.capW u).getLsbD i
        | _ => (rowOf x.consts u).getLsbD i
      (a.cmd.getLsbD 30 = true → ∃ s', exec (.cluAccessComplete t row col) s = .next s' ∧
        s' = { s with regs := s'.regs, clus := s'.clus } ∧ s.RegsKept s' [k] ∧ s.ClustersKept s' t c ∧ s'.flag k 0 = false ∧
        let y := s'.clu t c
        y = { x with ins := y.ins, flop := y.flop, consts := y.consts, laneTab := y.laneTab, acc := none } ∧
        (∀ p i, i < 1024 → y.insAt p i = if st = 0 ∧ p = u ∧ i = e then a.data.setWidth 80 else x.insAt p i) ∧
        (∀ p i, i < 1024 → (rowOf y.flop p).getLsbD i =
          if st = 1 ∧ p = u ∧ i / 32 = e / 32 then a.data.getLsbD (i % 32) else (rowOf x.flop p).getLsbD i) ∧
        (∀ p i, i < 512 → (rowOf y.consts p).getLsbD i =
          if st = 5 ∧ p = u ∧ i / 32 = e / 32 then a.data.getLsbD (i % 32) else (rowOf x.consts p).getLsbD i) ∧
        ∀ i, y.laneAt i = if st = 6 ∧ i = e then a.data.setWidth 24 else x.laneAt i) ∧
      (a.cmd.getLsbD 30 = false → ∃ s', exec (.cluAccessComplete t row col) s = .next s' ∧
        s' = { s with regs := s'.regs, clus := s'.clus } ∧ s.ClustersKept s' t c ∧ s'.clu t c = { x with acc := none } ∧
        s.RegsKept s' ([k, Reg.cluAccD0 t c] ++ if st = 0 then [Reg.cluAccD1 t c, Reg.cluAccD2 t c] else []) ∧ s'.flag k 0 = false ∧
        (st = 0 → (s'.reg (Reg.cluAccD2 t c) ++ s'.reg (Reg.cluAccD1 t c) ++ s'.reg (Reg.cluAccD0 t c)) =
          (x.insAt u e).setWidth 96) ∧
        (1 ≤ st → st ≤ 5 → ∀ i, i < 32 → (s'.reg (Reg.cluAccD0 t c)).getLsbD i = cell (e / 32 * 32 + i)) ∧
        (st = 6 → s'.reg (Reg.cluAccD0 t c) = (x.laneAt e).setWidth 32))

/-- WU_ACCESS_START, WU_ACCESS_COMPLETE (R139 to R141, R143): as the accesses to a cluster's stores, for the WU named: the program,
the registers, their next values, the carry and the queue entries. Registers and carry read 0 until resets are released; next
values and queues take no write. -/
def Obligations.WuStoreAccesses : Prop :=
  (∀ (s : State) (who : Who) (t row col pw : Nat) (v : BitVec 32), t < 64 → row < 9 → col < 8 → pw < 5 →
    let c := 8 * row + col
    let w := setBit v 31 true
    let u := (s.clu t c).wu pw
    let k := Reg.cluWaccStat t c pw
    s.regNow who (Reg.cluWaccCtrl t c pw) true false w = true →
    (u.acc = none → s.wuAccessOk t w = true →
      ∃ s', exec (.wuAccessStart who t row col pw v) s = .next s' ∧ s' = { s with regs := s'.regs, clus := s'.clus } ∧
        s.RegsKept s' [Reg.cluWaccCtrl t c pw, k, Reg.seqLoss] ∧ s.ClustersKept s' t c ∧ s'.flag k 0 = true ∧
        s'.flag Reg.seqLoss 1 = (s.flag Reg.seqLoss 1 ||
          (v.getLsbD 30 && s.liveStores t && !(bits v 29 27 != 0 && s.barrierWriter who))) ∧
        (∀ p, p ≠ pw → (s'.clu t c).wu p = (s.clu t c).wu p) ∧ s'.clu t c = { s.clu t c with wus := (s'.clu t c).wus } ∧
        (s'.clu t c).wu pw = { u with acc := some { cmd := w, who := who, data :=
          (s.reg (Reg.cluWaccD3 t c pw) ++ s.reg (Reg.cluWaccD2 t c pw) ++ s.reg (Reg.cluWaccD1 t c pw) ++
            s.reg (Reg.cluWaccD0 t c pw)) } }) ∧
    ((u.acc ≠ none ∨ s.wuAccessOk t w = false) →
      ∃ s', exec (.wuAccessStart who t row col pw v) s = .next s' ∧
        s.OnlyRegs s' [Reg.cluWaccCtrl t c pw, k] ∧ s'.flag k 2 = true ∧ s'.flag k 0 = s.flag k 0)) ∧
  ∀ (s : State) (t row col pw : Nat), t < 64 → row < 9 → col < 8 → pw < 5 →
    let c := 8 * row + col
    let u := (s.clu t c).wu pw
    let k := Reg.cluWaccStat t c pw
    (u.acc = none → exec (.wuAccessComplete t row col pw) s = .next s) ∧
    ∀ a, u.acc = some a →
      let st := bits a.cmd 29 27
      let e := bits a.cmd 7 0
      (a.cmd.getLsbD 30 = true → ∃ s', exec (.wuAccessComplete t row col pw) s = .next s' ∧
        s' = { s with regs := s'.regs, clus := s'.clus } ∧ s.RegsKept s' [k] ∧ s.ClustersKept s' t c ∧ s'.flag k 0 = false ∧
        s'.clu t c = { s.clu t c with wus := (s'.clu t c).wus } ∧ (∀ p, p ≠ pw → (s'.clu t c).wu p = (s.clu t c).wu p) ∧
        let y := (s'.clu t c).wu pw
        y = { u with prog := y.prog, r := y.r, c := y.c, acc := none } ∧
        (∀ i, y.progAt i = if st = 0 ∧ i = e then a.data else u.progAt i) ∧
        (∀ i, y.reg i = if st = 1 ∧ i = e then a.data.setWidth 64 else u.reg i) ∧
        y.c = if st = 3 then a.data.getLsbD 0 else u.c) ∧
      (a.cmd.getLsbD 30 = false → ∃ s', exec (.wuAccessComplete t row col pw) s = .next s' ∧
        s' = { s with regs := s'.regs, clus := s'.clus } ∧ s.ClustersKept s' t c ∧ s'.flag k 0 = false ∧
        s'.clu t c = { s.clu t c with wus := (s'.clu t c).wus } ∧ (∀ p, p ≠ pw → (s'.clu t c).wu p = (s.clu t c).wu p) ∧
        s.RegsKept s' [k, Reg.cluWaccD0 t c pw, Reg.cluWaccD1 t c pw, Reg.cluWaccD2 t c pw, Reg.cluWaccD3 t c pw] ∧
        (s'.clu t c).wu pw = { u with acc := none } ∧
        let d01 := s'.reg (Reg.cluWaccD1 t c pw) ++ s'.reg (Reg.cluWaccD0 t c pw)
        (st = 0 → s'.reg (Reg.cluWaccD3 t c pw) ++ s'.reg (Reg.cluWaccD2 t c pw) ++ d01 = u.progAt e) ∧
        (st = 1 → d01 = if s.flag Reg.dwnStat 25 then u.reg e else 0) ∧
        (st = 2 → d01 = tget (fun _ => 0) u.nx e ∧ s'.reg (Reg.cluWaccD2 t c pw) = BitVec.ofNat 32 (b2n (u.nxf.getLsbD e))) ∧
        (st = 3 → s'.reg (Reg.cluWaccD0 t c pw) = BitVec.ofNat 32 (b2n (s.flag Reg.dwnStat 25 && u.c)) ∧
          s'.reg (Reg.cluWaccD1 t c pw) = s.reg (Reg.cluWaccD1 t c pw)) ∧
        (st = 4 → ∀ q, (u.queue (e / 16 % 2))[e % 16]? = some q → d01 = q.data ∧
          s'.reg (Reg.cluWaccD2 t c pw) = BitVec.ofNat 32 (q.state * 16 + b2n q.wr)))

/-- MERGE_ACCESS_START, MERGE_ACCESS_COMPLETE (R173, R174): an access to an entry or the length of an output lane that exists sets BUSY
and is held with the data register as it stands, a write only where stores may be written and of a length up to 1,024; any
other sets ERR only. On completion a write has changed that entry or that length alone, a read has filled TILE_RACC_DATA. -/
def Obligations.MergeStoreAccesses : Prop :=
  (∀ (s : State) (who : Who) (t : Nat) (v : BitVec 32), t < 64 →
    let w := setBit v 31 true
    let data := s.reg (Reg.tileRaccData t)
    let ok := (s.tile t).racc = none ∧ (raccLane t w).isSome = true ∧ (bits v 10 0 < 1024 ∨ bits v 10 0 = 0x7FF) ∧
      (v.getLsbD 30 = true → s.codeWritable t = true ∧ ¬ (bits v 10 0 = 0x7FF ∧ 1024 < bits data 10 0))
    s.regNow who (Reg.tileRaccCtrl t) true false w = true →
    (ok → ∃ s', exec (.mergeAccessStart who t v) s = .next s' ∧ s' = { s with regs := s'.regs, tiles := s'.tiles } ∧
      s.RegsKept s' [Reg.tileRaccCtrl t, Reg.tileRaccStat t, Reg.seqLoss] ∧
      s'.flag (Reg.tileRaccStat t) 0 = true ∧
      s'.flag Reg.seqLoss 1 = (s.flag Reg.seqLoss 1 || (v.getLsbD 30 && s.seqState == 3 && !s.tileParked t)) ∧
      s'.tile t = { s.tile t with racc := some { cmd := w, who := who, data := data.setWidth 128 } } ∧
      ∀ k, k ≠ t → s'.tile k = s.tile k) ∧
    (¬ ok → ∃ s', exec (.mergeAccessStart who t v) s = .next s' ∧ s.OnlyRegs s' [Reg.tileRaccCtrl t, Reg.tileRaccStat t] ∧
      s'.flag (Reg.tileRaccStat t) 2 = true ∧ s'.flag (Reg.tileRaccStat t) 0 = s.flag (Reg.tileRaccStat t) 0)) ∧
  (∀ (s : State) (t : Nat) (a : StoreAcc) (l : LaneId), t < 64 → (s.tile t).racc = some a → raccLane t a.cmd = some l →
    let x := s.lane l
    let k := bits a.cmd 10 0
    ∃ s', exec (.mergeAccessComplete t) s = .next s' ∧
      s' = { s with regs := s'.regs, tiles := s'.tiles, lanes := s'.lanes } ∧
      s.RegsKept s' [Reg.tileRaccStat t, Reg.tileRaccData t] ∧ s.LanesKept s' [laneKey l] ∧
      s'.flag (Reg.tileRaccStat t) 0 = false ∧ s'.tile t = { s.tile t with racc := none } ∧ (∀ k, k ≠ t → s'.tile k = s.tile k) ∧
      (a.cmd.getLsbD 30 = true → k ≠ 0x7FF → s'.lane l = { x with ent := (s'.lane l).ent } ∧
        (s'.lane l).entry k = a.data.setWidth 16 ∧ ∀ i, i ≠ k → (s'.lane l).entry i = x.entry i) ∧
      (a.cmd.getLsbD 30 = true → k = 0x7FF → s'.lane l = { x with n := bits a.data 10 0 }) ∧
      (a.cmd.getLsbD 30 = true → s'.reg (Reg.tileRaccData t) = s.reg (Reg.tileRaccData t)) ∧
      (a.cmd.getLsbD 30 = false → s'.lane l = x ∧ s'.reg (Reg.tileRaccData t) =
        if k = 0x7FF then BitVec.ofNat 32 x.n else (x.entry k).setWidth 32))

/-! ### The packet network -/

/-- NOC_REQUEST_SEND (R270, R271, R275, R276, R279, R281 to R283): a request that a master hands over, the host by the offset in its
BAR, or the oldest that waits at its interface, is checked. One that passes leaves in the network under the lowest free slot, in the
slot's next generation; with no slot free it waits; an EVT leaves for HP without a slot. One whose format or context fails the checks
is recorded and freezes its interface, or ends with VIOL for a master that never freezes. One to an HBM address beyond the user
space, or to a tile that the image does not hold, ends with ERROR. A frozen interface holds it. No byte of memory changes. -/
def Obligations.RequestsAreCheckedAndSent : Prop :=
  ∀ (s : State) (node mid : Nat) (req : Option Packet) (p : Packet),
    let m := s.master node mid
    let m0 := if req = none then m.want.drop 1 else m.want
    let pk : Packet := { p with sx := node % 10, sy := node / 10, mid := mid, ctx := s.ctxOf node mid p.ctx,
                                cls := if State.serviceClass node then 2 else 0, resp := 0 }
    let passes := State.formatCause pk = 0 ∧ s.contextCause pk = 0 ∧ ¬ (aSpace pk.addr = 2 ∧ hbmTop ≤ (State.hbmSpan pk).2)
    s.mastersOn node = true → (∀ t, nodeKind node = .tile t → ∀ r, r < 8 → s.flag (Reg.dbgRuCtrl t r) 31 = false) →
    ((∃ q, req = some q ∧ s.hostMap node mid q = some p ∧ (m.want = [] ∨ m.frozen = true)) ∨
      (req = none ∧ m.want.head? = some p ∧ (s.freeSlot node mid).isSome = true)) →
    (m.frozen = true → ∃ t, exec (.nocRequestSend node mid req) s = .next t ∧ t = { s with masters := t.masters } ∧
      s.MastersKept t node mid ∧ t.master node mid = { m with want := m0, held := m.held ++ [{ req := pk, expired := false }] }) ∧
    (m.frozen = false → passes →
      (∀ d k, s.destOf pk.addr = some d → pk.cmd ≠ 8 → s.freeSlot node mid = some k →
        let g := ((tget (fun _ => Slot.empty) m.slots k).gen + 1) % 64
        let sent : Packet := { pk with slot := k, dx := d % 10, dy := d / 10, gen := g }
        ∃ t, exec (.nocRequestSend node mid req) s = .next t ∧ t = { s with net := t.net, masters := t.masters, clus := t.clus } ∧
          t.net = s.net ++ [{ pk := sent, pos := node }] ∧ s.MastersKept t node mid ∧ (t.master node mid).want = m0 ∧
          tget (fun _ => Slot.empty) (t.master node mid).slots k = { gen := sent.gen, req := some sent, late := false } ∧
          ∀ j, j ≠ k → tget (fun _ => Slot.empty) (t.master node mid).slots j = tget (fun _ => Slot.empty) m.slots j) ∧
      (∀ d, s.destOf pk.addr = some d → pk.cmd ≠ 8 → s.freeSlot node mid = none →
        ∃ t, exec (.nocRequestSend node mid req) s = .next t ∧ t = { s with masters := t.masters } ∧ s.MastersKept t node mid ∧
          t.master node mid = { m with want := m0 ++ [p] }) ∧
      (∀ d, s.destOf pk.addr = some d → pk.cmd = 8 → ∃ t, exec (.nocRequestSend node mid req) s = .next t ∧
        t = { s with net := t.net, masters := t.masters } ∧ (t.master node mid).want = m0 ∧
        t.net = s.net ++ [{ pk := { pk with dx := 0, dy := 0, cls := 2 }, pos := node }])) ∧
    (m.frozen = false → State.formatCause pk ≠ 0 ∨ s.contextCause pk ≠ 0 →
      ∃ t, exec (.nocRequestSend node mid req) s = .next t ∧ s.NetKept t ∧ s.MemoryKept t ∧
        (State.neverFreezes node mid = false → (t.master node mid).frozen = true ∧ (t.master node mid).bad.isSome = true) ∧
        (State.neverFreezes node mid = true → (t.master node mid).frozen = false ∧
          ∃ r, (t.master node mid).last = some r ∧ r.cmd = 7 ∧ r.resp = 6) ∧
        (s.ledgerRoom = true → t.reg Reg.sprLgWr = s.reg Reg.sprLgWr + 1)) ∧
    (m.frozen = false → State.formatCause pk = 0 → s.contextCause pk = 0 →
      (aSpace pk.addr = 2 ∧ hbmTop ≤ (State.hbmSpan pk).2) ∨ s.destOf pk.addr = none →
      (∀ t, nodeKind node ≠ .tile t) → (∀ p, nodeKind node ≠ .port p) → nodeKind node ≠ .tt →
      ∃ t, exec (.nocRequestSend node mid req) s = .next t ∧ t = { s with masters := t.masters } ∧ s.MastersKept t node mid ∧
        ∃ r, (t.master node mid).last = some r ∧ r.cmd = 7 ∧ r.resp = 1)

/-- ROUTER_FORWARD (R265 to R268, R287, R288, R291): a packet that none of its stream stands before at its router, and whose channel has
its turn, goes one router on, X before Y; at its destination an EVT goes to HP, a response stays for its master, and a request is
accepted, held in the endpoint queue while it has room, or answered BUSY, FENCED or ERROR, as the node's domain and lock say. A
corrected error counts; a packet with an uncorrected error is discarded, counted and recorded. A packet before which one of its
stream stands, or whose channel has not its turn, stays. -/
def Obligations.RoutersForward : Prop :=
  ∀ (s : State) (i : Nat) (f : Flight) (e : FlitErr), s.net[i]? = some f →
    let ahead := (s.net.take i).any fun g => g.pk.dx == f.pk.dx && g.pk.dy == f.pk.dy && g.pk.sx == f.pk.sx && g.pk.sy == f.pk.sy &&
      g.pk.mid == f.pk.mid && g.pk.cls == f.pk.cls && g.pos == f.pos
    let dest := 10 * f.pk.dy + f.pk.dx
    let corr := if e = .corrected then 1 else 0
    let counts := fun (t : State) => t.fld Reg.nocLink 31 16 = min (s.fld Reg.nocLink 31 16 + corr) 65535
    ((ahead = true ∨ s.channelNext (State.outOf f) f.pk.cls = false) → exec (.routerForward i e) s = .next s) ∧
    (ahead = false → s.channelNext (State.outOf f) f.pk.cls = true →
      (e ≠ .uncorrected → f.pos ≠ dest → ∃ t, exec (.routerForward i e) s = .next t ∧
        t = { s with net := t.net, chanWait := t.chanWait, regs := t.regs } ∧ s.RegsKept t [Reg.nocLink] ∧ counts t ∧
        t.net[i]? = some { pk := f.pk, pos :=
          if f.pos % 10 < f.pk.dx then f.pos + 1 else if f.pk.dx < f.pos % 10 then f.pos - 1
          else if f.pos / 10 < f.pk.dy then f.pos + 10 else if f.pk.dy < f.pos / 10 then f.pos - 10 else f.pos } ∧
        ∀ j, j ≠ i → t.net[j]? = s.net[j]?) ∧
      (e ≠ .uncorrected → f.pos = dest → f.pk.cmd = 7 → ∃ t, exec (.routerForward i e) s = .next t ∧
        s.OnlyRegs t [Reg.nocLink] ∧ counts t) ∧
      (e ≠ .uncorrected → f.pos = dest → f.pk.cmd = 8 → ∃ t, exec (.routerForward i e) s = .next t ∧
        t = { s with net := s.net.eraseIdx i, chanWait := t.chanWait, regs := t.regs,
                     evts := s.evts ++ [f.pk.addr.toNat % 256] } ∧ s.RegsKept t [Reg.nocLink] ∧ counts t) ∧
      (e ≠ .uncorrected → f.pos = dest → f.pk.cmd ≠ 7 → f.pk.cmd ≠ 8 →
        let a := s.admission dest f.pk
        ∃ t, exec (.routerForward i e) s = .next t ∧ counts t ∧ s.MemoryKept t ∧
          (a = 0 → (∀ k, nodeKind dest = .tile k → aSpace f.pk.addr = 1 → s.nocMayUse k (aBank f.pk.addr) f.pk = true) →
            t = { s with net := s.net.eraseIdx i, chanWait := t.chanWait, regs := t.regs, srv := t.srv } ∧
            s.RegsKept t [Reg.nocLink] ∧ t.srvAt dest = s.srvAt dest ++ [f.pk] ∧ ∀ n, n ≠ dest → t.srvAt n = s.srvAt n) ∧
          (a = 1 → (s.queueAt dest).length < 8 →
            t = { s with net := s.net.eraseIdx i, chanWait := t.chanWait, regs := t.regs, epq := t.epq } ∧
            s.RegsKept t [Reg.nocLink] ∧ t.queueAt dest = s.queueAt dest ++ [f.pk] ∧ ∀ n, n ≠ dest → t.queueAt n = s.queueAt n) ∧
          (a = 1 → 8 ≤ (s.queueAt dest).length →
            t = { s with net := s.net.eraseIdx i ++ [{ pk := State.respOf f.pk dest 3 [], pos := dest }], chanWait := t.chanWait,
                         regs := t.regs } ∧ s.RegsKept t [Reg.nocLink, Reg.nocNcnt dest]) ∧
          (a = 2 ∨ a = 3 →
            t = { s with net := s.net.eraseIdx i ++ [{ pk := State.respOf f.pk dest (if a = 2 then 2 else 1) [], pos := dest }],
                         chanWait := t.chanWait, regs := t.regs } ∧ s.RegsKept t [Reg.nocLink])) ∧
      (e = .uncorrected → ∃ t, exec (.routerForward i e) s = .next t ∧
        (∃ l, t.net = s.net.eraseIdx i ++ l ∧ ∀ g ∈ l, g.pk.cmd = 8) ∧ s.MemoryKept t ∧ t.srv = s.srv ∧ t.epq = s.epq ∧
        t.evts = s.evts ∧ t.fld Reg.nocLink 15 0 = min (s.fld Reg.nocLink 15 0 + 1) 65535 ∧
        (s.ledgerRoom = true → t.reg Reg.sprLgWr = s.reg Reg.sprLgWr + 1)))

/-- RESP, NOC_REQUEST_TIMEOUT, SLOT_REUSE_TIMEOUT (R279 to R281, R283, R284), for a master that is no WU and no port: the response to an
outstanding request of its generation completes it and reaches its master, the trace engine's among its responses; a frozen
interface collects it. Any other response is late: discarded and counted. A timer that expires first ends its request with TIMEOUT,
and its slot is late until it may be reused; the timer of a request that a frozen interface holds marks it expired. -/
def Obligations.ResponsesAndTimeouts : Prop :=
  ∀ (s : State) (node mid k : Nat), (∀ t, nodeKind node ≠ .tile t) → (∀ p, nodeKind node ≠ .port p) →
    let m := s.master node mid
    let x := tget (fun _ => Slot.empty) m.slots k
    (∀ i f, s.net[i]? = some f → f.pk.cmd = 7 → 10 * f.pk.dy + f.pk.dx = node → f.pos = node → f.pk.mid = mid → f.pk.slot = k →
      s.channelNext (State.outOf f) f.pk.cls = true →
      (f.pk.gen = x.gen → x.req.isSome = true → f.pk.resp < 8 → s.mastersGone node = false →
        (m.frozen = false → ∃ t, exec (.resp i) s = .next t ∧
          t = { s with net := s.net.eraseIdx i, chanWait := t.chanWait, masters := t.masters, tt := t.tt } ∧ s.MastersKept t node mid ∧
          (nodeKind node ≠ .tt → (t.master node mid).last = some f.pk ∧ t.tt = s.tt) ∧
          (nodeKind node = .tt → t.tt = { s.tt with resps := s.tt.resps ++ [f.pk] }) ∧
          tget (fun _ => Slot.empty) (t.master node mid).slots k = { x with req := none }) ∧
        (m.frozen = true → ∃ t, exec (.resp i) s = .next t ∧
          t = { s with net := s.net.eraseIdx i, chanWait := t.chanWait, masters := t.masters } ∧
          (t.master node mid).collected = m.collected ++ [f.pk] ∧
          tget (fun _ => Slot.empty) (t.master node mid).slots k = { x with req := none })) ∧
      (f.pk.gen ≠ x.gen ∨ x.req = none ∨ s.mastersGone node = true → ∃ t, exec (.resp i) s = .next t ∧
        t = { s with net := s.net.eraseIdx i, chanWait := t.chanWait, masters := t.masters, regs := t.regs } ∧
        s.RegsKept t [Reg.nocNcnt node] ∧ t.fld (Reg.nocNcnt node) 15 0 = min (s.fld (Reg.nocNcnt node) 15 0 + 1) 65535 ∧
        (t.master node mid).last = m.last ∧ (t.master node mid).collected = m.collected)) ∧
    (k < 64 → ∀ q, x.req = some q → ∃ t, exec (.nocRequestTimeout node mid k) s = .next t ∧
      t = { s with masters := t.masters, tt := t.tt } ∧ s.MastersKept t node mid ∧
      tget (fun _ => Slot.empty) (t.master node mid).slots k = { x with req := none, late := true } ∧
      ∃ r, r.cmd = 7 ∧ r.resp = 4 ∧
        (m.frozen = true → (t.master node mid).collected = m.collected ++ [r] ∧ t.tt = s.tt) ∧
        (m.frozen = false → nodeKind node ≠ .tt → (t.master node mid).last = some r ∧ t.tt = s.tt) ∧
        (m.frozen = false → nodeKind node = .tt → t.tt = { s.tt with resps := s.tt.resps ++ [r] })) ∧
    (∀ j h, m.held[j]? = some h → ∃ t, exec (.nocRequestTimeout node mid (64 + j)) s = .next t ∧ t = { s with masters := t.masters } ∧
      s.MastersKept t node mid ∧ (t.master node mid).held[j]? = some { h with expired := true } ∧
      ∀ i, i ≠ j → (t.master node mid).held[i]? = m.held[i]?) ∧
    (∃ t, exec (.slotReuseTimeout node mid k) s = .next t ∧ t = { s with masters := t.masters } ∧ s.MastersKept t node mid ∧
      tget (fun _ => Slot.empty) (t.master node mid).slots k = { x with late := false })

/-- HBM_RESPONSE_ARRIVAL (R129, R137, R242): the response of the request at the head of a WU's queue gives that entry its state, OK or the
code, and, for a read that is OK or of uncorrected data, its 64 bits; a code other than OK and uncorrected loses the promise. The
other entries of the queue stay as many, and every byte of memory stays. -/
def Obligations.HbmResponseReachesTheQueue : Prop :=
  ∀ (s : State) (i t : Nat) (f : Flight) (e : QEnt) (rest : List QEnt), t < 64 →
    let node := tileNode t
    let c := f.pk.mid / 5
    let pw := f.pk.mid % 5
    let q := if f.pk.q then 1 else 0
    let x := tget (fun _ => Slot.empty) (s.master node f.pk.mid).slots f.pk.slot
    s.net[i]? = some f → f.pk.cmd = 7 → 10 * f.pk.dy + f.pk.dx = node → f.pos = node → f.pk.resp < 8 →
    s.channelNext (State.outOf f) f.pk.cls = true →
    s.mastersGone node = false → (s.master node f.pk.mid).frozen = false → x.req.isSome = true → x.gen = f.pk.gen →
    ((s.clu t c).wu pw).queue q = e :: rest → e.state = 1 → e.slot = some f.pk.slot →
    ∃ s', exec (.hbmResponseArrival i) s = .next s' ∧
      s' = { s with net := s.net.eraseIdx i, chanWait := s'.chanWait, masters := s'.masters, clus := s'.clus, regs := s'.regs } ∧
      (∃ e' rest', ((s'.clu t c).wu pw).queue q = e' :: rest' ∧ e'.state = (if f.pk.resp = 0 then 2 else 8 + f.pk.resp) ∧
        rest'.length = rest.length ∧
        e'.data = if e.wr = false ∧ (f.pk.resp = 0 ∨ f.pk.resp = 5) then (f.pk.data.headD 0).setWidth 64 else 0) ∧
      tget (fun _ => Slot.empty) (s'.master node f.pk.mid).slots f.pk.slot = { x with req := none } ∧
      s.RegsKept s' [Reg.cluWerr t c pw, Reg.seqLoss] ∧ (f.pk.resp ≠ 0 → f.pk.resp ≠ 5 → s'.flag Reg.seqLoss 3 = true) ∧
      s.ClustersKept s' t c

/-- NOC_UNFREEZE_MASTER, NOC_UNFREEZE_ALL, DM_UNFREEZE (R284, R492), for a master that is no WU, no port and not the trace engine and that holds no
request and no response: the named interface is frozen no more and its offending request has ended with the response it had; a
master not named is unaffected. With ALL = 1 no interface is frozen.
LOCK_IDLE_EXPIRY, EVT (R278, R291): an open lock that nothing waits for is broken, its holder noted among those to learn of it; an
EVT at HP raises the MSI-X vector it names and no other. -/
def Obligations.UnfreezingLocksAndEvents : Prop :=
  ((∀ (s : State) (v : BitVec 32) (r : Packet),
      let node := 10 * bits v 26 23 + bits v 30 27
      let mid := bits v 22 13
      let m := s.master node mid
      s.regNow .host Reg.nocUnfreeze true false (setBit (setBit v 12 false) 31 true) = true →
      bits v 26 23 ≤ 9 → bits v 30 27 ≤ 9 →
      (∀ t, nodeKind node ≠ .tile t) → (∀ p, nodeKind node ≠ .port p) → nodeKind node ≠ .tt →
      m.frozen = true → m.held = [] → m.collected = [] → m.viols = [] → m.bad = some r →
      ∃ t, exec (.nocUnfreezeMaster v) s = .next t ∧ t = { s with regs := t.regs, masters := t.masters } ∧
        s.RegsKept t [Reg.nocUnfreeze] ∧ (t.master node mid).frozen = false ∧ (t.master node mid).bad = none ∧
        (t.master node mid).last = some { r with mid := mid } ∧
        ∀ n k, 1024 * n + k ≠ 1024 * node + mid → t.master n k = s.master n k) ∧
    (∀ (s : State) (v : BitVec 32), s.regNow .host Reg.nocUnfreeze true false (setBit v 12 true) = true →
      (∀ e ∈ s.masters, e.2.frozen = true → e.2.held = [] ∧ e.2.collected = [] ∧ e.2.viols = [] ∧ e.2.bad = none) →
      ∃ t, exec (.nocUnfreezeAll v) s = .next t ∧ (∀ e ∈ s.masters, (tget (fun _ => Master.empty) t.masters e.1).frozen = false) ∧
        t.net = s.net ∧ s.MemoryKept t) ∧
    (∀ (s : State) (v : BitVec 32), s.regNow .host Reg.dbgCtrl true false (setBit v 31 true) = true →
      let m := s.master dmNode 0
      m.frozen = true → m.held = [] → m.collected = [] → m.viols = [] → m.bad = none →
      ∃ t, exec (.dmUnfreeze v) s = .next t ∧ t = { s with regs := t.regs, masters := t.masters } ∧
        s.RegsKept t [Reg.dbgCtrl] ∧ (t.master dmNode 0).frozen = false)) ∧
  (∀ (s : State) (node : Nat), s.queueAt node = [] → (s.lock node).isOpen = true →
    let l := s.lock node
    ∃ t, exec (.lockIdleExpiry node) s = .next t ∧ t = { s with locks := t.locks, epq := t.epq } ∧
      (∀ n, t.queueAt n = s.queueAt n) ∧
      t.lock node = { l with isOpen := false, broken :=
        if (l.node, l.mid) ∈ l.broken then l.broken else l.broken ++ [(l.node, l.mid)] } ∧
      ∀ n, n ≠ node → t.lock n = s.lock n) ∧
  (∀ (s : State) (i v : Nat), s.evts[i]? = some v → v < 256 →
    ∃ t, exec (.evt i) s = .next t ∧ t = { s with evts := s.evts.eraseIdx i, msix := t.msix } ∧
      ∀ j, j < 256 → t.msix.getLsbD j = (s.msix.getLsbD j || decide (j = v)))

/-- RD, WR, LRD, LWR at the registers of a node (R273, R277), where no range unit watches: the request that is next in its order leaves
the node's list and is answered OK; a read with PEEK returns each register it names as it shows, and changes nothing; a write
writes the registers it names in their order; a locked request of a master that locks opens the lock for its source and counts
one. UNLK (R278) closes its holder's lock, and with no lock of its source closes nothing. A locked request or UNLK of a master whose lock was broken is
answered LKBRK, and the break is forgotten. -/
def Obligations.NodesServeRegisterRequests : Prop :=
  ∀ (s : State) (node i : Nat) (pk : Packet), (s.srvAt node)[i]? = some pk →
    (∀ t, nodeKind node = .tile t → ∀ r, r < 8 → s.flag (Reg.dbgRuCtrl t r) 31 = false) →
    s.servedAfter node i pk = false → aSpace pk.addr = 0 → State.isRemote node pk = false → s.admission node pk = 0 →
    let rest := s.setSrvAt node ((s.srvAt node).eraseIdx i)
    let k := 0x100000 * node + aOff pk.addr
    let named := fun (j : Nat) => decide (j ∈ State.regsOf pk)
    let shown := fun (t : State) => regFlits ((List.range (8 * pk.len)).map fun j => if named j then t.view (k + 4 * j) else 0) pk.len
    let written := fun (t : State) => (State.regsOf pk).foldl (fun t j =>
      t.writeReg (whoOf pk) (k + 4 * j) (State.flitReg (pk.data.getD (j / 8) 0) (j % 8))) t
    let lock := s.lock node
    let opened : Lock := { lock with isOpen := true, node := 10 * pk.sy + pk.sx, mid := pk.mid, count := 1 }
    (pk.cmd = 0 → pk.peek = true → ∃ t, exec (.rd node i []) s = .next t ∧
      t = { s with srv := rest.srv, net := s.net ++ [{ pk := State.respOf pk node 0 (shown rest), pos := node }] }) ∧
    (pk.cmd = 1 → exec (.wr node i []) s = .next ((written rest).respond node pk 0 [])) ∧
    (pk.cmd = 4 → pk.peek = true → lock.isOpen = false → State.mayLock pk = true → s.findsBroken node pk = false →
      ∃ t, exec (.lrd node i []) s = .next t ∧ t = { s with srv := rest.srv, locks := t.locks, net := t.net } ∧
        t.net = s.net ++ [{ pk := State.respOf pk node 0 (shown (rest.openLock node pk)), pos := node }] ∧ t.lock node = opened ∧
        ∀ n, n ≠ node → t.lock n = s.lock n) ∧
    (pk.cmd = 5 → lock.isOpen = false → State.mayLock pk = true → s.findsBroken node pk = false →
      exec (.lwr node i []) s = .next (((written (rest.openLock node pk)).respond node pk 0 []).countLock node pk)) ∧
    (pk.cmd = 4 ∨ pk.cmd = 5 ∨ pk.cmd = 6 → s.findsBroken node pk = true →
      ∃ t, (pk.cmd = 4 → exec (.lrd node i []) s = .next t) ∧ (pk.cmd = 5 → exec (.lwr node i []) s = .next t) ∧
        (pk.cmd = 6 → exec (.unlk node i) s = .next t) ∧ t = { s with srv := rest.srv, locks := t.locks, net := t.net } ∧
        t.net = s.net ++ [{ pk := State.respOf pk node 7 [], pos := node }] ∧ t.findsBroken node pk = false) ∧
    (pk.cmd = 6 → s.holdsLock node pk = true → s.findsBroken node pk = false → s.queueAt node = [] →
      ∃ t, exec (.unlk node i) s = .next t ∧ t = { s with srv := rest.srv, epq := t.epq, locks := t.locks, net := t.net } ∧
        (∀ n, t.queueAt n = s.queueAt n) ∧
        t.net = s.net ++ [{ pk := State.respOf pk node 0 [], pos := node }] ∧
        t.lock node = { lock with isOpen := false, count := 0 }) ∧
    (pk.cmd = 6 → s.holdsLock node pk = false → s.findsBroken node pk = false →
      exec (.unlk node i) s = .next (rest.respond node pk 0 []))

/-! ### The scratchpad banks -/

/-- SCRATCHPAD_NOC_ACCESS (R208 to R210, R215, R221, R273), where no range unit watches: the request that is next in its order at a bank
whose owner rules allow it leaves the list. A read returns the words as their check bits say, OK or with the code of uncorrected
data, and changes no byte; a write stores exactly the words it names and is answered OK. A locked request of a master that locks
does the same, opens the lock for its source and counts one. -/
def Obligations.BankServesTheNetwork : Prop :=
  ∀ (s : State) (t i : Nat) (pk : Packet) (ecc : List EccAt), t < 64 →
    let node := tileNode t
    let b := aBank pk.addr
    let w := aWord pk.addr
    let n := 4 * pk.len
    let rest := s.setSrvAt node ((s.srvAt node).eraseIdx i)
    let locked := pk.cmd = 4 ∨ pk.cmd = 5
    let resp := fun (code : Nat) (l : List (BitVec 256)) => s.net ++ [Flight.mk (State.respOf pk node code l) node]
    (s.srvAt node)[i]? = some pk → s.servedAfter node i pk = false →
    aSpace pk.addr = 1 → s.admission node pk = 0 → s.nocOwns t b pk = true →
    (∀ r, r < 8 → s.flag (Reg.dbgRuCtrl t r) 31 = false) →
    (locked → (s.lock node).isOpen = false ∧ State.mayLock pk = true ∧ s.findsBroken node pk = false) →
    (pk.cmd = 0 ∨ pk.cmd = 4 → ∃ s', exec (.scratchpadNocAccess node i ecc) s = .next s' ∧
      s.MemoryKept s' ∧ s'.srv = rest.srv ∧
      (ecc = [] → s' = { s with srv := rest.srv, locks := s'.locks, net := resp 0 (State.flitsOf ((List.range n).map fun j => s.spWord t b (w + j)) pk.len) }) ∧
      (∃ l, s'.net = s.net ++ l ++ [Flight.mk (State.respOf pk node (if State.anyUe ecc n then 5 else 0)
        (State.flitsOf ((List.range n).map fun j => eccWord (eccOf ecc j) (s.spWord t b (w + j))) pk.len)) node] ∧
        ∀ f ∈ l, f.pk.cmd = 8) ∧
      (locked → s'.lock node = { s.lock node with isOpen := true, node := 10 * pk.sy + pk.sx, mid := pk.mid, count := 1 })) ∧
    (pk.cmd = 1 ∨ pk.cmd = 5 → ∃ s', exec (.scratchpadNocAccess node i ecc) s = .next s' ∧
      s' = { s with srv := rest.srv, net := resp 0 [], spad := s'.spad, regs := s'.regs, locks := s'.locks } ∧
      s.RegsKept s' [Reg.seqLoss] ∧
      (∀ j, j < n → s'.spWord t b (w + j) =
        if j / 4 + 1 < pk.len ∨ pk.be.getLsbD (j % 4) = true then State.flitWord (pk.data.getD (j / 4) 0) (j % 4)
        else s.spWord t b (w + j)) ∧
      (∀ a, a < State.spAddr t b w ∨ State.spAddr t b w + 8 * n ≤ a → Memory.get s'.spad a = Memory.get s.spad a) ∧
      (locked → s'.lock node = { s.lock node with isOpen := true, node := 10 * pk.sy + pk.sx, mid := pk.mid, count := 1 }))

/-- BANK_GRANT (R121 to R125, R209, R212 to R214, R221, R222): the request that the WU order puts first is granted once every user
cluster has reached its step, where its cluster may use the bank: LD reads its word as the check bits say; ST stores the bytes its
mask names, the others of a word it writes in part as read. It stays while a user cluster has not reached the step. Where its cluster may not use the bank, the access is
a violation that freezes the WU's interface, and no byte changes. With no request nothing happens. -/
def Obligations.BankGrantsInWuOrder : Prop :=
  ∀ (s : State) (t b : Nat) (ecc : Ecc), t < 64 → b < 16 →
    (s.bankFirst t b = none → exec (.bankGrant t b ecc) s = .next s) ∧
    ∀ st li lw c pw r, s.bankFirst t b = some (st, li, lw, c, pw) → ((s.clu t c).wu pw).sp = some r →
      let word := eccWord ecc (s.spWord t b r.word)
      (s.wuMayUse t b c = true → s.usersReached t b st = false → exec (.bankGrant t b ecc) s = .next s) ∧
      (s.wuMayUse t b c = true → s.usersReached t b st = true →
        (r.wr = false → ∃ s', exec (.bankGrant t b ecc) s = .next s' ∧
          ((s'.clu t c).wu pw).sp = some { r with granted := true, got := word } ∧ s.MemoryKept s' ∧ s.ClustersKept s' t c ∧
          ((ecc = .ok ∨ ecc = .onDie) → s.RegsKept s' [Reg.bnkWait t b]) ∧
          (ecc = .corrected → s'.fld (Reg.bnkEcc t b) 31 16 = min (s.fld (Reg.bnkEcc t b) 31 16 + 1) 65535) ∧
          (∀ f, ecc = .uncorrected f → r.word < 32768 → s'.fld (Reg.bnkEcc t b) 15 8 = min (s.fld (Reg.bnkEcc t b) 15 8 + 1) 255 ∧
            s'.flag (Reg.bnkUeaddr t b) 31 = true ∧ s'.flag Reg.seqFault 5 = true)) ∧
        (r.wr = true → ∃ s', exec (.bankGrant t b ecc) s = .next s' ∧
          ((s'.clu t c).wu pw).sp = some { r with granted := true, got := 0 } ∧ s.ClustersKept s' t c ∧
          s'.hbm = s.hbm ∧
          (∀ i, i < 8 → Memory.get s'.spad (State.spAddr t b r.word + i) =
            if r.mask.getLsbD i then r.data.extractLsb' (8 * i) 8
            else if r.mask = 0 then Memory.get s.spad (State.spAddr t b r.word + i)
            else word.extractLsb' (8 * i) 8) ∧
          ∀ a, a < State.spAddr t b r.word ∨ State.spAddr t b r.word + 8 ≤ a →
            Memory.get s'.spad a = Memory.get s.spad a)) ∧
      (s.wuMayUse t b c = false → ∃ s', exec (.bankGrant t b ecc) s = .next s' ∧ s.MemoryKept s' ∧ s.ClustersKept s' t c ∧
        ((s'.clu t c).wu pw).sp = some { r with viol := true } ∧
        (s'.master (tileNode t) (State.wuMid c pw)).frozen = true ∧
        (s.ledgerRoom = true → s'.reg Reg.sprLgWr = s.reg Reg.sprLgWr + 1))

/-- BANK_HANDOVER_START, _FENCE, _DRAINED, _CLEARED (R217, R220, R225): a start is refused, with ERR alone, while a handover is under
way, for an owner that does not exist, or under LOCK; one from or to the WU group in a run waits for a midnight; any other to another
owner fences the bank at once. One that waits is fenced when its midnight comes, but one that keeps the owner is not. Drained, it clears, or switches:
the owner, DONE and IDLE. Cleared, every byte of the bank is 0, no other byte changes, and it switches. Until then nothing
happens. -/
def Obligations.BankHandover : Prop :=
  (∀ (s : State) (who : Who) (t b : Nat) (v : BitVec 32), t < 64 → b < 16 →
    let n := bits v 18 16
    let same := n = s.bankOwn t b ∧ (n ≠ 3 ∨ bits v 23 20 = s.bankCeng t b)
    let waits := (s.bankOwn t b = 1 ∨ n = 1) ∧ (s.seqState = 1 ∨ s.seqState = 2 ∨ s.seqState = 3)
    let refused := s.bankH t b ≠ 0 ∨ n = 0 ∨ 5 ≤ n ∨ (s.flag (Reg.bnkCtrl t) 0 = true ∧ State.lockExempt who = false)
    s.regNow who (Reg.bnkOwner t b) true false (setBit v 31 true) = true →
    (refused → ∃ s', exec (.bankHandoverStart who t b v) s = .next s' ∧ s.OnlyRegs s' [Reg.bnkStat t b] ∧
      s'.flag (Reg.bnkStat t b) 30 = true ∧ s'.bankH t b = s.bankH t b) ∧
    (¬ refused → waits ∨ ¬ same → ∃ s', exec (.bankHandoverStart who t b v) s = .next s' ∧
      s' = { s with regs := s'.regs, banks := s'.banks } ∧ s.BanksKept s' t b ∧
      s.RegsKept s' [Reg.bnkOwner t b, Reg.bnkStat t b] ∧ s'.bankOwn t b = s.bankOwn t b ∧
      (s'.bank t b).new = n ∧ (s'.bank t b).eng = bits v 23 20 ∧ (s'.bank t b).clr = v.getLsbD 30 ∧
      (waits → s'.bankH t b = 1) ∧ (¬ waits → s'.bankH t b = 2))) ∧
  (∀ (s : State) (t b : Nat), t < 64 → b < 16 →
    (s.bankH t b = 1 → s.handoverReady t b = true → s.sameOwner t b = false →
      ∃ s', exec (.bankHandoverFence t b) s = .next s' ∧ s'.bankH t b = 2 ∧ s.OnlyField s' (Reg.bnkStat t b) 29 28) ∧
    (s.bankH t b = 1 → s.handoverReady t b = true → s.sameOwner t b = true → (s.bank t b).clr = true →
      ∃ s', exec (.bankHandoverFence t b) s = .next s' ∧ s'.bankH t b = 3 ∧ s.OnlyField s' (Reg.bnkStat t b) 29 28) ∧
    ((s.bankH t b ≠ 1 ∨ s.handoverReady t b = false) → exec (.bankHandoverFence t b) s = .next s) ∧
    (s.bankH t b = 2 → s.bankInfl t b = 0 → (s.bank t b).clr = true →
      ∃ s', exec (.bankHandoverDrained t b) s = .next s' ∧ s'.bankH t b = 3 ∧ s.OnlyField s' (Reg.bnkStat t b) 29 28) ∧
    ((s.bankH t b ≠ 2 ∨ s.bankInfl t b ≠ 0) → exec (.bankHandoverDrained t b) s = .next s) ∧
    ((s.bank t b).new < 8 → (s.bank t b).eng < 16 →
      let switched := fun (s' : State) => s.RegsKept s' [Reg.bnkOwner t b, Reg.bnkStat t b] ∧ s.NetKept s' ∧
        s'.bankH t b = 0 ∧ s'.bankOwn t b = (s.bank t b).new ∧ s'.bankCeng t b = (s.bank t b).eng ∧
        s'.flag (Reg.bnkStat t b) 31 = true
      (s.bankH t b = 2 → s.bankInfl t b = 0 → (s.bank t b).clr = false →
        ∃ s', exec (.bankHandoverDrained t b) s = .next s' ∧ s' = { s with regs := s'.regs, net := s'.net } ∧ switched s') ∧
      (s.bankH t b = 3 → ∃ s', exec (.bankHandoverCleared t b) s = .next s' ∧
        s' = { s with regs := s'.regs, spad := s'.spad, net := s'.net } ∧ switched s' ∧
        ∀ a, Memory.get s'.spad a = if State.spAddr t b 0 ≤ a ∧ a < State.spAddr t b 32768 then 0 else Memory.get s.spad a)) ∧
    (s.bankH t b ≠ 3 → exec (.bankHandoverCleared t b) s = .next s))

/-- BANK_SCRUB_READ, HBM_SCRUB_READ (R221, R223, R250, R252): with scrubbing on and no access waiting, a scrub reads a word or a block
and moves its position on, round the bank or the pseudo-channel, whatever the check bits say; a corrected word of a bank counts, and
no byte changes. Otherwise nothing happens. -/
def Obligations.ScrubsMoveOn : Prop :=
  (∀ (s : State) (t b : Nat) (ecc : Ecc),
    (s.fld (Reg.bnkCtrl t) 15 8 ≠ 0 → s.bankFirst t b = none → s.bankInfl t b = 0 →
      ∃ s', exec (.bankScrubRead t b ecc) s = .next s' ∧ s.MemoryKept s' ∧ s.BanksKept s' t b ∧
        s'.bank t b = { s.bank t b with scrub := ((s.bank t b).scrub + 1) % 32768 } ∧
        (ecc = .ok → s' = { s with banks := s'.banks }) ∧
        (ecc = .corrected → s.RegsKept s' [Reg.bnkEcc t b] ∧
          s'.fld (Reg.bnkEcc t b) 31 16 = min (s.fld (Reg.bnkEcc t b) 31 16 + 1) 65535)) ∧
    ((s.fld (Reg.bnkCtrl t) 15 8 = 0 ∨ s.bankFirst t b ≠ none ∨ s.bankInfl t b ≠ 0) →
      exec (.bankScrubRead t b ecc) s = .next s)) ∧
  (∀ (s : State) (m k : Nat) (ecc : List EccAt),
    let x := s.mc m
    let blk := tget (fun _ => 0) x.scrub k
    let bank := bankOfOff (256 * blk)
    let scrubs := k < 62 ∧ s.mcState m = 2 ∧ s.flag (Reg.mcCtrl m) 1 = true ∧ s.fld (Reg.mcScrub m) 15 0 ≠ 0 ∧
      (∀ g, x.mig = some g → g.lpc ≠ k) ∧ s.hbmBankWaits m (s.pcOf m k) bank = false ∧ s.nbrWaits m (s.pcOf m k) bank = false
    (scrubs → ∃ s', exec (.hbmScrubRead m k ecc) s = .next s' ∧ s.MemoryKept s' ∧
      tget (fun _ => 0) (s'.mc m).scrub k = (blk + 1) % pcBlocks ∧
      (∀ j, j ≠ k → tget (fun _ => 0) (s'.mc m).scrub j = tget (fun _ => 0) x.scrub j) ∧
      (ecc = [] → s.hbmBad = [] → s' = { s with regs := s'.regs, mcs := s'.mcs } ∧ s.RegsKept s' [Reg.mcRdpcnt m])) ∧
    (¬ scrubs → exec (.hbmScrubRead m k ecc) s = .next s))

/-! ### The HBM controllers -/

/-- HBM_REQUEST_ARRIVAL, HBM_COMMAND_SELECT, HBM_PARITY_RETRY (R242 to R244, R247, R248, R251, R254, R258; log 18): a request does not
pass an earlier one of its source to a common burst. A READY controller takes a request that no lock keeps waiting into the
queue of its pseudo-channel, one beyond the user space is answered ERROR; a FAILED controller answers ERROR, one that
initialises lets it wait, and any other answers FENCED. A pseudo-channel chooses by the first of: a refresh that can wait no longer, a
neighbour refresh, the first request that has waited too long, the first that hits an open row, a refresh that is owed, the
first request. A chosen request has its column access issued when its row is open, else its row is activated and counted. A
command with a parity error is repeated, up to three times; then its request ends with ERROR. -/
def Obligations.HbmRequestsArriveAndAreChosen : Prop :=
  (∀ (s : State) (m i dt : Nat) (pk : Packet), m < 6 →
    let node := mcNode m
    let rest := s.setSrvAt node ((s.srvAt node).eraseIdx i)
    let p := s.hbmPlace (State.hbmSpan pk).1
    let pch := s.pcOf m p.2.1
    let ahead := ((s.srvAt node).take i).any fun g => State.sameSource g pk
    let answered := fun (code : Nat) => exec (.hbmRequestArrival m ⟨i, dt⟩) s =
      .next { s with srv := rest.srv, net := s.net ++ [Flight.mk (State.respOf pk node code []) node] }
    (s.srvAt node)[i]? = some pk → aSpace pk.addr = 2 →
    (ahead = true ∨ s.mcState m = 1 ∨ (s.mcState m = 2 ∧ s.lockWaits node pk = true) →
      exec (.hbmRequestArrival m ⟨i, dt⟩) s = .next s) ∧
    (ahead = false → s.mcState m = 2 → s.lockWaits node pk = false →
      (hbmTop ≤ (State.hbmSpan pk).2 → answered 1) ∧
      ((State.hbmSpan pk).2 < hbmTop → State.extentOk pk.cmd pk.len pk.addr = false →
        exec (.hbmRequestArrival m ⟨i, dt⟩) s = .next (rest.violateAt node pk 7)) ∧
      ((State.hbmSpan pk).2 < hbmTop → State.extentOk pk.cmd pk.len pk.addr = true →
        ∃ t, exec (.hbmRequestArrival m ⟨i, dt⟩) s = .next t ∧ t = { s with srv := rest.srv, mcs := t.mcs } ∧
          t.mcQueue m pch = s.mcQueue m pch ++ [HbmReq.mk pk pch p.2.2 0 dt 0] ∧
          (∀ q, q ≠ pch → t.mcQueue m q = s.mcQueue m q) ∧ t.mc m = { s.mc m with queue := (t.mc m).queue } ∧
          ∀ n, n ≠ m → t.mc n = s.mc n)) ∧
    (ahead = false → s.mcState m = 5 → answered 1) ∧
    (ahead = false → s.mcState m ≠ 1 → s.mcState m ≠ 2 → s.mcState m ≠ 5 → answered 2)) ∧
  (∀ (s : State) (m pch dt : Nat), m < 6 →
    let u := s.ageReqs m pch dt
    let late := u.firstReq m pch fun r => decide (max 100 (s.fld (Reg.mcSched m) 15 0) ≤ r.age)
    let hit := u.firstReq m pch fun r => s.openRow m pch (bankOfOff r.off) == some (rowOfOff r.off)
    let first := u.firstReq m pch fun _ => true
    let must := s.owedBank m pch Config.refreshPostpone
    let nbr := (s.mc m).nbr.find? fun e => e.1 / 64 == pch
    let owed := s.owedBank m pch 1
    (s.mcState m ≠ 2 → s.mcState m ≠ 3 → exec (.hbmCommandSelect m pch dt) s = .next s) ∧
    (s.mcState m = 2 ∨ s.mcState m = 3 →
      (∀ k, must = some k ∨ (must = none ∧ nbr = none ∧ late = none ∧ hit = none ∧ owed = some k) →
        ∃ t, exec (.hbmCommandSelect m pch dt) s = .next t ∧ t = { s with regs := t.regs, mcs := t.mcs } ∧
          s.RegsKept t [Reg.mcRef m] ∧ t.fld (Reg.mcRef m) 31 0 = min (s.fld (Reg.mcRef m) 31 0 + 1) (2 ^ 32 - 1) ∧
          t.mc m = { u.mc m with owed := (t.mc m).owed, row := (t.mc m).row } ∧
          (∀ j, tget (fun _ => 0) (t.mc m).owed j = tget (fun _ => 0) (s.mc m).owed j - (if j = k then 1 else 0)) ∧
          (∀ j, tget (fun _ => 0) (t.mc m).row j = if j = k then 0 else tget (fun _ => 0) (s.mc m).row j) ∧
          ∀ n, n ≠ m → t.mc n = s.mc n) ∧
      (∀ e, must = none → nbr = some e → ∃ t, exec (.hbmCommandSelect m pch dt) s = .next t ∧
        t = { s with regs := t.regs, mcs := t.mcs } ∧ s.RegsKept t [Reg.mcRdpcnt m] ∧
        t.mc m = { u.mc m with nbr := (s.mc m).nbr.erase e, row := (t.mc m).row } ∧
        (∀ j, tget (fun _ => 0) (t.mc m).row j = if j = e.1 then 0 else tget (fun _ => 0) (s.mc m).row j) ∧
        ∀ n, n ≠ m → t.mc n = s.mc n) ∧
      (∀ i r, must = none → nbr = none →
        (late = some i ∨ (late = none ∧ (hit = some i ∨ (hit = none ∧ owed = none ∧ first = some i)))) →
        (u.mcQueue m pch)[i]? = some r →
        let b := bankOfOff r.off
        let row := rowOfOff r.off
        let k := bankKey pch b
        let c := actStep (tget (fun _ => []) (s.mc m).acts k) row
        let full := decide (s.rdpTh m ≤ c.2.2)
        (s.openRow m pch b = some row → ∃ t, exec (.hbmCommandSelect m pch dt) s = .next t ∧
          t = { s with mcs := t.mcs } ∧ t.mcQueue m pch = (u.mcQueue m pch).eraseIdx i ∧
          (t.mc m).ready = (s.mc m).ready ++ [r] ∧ (t.mc m).acts = (s.mc m).acts ∧
          t.openRow m pch b = (if s.fld (Reg.mcPage m) 8 0 = 0 then none else some row) ∧ ∀ n, n ≠ m → t.mc n = s.mc n) ∧
        (s.openRow m pch b ≠ some row → ∃ t, exec (.hbmCommandSelect m pch dt) s = .next t ∧
          t = { s with regs := t.regs, mcs := t.mcs } ∧ s.RegsKept t [Reg.mcRdpcnt m] ∧
          t.mcQueue m pch = u.mcQueue m pch ∧ (t.mc m).ready = (s.mc m).ready ∧ t.openRow m pch b = some row ∧
          tget (fun _ => []) (t.mc m).acts k = (if full then c.1.set c.2.1 none else c.1) ∧
          (∀ j, j ≠ k → tget (fun _ => []) (t.mc m).acts j = tget (fun _ => []) (s.mc m).acts j) ∧
          (t.mc m).nbr = (s.mc m).nbr ++ (if full && s.fld (Reg.mcRdp m) 31 30 != 0 then [(k, row)] else []) ∧
          ∀ n, n ≠ m → t.mc n = s.mc n)) ∧
      (must = none → nbr = none → late = none → hit = none → owed = none → first = none →
        exec (.hbmCommandSelect m pch dt) s = .next u))) ∧
  ∀ (s : State) (m i : Nat), m < 6 →
    ((s.mc m).ready[i]? = none → ∃ t, exec (.hbmParityRetry m i) s = .next t ∧ s.OnlyField t (Reg.mcLink m) 31 16 ∧
      t.fld (Reg.mcLink m) 31 16 = min (s.fld (Reg.mcLink m) 31 16 + 1) 65535) ∧
    ∀ r, (s.mc m).ready[i]? = some r →
      (r.repeats < 3 → ∃ t, exec (.hbmParityRetry m i) s = .next t ∧ t = { s with regs := t.regs, mcs := t.mcs } ∧
        s.OnlyField { t with mcs := s.mcs } (Reg.mcLink m) 31 16 ∧
        t.mc m = { s.mc m with ready := (s.mc m).ready.set i { r with repeats := r.repeats + 1 } } ∧
        t.fld (Reg.mcLink m) 31 16 = min (s.fld (Reg.mcLink m) 31 16 + 1) 65535) ∧
      (3 ≤ r.repeats → ∃ t, ∃ l : List Flight, exec (.hbmParityRetry m i) s = .next t ∧ (∀ f ∈ l, f.pk.cmd = 8) ∧
        t = { s with regs := t.regs, mcs := t.mcs,
                     net := s.net ++ l ++ [Flight.mk (State.respOf r.pk (mcNode m) 1 []) (mcNode m)] } ∧
        s.RegsKept t [Reg.mcLink m] ∧ t.fld (Reg.mcLink m) 7 0 = min (s.fld (Reg.mcLink m) 7 0 + 1) 255 ∧
        t.mc m = { s.mc m with ready := (s.mc m).ready.eraseIdx i })

/-- PAGE_IDLE_EXPIRY, PER_BANK_REFRESH_DUE, REFRESH_WINDOW_END (R244, R246, R247), of a bank that the pseudo-channel has: the bank is
precharged; at a READY controller one more refresh is owed and MC_STAT shows the rate; the activate-count table of the
bank is free. Other banks stay as they are, and so does every byte of memory. -/
def Obligations.HbmPagesAndRefresh : Prop :=
  ∀ (s : State) (m pch bank : Nat), bank < 48 →
    let k := bankKey pch bank
    (∃ t, exec (.pageIdleExpiry m pch bank) s = .next t ∧ t = { s with mcs := t.mcs } ∧ t.openRow m pch bank = none ∧
      ∀ p b, b < 48 → (p ≠ pch ∨ b ≠ bank) → t.openRow m p b = s.openRow m p b) ∧
    (∀ trate, s.mcState m ≠ 2 → exec (.perBankRefreshDue m pch bank trate) s = .next s) ∧
    (∀ trate, s.mcState m = 2 → ∃ t, exec (.perBankRefreshDue m pch bank trate) s = .next t ∧
      t = { s with regs := t.regs, mcs := t.mcs } ∧ s.OnlyField { t with mcs := s.mcs } (Reg.mcStat m) 7 6 ∧
      t.fld (Reg.mcStat m) 7 6 = min trate 2 ∧
      tget (fun _ => 0) (t.mc m).owed k = tget (fun _ => 0) (s.mc m).owed k + 1 ∧
      ∀ j, j ≠ k → tget (fun _ => 0) (t.mc m).owed j = tget (fun _ => 0) (s.mc m).owed j) ∧
    ∃ t, exec (.refreshWindowEnd m pch bank) s = .next t ∧ t = { s with mcs := t.mcs } ∧
      tget (fun _ => []) (t.mc m).acts k = [] ∧
      ∀ j, j ≠ k → tget (fun _ => []) (t.mc m).acts j = tget (fun _ => []) (s.mc m).acts j

/-- RD, WR, RDW and WRW at a controller (R240, R245, R250, R273), of a request whose column access has been issued: a read returns its
words as the check bits let them be read and changes no byte, with code 5 where a word has an uncorrected error; a WR stores
its data, a WRW the bytes that BE names of its word over the burst as read; no other byte is written but a migration's twin of
the same bytes, and with BE zero nothing is. The answer follows what the errors report, and the request leaves the
controller. A controller that is neither READY nor FENCED, and a command of another kind, serves nothing. -/
def Obligations.ControllersServeWords : Prop :=
  ∀ (s : State) (m j : Nat) (r : HbmReq) (ecc : List EccAt), m < 6 → (s.mc m).ready[j]? = some r →
    let node := mcNode m
    let i := (s.srvAt node).length + j
    let pk := r.pk
    let a := (State.hbmSpan pk).1
    let b := a / 32 * 32
    let run := fun (c : Nat) => match c with
      | 0 => exec (.rd node i ecc) s
      | 1 => exec (.wr node i ecc) s
      | 2 => exec (.rdw node i ecc) s
      | _ => exec (.wrw node i ecc) s
    let answered := fun (t : State) (code : Nat) (d : List (BitVec 256)) => ∃ l : List Flight, (∀ f ∈ l, f.pk.cmd = 8) ∧
      (ecc = [] → s.hbmBad = [] → l = []) ∧ t.net = s.net ++ l ++ [Flight.mk (State.respOf pk node code d) node]
    let checked := fun (t : State) => t = { s with
        regs := t.regs, mcs := t.mcs, net := t.net, seq := t.seq, ledger := t.ledger, hbm := t.hbm, hbmBad := t.hbmBad } ∧ t.mc m = { s.mc m with ready := (s.mc m).ready.eraseIdx j } ∧
      (ecc = [] → s.hbmBad = [] → t.regs = s.regs ∧ t.seq = s.seq ∧ t.ledger = s.ledger)
    let only := fun (t : State) (x n : Nat) => ∀ y, (y < s.hbmFlat x ∨ s.hbmFlat x + n ≤ y) →
      (∀ z, s.hbmTwin x = some z → y < z ∨ z + n ≤ y) → Memory.get t.hbm y = Memory.get s.hbm y
    ((s.mcState m ≠ 2 ∧ s.mcState m ≠ 3) → ∀ c, c < 4 → run c = .next s) ∧
    (∀ c, c < 4 → pk.cmd ≠ c → run c = .next s) ∧
    (s.mcState m = 2 ∨ s.mcState m = 3 →
      (pk.cmd = 0 → ∃ t, run 0 = .next t ∧ checked t ∧ t.hbm = s.hbm ∧ t.hbmBad = s.hbmBad ∧
        answered t (if s.hbmAnyUe a ecc (4 * pk.len) then 5 else 0)
          (State.flitsOf ((List.range (4 * pk.len)).map (s.hbmWord a ecc)) pk.len)) ∧
      (pk.cmd = 2 → ∃ t, run 2 = .next t ∧ checked t ∧ t.hbm = s.hbm ∧ t.hbmBad = s.hbmBad ∧
        answered t (if s.hbmAnyUe a ecc 1 then 5 else 0) [(s.hbmWord a ecc 0).setWidth 256]) ∧
      (pk.cmd = 1 → pk.len ≤ 8 → ∃ t, run 1 = .next t ∧ checked t ∧
        t.net = s.net ++ [Flight.mk (State.respOf pk node 0 []) node] ∧ only t a (32 * pk.len) ∧
        ∀ k, k < 32 * pk.len → Memory.get t.hbm (s.hbmFlat a + k) = (pk.data.getD (k / 32) 0).extractLsb' (8 * (k % 32)) 8) ∧
      (pk.cmd = 3 → pk.be = 0 → ∃ t, run 3 = .next t ∧ checked t ∧ t.hbm = s.hbm ∧ t.hbmBad = s.hbmBad ∧
        t.net = s.net ++ [Flight.mk (State.respOf pk node 0 []) node]) ∧
      (pk.cmd = 3 → pk.be ≠ 0 → ∃ t, run 3 = .next t ∧ checked t ∧ answered t 0 [] ∧ only t b 32 ∧
        (∀ k, k < 4 → tget (fun _ => false) t.hbmBad (s.hbmFlat b + 8 * k) = false) ∧
        ∀ k, k < 32 → Memory.get t.hbm (s.hbmFlat b + k) =
          if k / 8 = a % 32 / 8 ∧ pk.be.getLsbD (k % 8) = true then (pk.data.getD 0 0).extractLsb' (8 * (k % 8)) 8
          else (s.hbmWord b ecc (k / 8)).extractLsb' (8 * (k % 8)) 8))

/-- MIGRATION_START, MIGRATION_ABORT, MIGRATION_BLOCK_COPY (R240, R241, R263; ABORT before GO: log 19), of a register write that nothing
keeps waiting: a start with a free spare begins at block 0 and shows BUSY; one while a migration is in progress, of a
pseudo-channel that does not exist, or to a pseudo-channel in use changes nothing but ERR; an abort ends the migration in
progress without a switch. A copy leaves the next block of the spare equal to that of the pseudo-channel as read, an
uncorrected word with its error, and no other byte changed; after the last block the spare serves the logical
pseudo-channel and the repair map says so. A copy waits for the requests of both pseudo-channels. -/
def Obligations.Migrations : Prop :=
  (∀ (s : State) (m : Nat) (v : BitVec 32), m < 6 →
    let lpc := bits v 5 0
    let spare := bits v 11 6
    let inUse := (List.range 62).any fun k => s.pcOf m k == spare
    let going := if v.getLsbD 30 then none else (s.mc m).mig
    let aborts := v.getLsbD 30 && (s.mc m).mig.isSome
    s.regNow .host (Reg.mcMigrate m) true false (setBit v 31 true) = true →
    (going = none → lpc < 62 → inUse = false → ∃ t, exec (.migrationStart m v) s = .next t ∧
      t = { s with regs := t.regs, mcs := t.mcs, net := t.net } ∧ s.NetKept t ∧
      s.RegsKept t [Reg.mcMigrate m, Reg.mcMigstat m] ∧ t.mc m = { s.mc m with mig := some (Migration.mk lpc spare 0) } ∧
      t.flag (Reg.mcMigstat m) 28 = true ∧ t.fld (Reg.mcMigstat m) 21 0 = 0 ∧
      t.flag (Reg.mcMigstat m) 30 = (s.flag (Reg.mcMigstat m) 30 || aborts) ∧ ∀ n, n ≠ m → t.mc n = s.mc n) ∧
    ((going ≠ none ∨ 62 ≤ lpc ∨ inUse = true) → ∃ t, exec (.migrationStart m v) s = .next t ∧
      t = { s with regs := t.regs, mcs := t.mcs, net := t.net } ∧ s.NetKept t ∧ s.RegsKept t [Reg.mcMigstat m] ∧
      t.mc m = { s.mc m with mig := going } ∧ t.flag (Reg.mcMigstat m) 29 = true ∧
      t.flag (Reg.mcMigstat m) 30 = (s.flag (Reg.mcMigstat m) 30 || aborts) ∧
      (aborts = false → s.BitsKept t (Reg.mcMigstat m) 29 29) ∧ ∀ n, n ≠ m → t.mc n = s.mc n)) ∧
  (∀ (s : State) (m : Nat) (v : BitVec 32), m < 6 →
    s.regNow .host (Reg.mcMigrate m) true false (setBit v 30 true) = true →
    (v.getLsbD 31 = false → (s.mc m).mig = none → ∃ t, exec (.migrationAbort m v) s = .next t ∧
      s.OnlyRegs t [Reg.mcMigrate m]) ∧
    (∀ g, v.getLsbD 31 = false → (s.mc m).mig = some g → ∃ t, exec (.migrationAbort m v) s = .next t ∧
      t = { s with regs := t.regs, mcs := t.mcs, net := t.net } ∧ s.NetKept t ∧
      s.RegsKept t [Reg.mcMigrate m, Reg.mcMigstat m] ∧ t.mc m = { s.mc m with mig := none } ∧
      t.flag (Reg.mcMigstat m) 28 = false ∧ t.flag (Reg.mcMigstat m) 30 = true ∧ ∀ n, n ≠ m → t.mc n = s.mc n) ∧
    (v.getLsbD 31 = true → exec (.migrationAbort m v) s = exec (.migrationStart m (setBit v 30 true)) s)) ∧
  ∀ (s : State) (m : Nat) (g : Migration) (ecc : List EccAt), m < 6 → (s.mc m).mig = some g → g.next < pcBlocks →
    g.lpc < 62 → g.spare < 64 →
    let old := s.pcOf m g.lpc
    let src := 2 ^ 30 * (64 * m + old) + 256 * g.next
    let dst := 2 ^ 30 * (64 * m + g.spare) + 256 * g.next
    let a := s.hbmUser m g.lpc (256 * g.next)
    let bank := bankOfOff (256 * g.next)
    let waits := s.pcWaits m old || s.pcWaits m g.spare || s.nbrWaits m old bank || s.nbrWaits m g.spare bank
    (s.mcState m ≠ 2 ∨ waits = true → exec (.migrationBlockCopy m ecc) s = .next s) ∧
    (s.mcState m = 2 → waits = false → ∃ t, exec (.migrationBlockCopy m ecc) s = .next t ∧ t.spad = s.spad ∧ s.NetKept t ∧
      (∀ j, j < 256 → Memory.get t.hbm (dst + j) =
        (eccWord (s.hbmEcc a ecc (j / 8)) (Memory.word s.hbm (src + 8 * (j / 8)))).extractLsb' (8 * (j % 8)) 8) ∧
      (∀ k, k < 32 → tget (fun _ => false) t.hbmBad (dst + 8 * k) =
        (match s.hbmEcc a ecc k with
         | .uncorrected _ => true
         | _ => false)) ∧
      (∀ x, x < dst ∨ dst + 256 ≤ x → Memory.get t.hbm x = Memory.get s.hbm x) ∧
      t.fld (Reg.mcMigstat m) 21 0 = g.next + 1 ∧
      s.RegsKept t ([Reg.mcRdpcnt m, Reg.mcMigstat m, Reg.mcEcc m, Reg.mcUeaddrLo m, Reg.mcUeaddrHi m, Reg.mcUecyc m] ++
        if g.next + 1 = pcBlocks then [Reg.mcPcmap m g.lpc] else []) ∧
      (g.next + 1 ≠ pcBlocks → (t.mc m).mig = some { g with next := g.next + 1 } ∧ t.dev = s.dev) ∧
      (g.next + 1 = pcBlocks → (t.mc m).mig = none ∧ t.pcOf m g.lpc = g.spare ∧
        tget (fun k => k % 62) t.dev.pcmap (62 * m + g.lpc) = g.spare ∧ t.dev.gen = s.dev.gen + 1 ∧
        t.flag (Reg.mcMigstat m) 28 = false ∧ t.flag (Reg.mcMigstat m) 31 = true))

/-- MC_INIT_DONE, MC_WAKE, MC_WAKE_READY, MC_WAKE_TIMEOUT, SELF_REFRESH_ENTRY, STACK_RAIL_LOSS (R233, R254, R256 to R258; R233's geometry; log 31):
after a supported geometry and a passed training the controller is READY and its stack reads zero; with another geometry or
a failed training it is FAILED and holds no request; a wake that was asked for goes by WAKE to ON and READY, or on the timeout
to FAILED; self-refresh closes every row; lost rails leave FAILED and lose the stack's content. Other stacks keep theirs. -/
def Obligations.ControllersWakeAndFail : Prop :=
  ∀ (s : State) (m : Nat), m < 6 →
    let d := 64 + m
    (∀ (geom : BitVec 32) (ok : Bool) (lrep : Nat), s.mcState m ≠ 1 → exec (.mcInitDone m geom ok lrep) s = .next s) ∧
    (∀ (geom : BitVec 32) (lrep : Nat), s.mcState m = 1 → geom &&& 0x00FFFFFF#32 = State.fittedGeom →
      ∃ t, exec (.mcInitDone m geom true lrep) s = .next t ∧ t = { s with regs := t.regs, hbm := t.hbm, hbmBad := t.hbmBad } ∧
        s.RegsKept t [Reg.mcGeom m, Reg.mcLink m, Reg.mcStat m] ∧ t.mcState m = 2 ∧
        t.reg (Reg.mcGeom m) = State.fittedGeom ∧ t.fld (Reg.mcLink m) 15 8 = lrep % 256 ∧
        (∀ a, tget (fun _ => false) t.hbmBad a = (a / 2 ^ 36 != m && tget (fun _ => false) s.hbmBad a)) ∧
        ∀ a, Memory.get t.hbm a = if a / 2 ^ 36 = m then 0 else Memory.get s.hbm a) ∧
    (∀ (geom : BitVec 32) (ok : Bool) (lrep : Nat), s.mcState m = 1 →
      (ok = false ∨ geom &&& 0x00FFFFFF#32 ≠ State.fittedGeom) → ∃ t, exec (.mcInitDone m geom ok lrep) s = .next t ∧
      t.mcState m = 5 ∧ (t.mc m).ready = [] ∧ (∀ p, t.mcQueue m p = []) ∧ t.fld (Reg.mcLink m) 15 8 = lrep % 256 ∧
      s.MemoryKept t) ∧
    ((s.domState d ≠ 0 ∨ (s.pw d).wake = false) → exec (.mcWake m) s = .next s) ∧
    (s.domState d = 0 → (s.pw d).wake = true → ∃ t, exec (.mcWake m) s = .next t ∧
      t = { s with regs := t.regs, pwr := t.pwr } ∧ s.OnlyField { t with pwr := s.pwr } (Reg.pwrDom d) 26 24 ∧
      t.domState d = 1 ∧ t.pw d = Pwr.empty) ∧
    (s.domState d ≠ 1 → exec (.mcWakeReady m) s = .next s ∧ exec (.mcWakeTimeout m) s = .next s) ∧
    (s.domState d = 1 → ∃ t, exec (.mcWakeReady m) s = .next t ∧ t.domState d = 2 ∧
      t.mcState m = (if s.mcState m = 0 then 2 else s.mcState m) ∧ s.MemoryKept t ∧
      (s.queueAt (mcNode m) = [] → t = { s with regs := t.regs, epq := t.epq } ∧ s.RegsKept t [Reg.pwrDom d, Reg.mcStat m])) ∧
    (s.domState d = 1 → ∃ t, exec (.mcWakeTimeout m) s = .next t ∧ t.domState d = 2 ∧ t.mcState m = 5 ∧ s.MemoryKept t) ∧
    ((s.domState d ≠ 5 ∨ (s.pw d).acked = false) → exec (.selfRefreshEntry m) s = .next s) ∧
    (s.domState d = 5 → (s.pw d).acked = true → ∃ t, exec (.selfRefreshEntry m) s = .next t ∧
      t = { s with regs := t.regs, mcs := t.mcs, pwr := t.pwr } ∧ s.RegsKept t [Reg.mcStat m] ∧
      t.mcState m = (if s.mcState m = 3 then 4 else s.mcState m) ∧
      (∀ p b, t.openRow m p b = none) ∧ t.pw d = { s.pw d with sref := true }) ∧
    ∃ t, exec (.stackRailLoss m) s = .next t ∧ t.mcState m = 5 ∧ (∀ a, Memory.get t.spad a = Memory.get s.spad a) ∧
      ∀ a, Memory.get t.hbm a = if a / 2 ^ 36 = m then 0 else Memory.get s.hbm a

/-! ### Power domains -/

/-- PWR_DOWN_REQUEST, PWR_ON_REQUEST, POINT_OF_NO_RETURN, DOMAIN_OFF, DOMAIN_WAKE, DOMAIN_ON, DOMAIN_WAKE_TIMEOUT (R287, R288, R298, R299, R449,
R481; a port wakes by the same commands): a request that nothing keeps waiting, to power down, takes an ON domain to PDOWN or, a
privileged one, to DUSK, and one that is refused sets ERR; a power-on request cancels PDOWN, or is kept until the domain
is OFF, and the host's sets ERR under LOCK; then an ordinary domain goes by its point of no return to OFF, where what
it holds is lost and no byte of a memory is, and by WAKE to ON or FAILED; requests that waited for it are then taken to be
served, or answered ERROR. In another state each of these does nothing. -/
def Obligations.DomainsPowerDownAndUp : Prop :=
  ∀ (s : State) (k : Nat), k < 81 →
    let r := Reg.pwrDom k
    let node := domainNode k
    let ordinary := State.privileged k = false
    let port := decide (70 ≤ k ∧ k ≤ 77)
    (∀ (who : Who) (v : BitVec 32), s.regNow who r true false (setBits v 31 30 3) = true →
      (s.downRefused who k = false → ∃ t, exec (.pwrDownRequest who k v) s = .next t ∧
        t = { s with regs := t.regs, pwr := t.pwr } ∧ s.RegsKept t [r] ∧ t.flag r 30 = true ∧
        t.domState k = (if State.privileged k then 5 else 3) ∧ t.pw k = Pwr.empty ∧ ∀ j, j ≠ k → t.pw j = s.pw j) ∧
      (s.downRefused who k = true → ∃ t, exec (.pwrDownRequest who k v) s = .next t ∧
        t = { s with regs := t.regs, net := t.net } ∧ s.NetKept t ∧ s.OnlyField { t with net := s.net } r 29 29 ∧
        t.flag r 29 = true)) ∧
    (∀ (who : Who) (v : BitVec 32), s.regNow who r true false (setBits v 31 30 2) = true →
      ((s.flag Reg.pwrCtrl 0 = true ∧ who = .host) → ∃ t, exec (.pwrOnRequest who k v) s = .next t ∧
        t = { s with regs := t.regs, net := t.net } ∧ s.NetKept t ∧ s.OnlyField { t with net := s.net } r 29 29 ∧
        t.flag r 29 = true) ∧
      ((s.flag Reg.pwrCtrl 0 = false ∨ who ≠ .host) → ∃ t, exec (.pwrOnRequest who k v) s = .next t ∧
        t = { s with regs := t.regs, pwr := t.pwr } ∧ s.RegsKept t [r] ∧ t.flag r 30 = false ∧
        t.domState k = (if s.domState k = 3 then 2 else s.domState k) ∧ (∀ j, j ≠ k → t.pw j = s.pw j) ∧
        t.pw k = if s.domState k = 0 ∨ s.domState k = 4 ∨ s.domState k = 5 then { s.pw k with wake := true } else s.pw k)) ∧
    (ordinary →
      (s.domState k ≠ 3 → exec (.pointOfNoReturn k) s = .next s) ∧
      (s.domState k = 3 → ∃ t, exec (.pointOfNoReturn k) s = .next t ∧ s.OnlyField t r 26 24 ∧ t.domState k = 4) ∧
      (s.domState k ≠ 4 → exec (.domainOff k) s = .next s) ∧
      (s.domState k = 4 → ∃ t, exec (.domainOff k) s = .next t ∧ t.domState k = 0 ∧ s.MemoryKept t ∧ t.seq = s.seq ∧
        (k < 64 → (∀ c, c < 72 → t.clu k c = Cluster.empty) ∧ ∀ t' c, t' ≠ k → c < 72 → t.clu t' c = s.clu t' c) ∧
        (k = 78 → t.tt = Tt.empty) ∧ (k = 79 → t.ss = Ss.empty ∧ t.tick = 0) ∧
        (k = 80 → t.tio = { Tio.empty with levels := s.tio.levels, safe := s.tio.safe }))) ∧
    ((ordinary ∨ port = true) →
      (s.domState k ≠ 0 → exec (.domainWake k) s = .next s) ∧
      (s.domState k = 0 → (s.pw k).wake = true → ∃ t, exec (.domainWake k) s = .next t ∧
        t = { s with regs := t.regs, pwr := t.pwr } ∧ s.OnlyField { t with pwr := s.pwr } r 26 24 ∧ t.domState k = 1 ∧
        t.pw k = Pwr.empty) ∧
      (s.domState k = 0 → (s.pw k).wake = false → (port = true ∨ s.domainWanted k = false) →
        exec (.domainWake k) s = .next s) ∧
      (s.domState k = 0 → (s.pw k).wake = false → port = false → s.domainWanted k = true →
        ∃ t, exec (.domainWake k) s = .next t ∧ t = { s with regs := t.regs, pwr := t.pwr } ∧
          s.RegsKept t [r, Reg.pwrCnt k] ∧ t.domState k = 1 ∧ t.pw k = { s.pw k with want := false } ∧
          t.fld (Reg.pwrCnt k) 31 16 = min (s.fld (Reg.pwrCnt k) 31 16 + 1) 65535) ∧
      (s.domState k ≠ 1 → exec (.domainOn k) s = .next s) ∧
      (s.domState k = 1 → (k = 79 → s.pm.owed = none) → ∃ t, exec (.domainOn k) s = .next t ∧ t.domState k = 2 ∧
        s.MemoryKept t ∧ (port = true → t.lnkState (k - 70) = 0) ∧ (k = 78 → t.pm.fid = false) ∧
        (s.queueAt node = [] → (k = 78 → s.pm.fid = false) → port = false →
          t = { s with regs := t.regs, epq := t.epq } ∧ s.OnlyField { t with epq := s.epq } r 26 24) ∧
        ((∀ pk ∈ s.queueAt node, s.needsDomain node pk = some k ∧ s.regionWaits node pk = false ∧ s.lockWaits node pk = false) →
          t.srvAt node = s.srvAt node ++ s.queueAt node ∧ t.queueAt node = [])) ∧
      (s.domState k = 1 → k = 79 → exec (.domainOn k) s = .next ((s.setDomState 79 2).drainQueue ssNode).ckOwed) ∧
      (s.comingOn k = false → exec (.domainWakeTimeout k) s = .next s) ∧
      (s.comingOn k = true → ∃ t, exec (.domainWakeTimeout k) s = .next t ∧ t.domState k = 6 ∧ s.MemoryKept t ∧
        ((∀ pk ∈ s.queueAt node, s.needsDomain node pk = some k) → t.srv = s.srv ∧ t.queueAt node = [] ∧
          ∃ l : List Flight, (∀ f ∈ l, f.pk.cmd = 8) ∧
            t.net = s.net ++ l ++ (s.queueAt node).map fun pk => Flight.mk (State.respOf pk node 1 []) node)))

/-- DUSK_FENCE, DUSK_DRAIN_COMPLETE, DUSK_OFF (R254, R334): the fence ends a controller's migration and shows FENCED, and waits for one
that initialises; once nothing is under way the domain acknowledges; then it switches off, the stack of a controller keeping
every byte, a port showing its link down. -/
def Obligations.DuskHandshake : Prop :=
  ∀ (s : State) (k : Nat), 64 ≤ k → k < 78 →
    let m := k - 64
    let busy := if k < 70 then s.mcBusy m else s.portBusy (k - 70)
    (s.domState k ≠ 5 → exec (.duskFence k) s = .next s ∧ exec (.duskDrainComplete k) s = .next s ∧
      exec (.duskOff k) s = .next s) ∧
    (s.domState k = 5 →
      (((s.pw k).fence = true ∨ (k < 70 ∧ s.mcState m = 1)) → exec (.duskFence k) s = .next s) ∧
      ((s.pw k).fence = false → (k < 70 → s.mcState m ≠ 1) → ∃ t, exec (.duskFence k) s = .next t ∧
        t = { s with regs := t.regs, mcs := t.mcs, pwr := t.pwr, net := t.net } ∧ s.NetKept t ∧
        t.pw k = { s.pw k with fence := true } ∧ (∀ j, j ≠ k → t.pw j = s.pw j) ∧
        (k < 70 → s.RegsKept t [Reg.mcStat m, Reg.mcMigstat m] ∧ t.mc m = { s.mc m with mig := none } ∧
          t.mcState m = (if s.mcState m = 2 then 3 else s.mcState m) ∧
          ((s.mc m).mig ≠ none → t.flag (Reg.mcMigstat m) 28 = false ∧ t.flag (Reg.mcMigstat m) 30 = true)) ∧
        (70 ≤ k → t.regs = s.regs ∧ t.mcs = s.mcs ∧ t.net = s.net)) ∧
      (((s.pw k).fence = false ∨ busy = true) → exec (.duskDrainComplete k) s = .next s) ∧
      ((s.pw k).fence = true → busy = false → ∃ t, exec (.duskDrainComplete k) s = .next t ∧ t = { s with pwr := t.pwr } ∧
        t.pw k = { s.pw k with acked := true } ∧ ∀ j, j ≠ k → t.pw j = s.pw j) ∧
      (((s.pw k).acked = false ∨ (k < 70 ∧ (s.pw k).sref = false)) → exec (.duskOff k) s = .next s) ∧
      ((s.pw k).acked = true → (k < 70 → (s.pw k).sref = true) → ∃ t, exec (.duskOff k) s = .next t ∧ t.domState k = 0 ∧
        s.MemoryKept t ∧ (t.pw k).wake = (s.pw k).wake ∧ (t.pw k).acked = false ∧
        (k < 70 → t.mcState m = (if s.mcState m = 4 then 0 else s.mcState m) ∧ t.mc m = { Mc.empty with rfm := (s.mc m).rfm }) ∧
        (70 ≤ k → t.lnkState (k - 70) = 5 ∧ t.port (k - 70) = Port.empty)))

/-! ### The fabric -/

/-- PORT_SIGNAL_DETECT, PORT_TRAIN_COMPLETE, PORT_TRAIN_TIMEOUT, LANE_LOSS_OF_LOCK, FAR_END_RETRAIN, LNK_RETRAIN (R303, R332 to R336, R345;
a far end that stops: log 70): an enabled port with power that sees a signal trains; with 16 lanes in time it is UP on the
lowest 16 that pass, tells its PREPLY and routes what was held for it; otherwise it is FAILED and holds nothing; an UP port
that loses a lane in use, whose far end retrains, or that is told to, retrains, and a packet that waits there is held at
its route's port; a FAILED one that is told to trains; ENABLE = 0 takes a port to DOWN. In any other state nothing happens. -/
def Obligations.PortStates : Prop :=
  ∀ (s : State) (p : Nat), p < 8 →
    let k := Reg.lnkStat p
    let x := s.port p
    let quiet := x.svcQ = [] ∧ x.bulkQ = []
    let left := fun (t : State) (st : Nat) => t.lnkState p = st ∧ t.flag (Reg.lnkPeer p) 31 = false ∧ s.MemoryKept t ∧
      (quiet → ∀ q, t.port q = s.port q) ∧
      ∀ f, x.svcQ = [f] → x.svcPos = 0 → x.bulkQ = [] → bits (s.route f.e f.dest) 2 0 = p →
        (s.route f.e f.dest).getLsbD 30 = false → (t.port p).svcQ = [] ∧ (t.port p).heldPk = x.heldPk ++ [f]
    (s.lnkState p = 0 → s.flag (Reg.lnkCtrl p) 30 = true → s.domState (70 + p) = 2 →
      ∃ t, exec (.portSignalDetect p) s = .next t ∧ s.OnlyField t k 31 29 ∧ t.lnkState p = 1) ∧
    ((s.lnkState p ≠ 0 ∨ s.flag (Reg.lnkCtrl p) 30 = false ∨ s.domState (70 + p) ≠ 2) →
      exec (.portSignalDetect p) s = .next s) ∧
    (∀ pass, s.lnkState p ≠ 1 → s.lnkState p ≠ 3 →
      exec (.portTrainComplete p pass) s = .next s ∧ exec (.portTrainTimeout p pass) s = .next s) ∧
    (∀ pass, (s.lnkState p = 1 ∨ s.lnkState p = 3) → 16 ≤ ones pass →
      (∃ t, exec (.portTrainComplete p pass) s = .next t ∧ t.lnkState p = 2 ∧ t.fld k 17 0 = (State.lanesOf pass).toNat ∧
        s.MemoryKept t ∧
        ((∀ q, q < 8 → (s.port q).heldPk = []) → t = { s with regs := t.regs, ports := t.ports } ∧ s.RegsKept t [k] ∧
          s.PortsKept t p ∧ ∃ w, t.port p = { x with resend := 0, ctrlOut := x.ctrlOut ++ [w, s.fabIdentity] } ∧
            State.recKind w = 7 ∧ w.getLsbD 55 = s.fabAv ∧ bits w 54 44 = s.fabAddr ∧ bits w 43 41 = p) ∧
        ∀ f q, q < 8 → (s.port q).heldPk = [f] → (∀ j, j < 8 → j ≠ q → (s.port j).heldPk = []) → f.late = false →
          State.hopsOut f ≤ 31 → f.bulk = false → (s.route f.e f.dest).getLsbD 31 = true → bits (s.route f.e f.dest) 2 0 = p →
          (t.port q).heldPk = [] ∧ (t.port p).svcQ = x.svcQ ++ [f])) ∧
    (∀ pass, (s.lnkState p = 1 ∨ s.lnkState p = 3) →
      (ones pass < 16 → ∃ t, exec (.portTrainComplete p pass) s = .next t ∧ t.lnkState p = 4 ∧ (t.port p).heldPk = [] ∧
        (t.port p).svcQ = [] ∧ (t.port p).bulkQ = [] ∧ s.MemoryKept t) ∧
      ∃ t, exec (.portTrainTimeout p pass) s = .next t ∧ t.lnkState p = 4 ∧ (t.port p).heldPk = [] ∧
        (t.port p).svcQ = [] ∧ (t.port p).bulkQ = [] ∧ s.MemoryKept t) ∧
    (∀ lane, (s.lnkState p ≠ 2 ∨ 18 ≤ lane ∨ s.flag k lane = false) → exec (.laneLossOfLock p lane) s = .next s) ∧
    (∀ lane, s.lnkState p = 2 → lane < 18 → s.flag k lane = true → ∃ t, exec (.laneLossOfLock p lane) s = .next t ∧
      left t 3 ∧ t.flag (Reg.lnkErr p) 31 = true) ∧
    (∀ stop, s.lnkState p ≠ 2 → exec (.farEndRetrain ⟨p, stop⟩) s = .next s) ∧
    (∀ stop, s.lnkState p = 2 → ∃ t, exec (.farEndRetrain ⟨p, stop⟩) s = .next t ∧ left t (if stop then 1 else 3) ∧
      t = { s with regs := t.regs, ports := t.ports, net := t.net } ∧ s.NetKept t ∧
      (quiet → s.RegsKept t [Reg.lnkPeer p, k, Reg.lnkHold p])) ∧
    ∀ v : BitVec 32, s.regNow .host (Reg.lnkCtrl p) true false (setBit v 31 true) = true →
      let on := if s.flag (Reg.lnkCtrl p) 0 then s.flag (Reg.lnkCtrl p) 30 else v.getLsbD 30
      (on = true → s.lnkState p = 2 → ∃ t, exec (.lnkRetrain p v) s = .next t ∧ left t 3 ∧
        t = { s with regs := t.regs, ports := t.ports, net := t.net } ∧ s.NetKept t ∧
        (quiet → s.RegsKept t [Reg.lnkCtrl p, Reg.lnkPeer p, k, Reg.lnkHold p])) ∧
      (on = true → s.lnkState p = 4 → ∃ t, exec (.lnkRetrain p v) s = .next t ∧ s.OnlyRegs t [Reg.lnkCtrl p, k] ∧
        t.lnkState p = 1) ∧
      (on = true → s.lnkState p ≠ 2 → s.lnkState p ≠ 4 → ∃ t, exec (.lnkRetrain p v) s = .next t ∧
        s.OnlyRegs t [Reg.lnkCtrl p]) ∧
      (on = false → s.lnkState p ≠ 5 → ∃ t, exec (.lnkRetrain p v) s = .next t ∧ left t 0 ∧ t.fld k 17 0 = 0) ∧
      (on = false → s.lnkState p = 5 → ∃ t, exec (.lnkRetrain p v) s = .next t ∧ s.OnlyRegs t [Reg.lnkCtrl p])

/-- CODEWORD_RECEIVE, FLIT_SEND, REPLAY_TIMEOUT (R304 to R308, R311, R313, R326; log 98): a flit whose CRC and SEQ are right joins its
stream: the packets that are then whole have arrived, and a slice gives its lane-byte to the port side; an
acknowledgement frees the replay buffer; a flit with a wrong CRC or SEQ is discarded, the first of them answered with a NAK of the
SEQ expected, and beyond RPLIM episodes in 1 ms the port retrains; the decoder's outcome is counted. A flit of the next
class takes the next SEQ and stays in the replay buffer; with none, or a full buffer, an IDLE leaves; a replay sends the next
flit of the buffer again; a timeout starts it from the oldest. A port that is not UP does none of these. -/
def Obligations.FlitsOnTheLink : Prop :=
  ∀ (s : State) (p : Nat), p < 8 →
    let x := s.port p
    let crc := fun (f : Flit) => (crc32Bits (bitsDown (f.toNat / 2 ^ 32) 992)).toNat
    let recent := (x.epis.filter fun m => decide (s.us.toNat < m + 1000)).length
    let few := decide (recent < s.fld (Reg.lnkCtrl p) 15 8)
    let empty := x.replay = []
    (s.lnkState p ≠ 2 → (∀ o l, exec (.codewordReceive p o l) s = .next s) ∧ exec (.flitSend p) s = .next s ∧
      exec (.replayTimeout p) s = .next s) ∧
    (s.lnkState p = 2 →
      (exec (.codewordReceive p .ok []) s = .next s) ∧
      (∃ t, exec (.codewordReceive p .corrected []) s = .next t ∧ s.OnlyField t (Reg.lnkFec p) 31 16 ∧
        t.fld (Reg.lnkFec p) 31 16 = min (s.fld (Reg.lnkFec p) 31 16 + 1) 65535) ∧
      (∃ t, exec (.codewordReceive p .uncorrectable []) s = .next t ∧ s.OnlyField t (Reg.lnkFec p) 15 0 ∧
        t.fld (Reg.lnkFec p) 15 0 = min (s.fld (Reg.lnkFec p) 15 0 + 1) 65535) ∧
      (∀ f : Flit, bits f 31 0 = crc f →
        (f.getLsbD 995 = true → State.flitType f = 0 →
          let n := (bits f 1007 996 + 1 + 4096 - x.nextSeq + x.replay.length) % 4096
          n ≤ x.replay.length → ∃ t, exec (.codewordReceive p .ok [f]) s = .next t ∧ t = { s with ports := t.ports } ∧
            s.PortsKept t p ∧ t.port p = { x with replay := x.replay.drop n, resend := x.resend - n }) ∧
        (f.getLsbD 995 = false → bits f 1019 1008 = x.expSeq →
          let y : Port := { x with expSeq := (x.expSeq + 1) % 4096, episode := false, ackOut := some x.expSeq }
          (∀ bulk, State.flitType f = (if bulk then 3 else 2) →
            let l := (if bulk then x.bulkIn else x.svcIn) ++ State.payloadWords f
            let r := State.takePackets p bulk l.length l
            ∃ t, exec (.codewordReceive p .ok [f]) s = .next t ∧ t = { s with ports := t.ports } ∧ s.PortsKept t p ∧
              t.port p = (if bulk then { y with bulkIn := r.2, arrived := x.arrived ++ r.1 }
                else { y with svcIn := r.2, arrived := x.arrived ++ r.1 })) ∧
          (∀ j tag d, State.flitType f = 1 → j < 128 → tag < 16 → d < 256 → x.schedIn = ⟨0, 0⟩ → x.closed = false →
            bits f 991 32 = (((tag * 16 + j / 16) * 2 ^ 16 + 2 ^ (j % 16)) * 2 ^ 8 + d) * 2 ^ 928 →
            (s.reg (Reg.lnkChrx p j)).getLsbD 31 = true → bits (s.reg (Reg.lnkChrx p j)) 30 29 = 1 →
            ∃ t, exec (.codewordReceive p .ok [f]) s = .next t ∧ t = { s with ports := t.ports } ∧ s.PortsKept t p ∧
              ∀ i, tget (fun _ => []) (t.port p).rx i = tget (fun _ => []) x.rx i ++
                if i = j then [mkLaneByte tag (BitVec.ofNat 8 d)] else [])) ∧
        (State.flitType f ≠ 0 → f.getLsbD 995 = false → bits f 1019 1008 ≠ x.expSeq → x.episode = true →
          exec (.codewordReceive p .ok [f]) s = .next s)) ∧
      (∀ f : Flit, (bits f 31 0 ≠ crc f ∨
          (State.flitType f ≠ 0 ∧ f.getLsbD 995 = false ∧ bits f 1019 1008 ≠ x.expSeq)) → x.episode = false → x.expSeq < 4096 →
        ∃ t, exec (.codewordReceive p .ok [f]) s = .next t ∧ (t.port p).episode = true ∧ (t.port p).expSeq = x.expSeq ∧
          (t.port p).arrived = x.arrived ∧ s.MemoryKept t ∧ t.lnkState p = (if few then 2 else 3) ∧
          (few = true → t = { s with regs := t.regs, ports := t.ports } ∧ s.PortsKept t p ∧ s.RegsKept t [Reg.lnkReplay p]) ∧
          ∃ w, (t.port p).ctrlOut = x.ctrlOut ++ [w] ∧ State.recKind w = 5 ∧ bits w 55 44 = x.expSeq) ∧
      (∀ f, x.replay[x.resend]? = some f → (x.closed = false ∨ State.flitType f ≠ 1) →
        ∃ t, exec (.flitSend p) s = .next t ∧ t = { s with ports := t.ports } ∧
          s.PortsKept t p ∧ t.port p = { x with resend := x.resend + 1, sent := State.sealFlit x f }) ∧
      ((x.replay[x.resend]? = none → 1024 ≤ x.replay.length ∨ s.nextClass p = 0) →
        (∀ f, x.replay[x.resend]? = some f → x.closed = true ∧ State.flitType f = 1) →
        ∃ t, exec (.flitSend p) s = .next t ∧ t = { s with ports := t.ports } ∧ s.PortsKept t p ∧
          t.port p = { x with sent := State.sealFlit x 0 }) ∧
      (x.replay[x.resend]? = none → x.replay.length < 1024 → s.nextClass p ≠ 0 → x.nextSeq < 4096 →
        let c := s.nextClass p
        let words := if c = 4 then x.ctrlOut.take 15 else (s.classWords p (c == 3)).take 15
        ∃ t, exec (.flitSend p) s = .next t ∧ s.MemoryKept t ∧ (t.port p).nextSeq = (x.nextSeq + 1) % 4096 ∧
          (c ≠ 1 → t = { s with ports := t.ports }) ∧ (c = 4 → s.PortsKept t p ∧ (t.port p).ctrlOut = x.ctrlOut.drop 15) ∧
          (c = 2 → (t.port p).credV = x.credV - words.length) ∧ (c = 3 → (t.port p).credB = x.credB - words.length) ∧
          ∃ f, (t.port p).replay = x.replay ++ [f] ∧ State.flitType f = c ∧ bits f 1019 1008 = x.nextSeq ∧
            (t.port p).sent = State.sealFlit x f ∧ (t.port p).resend = x.replay.length + 1 ∧
            bits f 991 32 = (if c = 1 then (s.schedPayload p).1 else State.payloadOf words).toNat) ∧
      (empty → exec (.replayTimeout p) s = .next s) ∧
      (¬ empty → ∃ t, exec (.replayTimeout p) s = .next t ∧ (t.port p).resend = 0 ∧ (t.port p).replay = x.replay ∧
        s.MemoryKept t ∧ t.fld (Reg.lnkReplay p) 31 16 = min (s.fld (Reg.lnkReplay p) 31 16 + 1) 65535 ∧
        t.lnkState p = (if few then 2 else 3) ∧ (few = true → s.PortsKept t p)))

/-- CREDIT, NAK, PROBE, TOKEN, HALT, RESUME (R306, R307, R323, R329, R338, R339, R377, R499): the record at the head of the CTRL words
leaves them, with the zero words of fill behind it, and acts: credits are added; the replay goes back to the flit a NAK names, and
an UP port retrains when the episodes of the last 1 ms pass the limit (log 69); a configured device answers a probe
with a PREPLY; a token for this device from a midnight neighbour, of the present or the next cycle, is recorded, one for
another device goes out on the route's port, and any other is discarded and reported; a flood seen before does nothing, a
new HALT arms the midnight it names, a new RESUME of a device not halted withdraws it, and every point of a device with
midnight neighbours. Without a record of the kind at the head nothing happens. -/
def Obligations.ControlRecordsAct : Prop :=
  (∀ (s : State) (p : Nat), p < 8 → ((s.port p).ctrlIn = [] ∨ ∃ w l, (s.port p).ctrlIn = w :: l ∧ 6 < State.recKind w) →
    exec (.credit p) s = .next s ∧ exec (.nak p) s = .next s ∧ exec (.probe p) s = .next s ∧ exec (.token p) s = .next s ∧
    exec (.halt p) s = .next s ∧ exec (.resume p) s = .next s) ∧
  ∀ (s : State) (p : Nat) (w : BitVec 64) (rest : List (BitVec 64)), p < 8 → (s.port p).ctrlIn = w :: rest →
    let left := rest.dropWhile fun z => z == 0
    (∀ z, left.head? = some z → 1 ≤ State.recKind z ∧ State.recKind z ≤ 11) →
    let u := s.setPort p { s.port p with ctrlIn := left }
    let x := u.port p
    let n := bits w 15 0
    (State.recKind w = 4 → ∃ t, exec (.credit p) s = .next t ∧ t = { s with ports := t.ports } ∧ s.PortsKept t p ∧
      t.port p = match bits w 55 54 with
        | 0 => { x with credS := tput (fun _ => 1024) (bits w 53 47) (u.credit p (bits w 53 47) + n) x.credS }
        | 1 => { x with credV := x.credV + n }
        | 2 => { x with credB := x.credB + n }
        | _ => x) ∧
    (State.recKind w = 5 →
      let i := (bits w 55 44 + 8192 - x.nextSeq + x.replay.length) % 4096
      let few := decide ((x.epis.filter fun m => decide (s.us.toNat < m + 1000)).length < s.fld (Reg.lnkCtrl p) 15 8)
      (x.replay.length ≤ i → exec (.nak p) s = .next u) ∧
      (i < x.replay.length → ∃ t, exec (.nak p) s = .next t ∧ (t.port p).resend = i ∧ (t.port p).replay = x.replay ∧
        s.MemoryKept t ∧ t.lnkState p = (if s.lnkState p = 2 ∧ few = false then 3 else s.lnkState p) ∧
        ((s.lnkState p ≠ 2 ∨ few = true) → t = { s with ports := t.ports } ∧ s.PortsKept t p))) ∧
    (State.recKind w = 6 →
      (s.fld Reg.ceStat 31 29 = 5 → exec (.probe p) s = .next u) ∧
      (s.fld Reg.ceStat 31 29 ≠ 5 → ∃ t, exec (.probe p) s = .next t ∧ t = { s with ports := t.ports, fab := t.fab } ∧
        t.fab = { s.fab with root := if s.fabAv then s.fab.root else bits w 41 0 } ∧ s.PortsKept t p ∧
        ∃ v, t.port p = { x with ctrlOut := x.ctrlOut ++ [v, s.fabIdentity] } ∧ State.recKind v = 7 ∧
          v.getLsbD 55 = s.fabAv ∧ bits v 54 44 = s.fabAddr ∧ bits v 43 41 = p)) ∧
    (State.recKind w = 1 →
      let dst := bits w 54 44
      let src := bits w 43 33
      let cyc : BitVec 32 := w.setWidth 32
      let r := s.route (w.getLsbD 55) dst
      let mine := s.fabOwn dst
      let known := s.seq.neigh.contains src
      let near := decide (cyc = s.seq.cycle.setWidth 32 ∨ cyc = s.seq.cycle.setWidth 32 + 1)
      (mine = true → known = true → near = true → ∃ t, exec (.token p) s = .next t ∧
        t = { u with seq := { s.seq with tok := if s.seq.tok.contains ⟨src, cyc⟩ then s.seq.tok else s.seq.tok ++ [⟨src, cyc⟩] } }) ∧
      (mine = false → r.getLsbD 31 = true → ∃ t, exec (.token p) s = .next t ∧
        let q := (s.routePort r).getD (bits r 2 0)
        t = { s with ports := t.ports } ∧ (t.port p).ctrlIn = left ∧
        ∃ v, (t.port q).ctrlOut = (s.port q).ctrlOut ++ [v] ∧ State.recKind v = 1 ∧ bits v 54 44 = dst ∧
          bits v 43 33 = src ∧ v.getLsbD 55 = w.getLsbD 55 ∧ v.setWidth 32 = cyc) ∧
      (((mine = true ∧ (known = false ∨ near = false)) ∨ (mine = false ∧ r.getLsbD 31 = false)) →
        ∃ t, exec (.token p) s = .next t ∧ t.flag Reg.fabTok 30 = true ∧ t.seq = s.seq ∧ t.ports = u.ports ∧ s.NetKept t ∧
          s.MemoryKept t)) ∧
    (s.fab.seenSeq = some (bits w 55 48) →
      (State.recKind w = 2 → exec (.halt p) s = .next u) ∧ (State.recKind w = 3 → exec (.resume p) s = .next u)) ∧
    (s.fab.seenSeq ≠ some (bits w 55 48) →
      (State.recKind w = 2 → ∃ t, exec (.halt p) s = .next t ∧ t.flag Reg.dbgStat 22 = true ∧ t.seq = s.seq ∧
        s.RegsKept t [Reg.dbgStat] ∧ t.fab.seenSeq = some (bits w 55 48) ∧
        (∀ q, q < 8 → q ≠ p → s.lnkState q = 2 → (t.port q).ctrlOut = (s.port q).ctrlOut ++ [w]) ∧
        ∃ pt, t.dbg.points = s.dbg.points ++ [pt] ∧ pt.cause = 6 ∧ pt.step = 0x7FF ∧
          (State.cycBefore (w.setWidth 48) s.seq.cycle = false → pt.cyc = w.setWidth 48)) ∧
      (State.recKind w = 3 → s.flag Reg.dbgStat 31 = false → s.dbg.reached = none →
        ∃ t, exec (.resume p) s = .next t ∧ t.flag Reg.dbgStat 22 = false ∧ t.seq = s.seq ∧ s.RegsKept t [Reg.dbgStat] ∧
        (∀ q, q < 8 → q ≠ p → s.lnkState q = 2 → (t.port q).ctrlOut = (s.port q).ctrlOut ++ [w]) ∧
        t.dbg.points = s.dbg.points.filter fun q => q.cause ≠ 6 && s.fld Reg.seqNbr 11 0 == 0) ∧
      (State.recKind w = 3 → s.seqState = 3 → s.flag Reg.dbgStat 31 = true → ∃ t, exec (.resume p) s = .next t ∧
        t.flag Reg.dbgStat 31 = false ∧ t.flag Reg.dbgStat 22 = false ∧ t.dbg.reached = none ∧ t.seq = s.seq ∧
        t.fab.seenSeq = some (bits w 55 48) ∧ s.MemoryKept t))

/-- PREPLY, CLAIM, EXPLORE, REPORT, UNCLAIM (R316, R318, R321 to R324, R346, R347; log 67, log 92): at an UP port a PREPLY with an address names
the far end in LNK_PEER, and one that is not the far end the running image names closes the port, one that is opens it; the
PREPLY to a probe is reported; a claim gives an unclaimed device its address and a route to every address, and goes on by
the route it makes in a claimed one; an exploration probes the first port when it is UP, or goes on; a report reaches
the root, which records it and claims the unclaimed device found, or goes on; an unclaim clears the address and every route. -/
def Obligations.DiscoveryRecordsAct : Prop :=
  (∀ (s : State) (p : Nat), p < 8 → ((s.port p).ctrlIn = [] ∨ ∃ w l, (s.port p).ctrlIn = w :: l ∧ State.recKind w < 7) →
    exec (.preply p) s = .next s ∧ exec (.claim p) s = .next s ∧ exec (.explore p) s = .next s ∧ exec (.report p) s = .next s ∧
    exec (.unclaim p) s = .next s) ∧
  ∀ (s : State) (p : Nat) (w id : BitVec 64) (rest : List (BitVec 64)), p < 8 →
    (∀ z, rest.head? = some z → 1 ≤ State.recKind z ∧ State.recKind z ≤ 11) →
    let e := bits w 55 45
    let o := bits (s.route false e) 2 0
    let up := bits (s.route false 0) 2 0
    ((s.port p).ctrlIn = w :: id :: rest →
      (State.recKind w = 7 → s.fab.probing ≠ some p → (w.getLsbD 55 = false ∨ s.lnkState p ≠ 2) →
        ∃ t, exec (.preply p) s = .next t ∧ t = { s with ports := t.ports } ∧ s.PortsKept t p ∧
          t.port p = { s.port p with ctrlIn := rest }) ∧
      (State.recKind w = 7 → s.fab.probing = some p → p = 7 → s.fabAddr ≠ 0 → w.getLsbD 55 = false →
        ∃ t, exec (.preply p) s = .next t ∧ t = { s with ports := t.ports, fab := { s.fab with probing := none } } ∧
          (t.port p).ctrlIn = rest ∧ ∃ v, (t.port up).ctrlOut = (s.port up).ctrlOut ++ [v, id] ∧ State.recKind v = 10 ∧
            bits v 55 45 = s.fabAddr ∧ bits v 44 42 = 7 ∧ bits v 41 40 = 1) ∧
      (State.recKind w = 7 → w.getLsbD 55 = true → s.fab.probing ≠ some p → s.lnkState p = 2 →
        let a := bits w 54 44
        let want := tget (fun _ => none) s.fab.peers p
        let peer := BitVec.ofNat 32 (2 ^ 31 + a * 2 ^ 16 + bits w 43 41)
        (want = none ∨ want = some a →
          ∃ t, exec (.preply p) s = .next t ∧ t = { s with regs := t.regs, ports := t.ports } ∧
            s.RegsKept t [Reg.lnkPeer p] ∧ s.PortsKept t p ∧ t.reg (Reg.lnkPeer p) = peer ∧
            t.port p = { s.port p with ctrlIn := rest, closed := if want = none then (s.port p).closed else false }) ∧
        (∀ b, want = some b → b ≠ a → ∃ t, exec (.preply p) s = .next t ∧ (t.port p).closed = true ∧
            t.reg (Reg.lnkPeer p) = peer ∧ t.flag Reg.seqFault 4 = true ∧ t.seq.faulted = (s.seq.run || s.seq.faulted) ∧
            s.PortsKept t p ∧ s.MemoryKept t)) ∧
      (State.recKind w = 10 →
        let far := fun (r a : Nat) => BitVec.ofNat 32 (r * 2 ^ 30 + a * 2 ^ 16 + bits w 28 26)
        (s.fabOwn 0 = false → ∃ t, exec (.report p) s = .next t ∧ t = { s with ports := t.ports } ∧
          (t.port p).ctrlIn = rest ∧ (t.port up).ctrlOut = (s.port up).ctrlOut ++ [w, id]) ∧
        (s.fabOwn 0 = true → s.fab.now ≠ some e → ∃ t, exec (.report p) s = .next t ∧ t = { s with ports := t.ports } ∧
          s.PortsKept t p ∧ t.port p = { s.port p with ctrlIn := rest }) ∧
        (s.fabOwn 0 = true → s.fab.now = some e → (bits w 41 40 = 0 ∨ bits w 41 40 = 2) → bits w 44 42 < 7 →
          ∃ t, exec (.report p) s = .next t ∧ t = { s with ports := t.ports, fab := t.fab } ∧
            tget (fun _ => 0) (t.topoDev e).ports (bits w 44 42) = far (bits w 41 40) (bits w 39 29)) ∧
        (s.fabOwn 0 = true → s.fab.now = some e → bits w 41 40 = 3 → id ≠ 0 → ∃ t, exec (.report p) s = .next t ∧
          t.fld Reg.fabDstat 31 29 = 3 ∧ t.fab.now = none ∧ t.fab.queue = [] ∧
          tget (fun _ => 0) (t.topoDev e).ports (bits w 44 42) = far 3 (bits w 39 29)) ∧
        (s.fabOwn 0 = true → s.fab.now = some e → bits w 41 40 = 1 → s.fab.next ≤ 2047 → bits w 44 42 < 7 →
          (s.fab.topo.any fun y => y.2.id == id) = false →
          ∃ t, exec (.report p) s = .next t ∧ t.fab.next = s.fab.next + 1 ∧ t.fab.queue = s.fab.queue ++ [s.fab.next] ∧
            (t.topoDev s.fab.next).id = id ∧ t.fld Reg.fabDstat 27 16 = s.fab.next + 1 ∧
            t.route false s.fab.next = BitVec.ofNat 32 (2 ^ 31 + if e = 0 then bits w 44 42 else o) ∧
            tget (fun _ => 0) (t.topoDev e).ports (bits w 44 42) = far 2 s.fab.next))) ∧
    ((s.port p).ctrlIn = w :: rest →
      (State.recKind w = 8 →
        let n := bits w 44 34
        (s.fabAv = false → ∃ t, exec (.claim p) s = .next t ∧ t.fabAv = true ∧ t.fabAddr = n ∧
          (∀ a, a < 2048 → t.route false a = BitVec.ofNat 32 (2 ^ 31 + p)) ∧ s.MemoryKept t) ∧
        (s.fabAv = true →
          let r := if s.fabAddr = e then bits w 33 31 else o
          ∃ t, exec (.claim p) s = .next t ∧ t = { s with regs := t.regs, ports := t.ports } ∧
            s.RegsKept t [Reg.fabRt0 n] ∧ t.route false n = BitVec.ofNat 32 (2 ^ 31 + r) ∧ (t.port p).ctrlIn = rest ∧
            (t.port r).ctrlOut = (s.port r).ctrlOut ++ [w])) ∧
      (State.recKind w = 9 →
        (s.fabOwn e = false → ∃ t, exec (.explore p) s = .next t ∧ t = { s with ports := t.ports } ∧
          (t.port p).ctrlIn = rest ∧ (t.port o).ctrlOut = (s.port o).ctrlOut ++ [w]) ∧
        (s.fabOwn e = true → s.lnkState 0 = 2 → ∃ t, exec (.explore p) s = .next t ∧
          t = { s with ports := t.ports, fab := { s.fab with probing := some 0 } } ∧ (t.port p).ctrlIn = rest ∧
          ∃ v, (t.port 0).ctrlOut = (s.port 0).ctrlOut ++ [v] ∧ State.recKind v = 6 ∧ bits v 55 45 = s.fabAddr)) ∧
      (State.recKind w = 11 →
        (s.fab.seenSeq = some (bits w 55 48) → ∃ t, exec (.unclaim p) s = .next t ∧ t = { s with ports := t.ports } ∧
          s.PortsKept t p ∧ t.port p = { s.port p with ctrlIn := rest }) ∧
        (s.fab.seenSeq ≠ some (bits w 55 48) → ∃ t, exec (.unclaim p) s = .next t ∧ t.fabAv = false ∧ t.fabAddr = 0 ∧
          (∀ b a, a < 2048 → t.route b a = resetWord (if b then Reg.fabRt1 a else Reg.fabRt0 a)) ∧
          (∀ q, q < 8 → q ≠ p → s.lnkState q = 2 → (t.port q).ctrlOut = (s.port q).ctrlOut ++ [w]) ∧
          t.fab.seenSeq = some (bits w 55 48) ∧ t.fab.topo = [] ∧ s.MemoryKept t)))

/-- PROBE_TIMEOUT, DISCOVERY_START, EPOCH_SWITCH (R320, R321, R324, R330, R331), the writes being such that nothing keeps them
waiting: a probe without a reply is reported and the next port probed; discovery by an enabled device with no channel loaded makes it
the root with address 0, and with one loaded it has no effect but ERR; a switch toggles the epoch, and a packet of the
new one that was held goes to its route, one of another stays. -/
def Obligations.DiscoveryStartsAndEpochsSwitch : Prop :=
  (∀ (s : State) (p : Nat),
    (s.fab.probing ≠ some p → exec (.probeTimeout p) s = .next s) ∧
    (s.fab.probing = some p → p < 7 → s.lnkState (p + 1) = 2 → ∃ t, exec (.probeTimeout p) s = .next t ∧
      t.fab.probing = some (p + 1) ∧ s.MemoryKept t) ∧
    (s.fab.probing = some p → p = 7 → ∃ t, exec (.probeTimeout p) s = .next t ∧ t.fab.probing = none ∧ s.MemoryKept t)) ∧
  (∀ (s : State) (v : BitVec 32), s.regNow .host Reg.fabCtrl true false (setBit v 31 true) = true →
    let root := if s.flag Reg.fabCtrl 29 then s.flag Reg.fabCtrl 30 else v.getLsbD 30
    (root = false → ∃ t, exec (.discoveryStart v) s = .next t ∧ s.OnlyRegs t [Reg.fabCtrl]) ∧
    (root = true → s.channelLoaded = false → ∃ t, exec (.discoveryStart v) s = .next t ∧ t.fabAv = true ∧ t.fabAddr = 0 ∧
      t.fab.root = s.fabIdentity ∧ s.MemoryKept t) ∧
    (root = true → s.channelLoaded = true → ∃ t, exec (.discoveryStart v) s = .next t ∧
      s.OnlyField t Reg.fabRtCtrl 29 29 ∧ t.flag Reg.fabRtCtrl 29 = true)) ∧
  ∀ (s : State) (v : BitVec 32), s.regNow .host Reg.fabRtCtrl true false (setBit v 31 true) = true →
    ∃ t, exec (.epochSwitch v) s = .next t ∧ t.epoch = (!s.epoch) ∧ s.MemoryKept t ∧
      ((∀ p, p < 8 → (s.port p).heldPk = []) → t = { s with regs := t.regs, ports := t.ports } ∧
        s.RegsKept t [Reg.fabRtCtrl] ∧ ∀ p, p < 8 → t.port p = s.port p) ∧
      ∀ p f, p < 8 → (s.port p).heldPk = [f] → f.late = true → (∀ q, q < 8 → q ≠ p → (s.port q).heldPk = []) →
        (f.e = s.epoch → ∀ q, q < 8 → t.port q = s.port q) ∧
        (∀ q, f.e ≠ s.epoch → (s.route f.e f.dest).getLsbD 31 = true → s.routePort (s.route f.e f.dest) = some q →
          State.hopsOut f ≤ 31 → f.bulk = false → (t.port p).heldPk = [] ∧
            (t.port q).svcQ = (s.port q).svcQ ++ [{ f with late := false }])

/-- FABRIC_PACKET_ROUTE, HOLD_NACK, REMOTE_REQUEST, REMOTE_REQUEST_ARRIVE (R307, R325 to R331, R335; a packet that came with the other
epoch: log 20): a response for this device enters the network; a packet on a valid route joins those that leave on its
port, is held there when the port cannot send, and beyond 31 hops is discarded; without a route a request ends with
ERROR, here or by a response to its source; one of the other epoch is held or routed, as a free value says; a held request
ends with NACK; a request to a valid remote window becomes a remote packet, to an invalid one it ends with ERROR; a
request for this device leaves by the port's master. A packet behind another of its flow, a request behind another of
its source, and a frozen master wait. -/
def Obligations.RemotePackets : Prop :=
  ∀ (s : State) (p i : Nat), p < 8 →
    let x := s.port p
    let node := portNode p
    (x.arrived[i]? = none → exec (.fabricPacketRoute p i) s = .next s) ∧
    (∀ f, x.arrived[i]? = some f →
      let r := s.route f.e f.dest
      let out := bits r 2 0
      let behind := (x.arrived.take i).any (State.sameFlow f)
      let gone := fun (t : State) => (t.port p).arrived = x.arrived.eraseIdx i
      (behind = true ∨ (s.fabOwn f.dest = true ∧ f.pk.cmd ≠ 7) → exec (.fabricPacketRoute p i) s = .next s) ∧
      (behind = false → s.fabOwn f.dest = true → f.pk.cmd = 7 → ∃ t, exec (.fabricPacketRoute p i) s = .next t ∧
        t = { s with ports := t.ports, net := s.net ++ [Flight.mk f.pk node] } ∧ gone t) ∧
      (behind = false → s.fabOwn f.dest = false → (f.port = 8 ∨ (f.port < 8 ∧ f.e = s.epoch)) →
        (∀ q, r.getLsbD 31 = true → s.routePort r = some q → State.hopsOut f ≤ 31 →
          ∃ t, exec (.fabricPacketRoute p i) s = .next t ∧ t = { s with ports := t.ports } ∧ gone t ∧
            t.classQ q f.bulk = ((s.classQ q f.bulk).1 ++ [f], (s.classQ q f.bulk).2)) ∧
        (∀ q, r.getLsbD 31 = true → s.routePort r = some q → 31 < State.hopsOut f →
          ∃ t, exec (.fabricPacketRoute p i) s = .next t ∧ gone t ∧ t.flag (Reg.lnkErr p) 31 = true ∧ s.NetKept t ∧
            s.MemoryKept t) ∧
        (r.getLsbD 31 = true → s.routePort r = none →
          ∃ t, exec (.fabricPacketRoute p i) s = .next t ∧ t = { s with regs := t.regs, ports := t.ports } ∧
            s.RegsKept t [Reg.lnkHold out] ∧ gone t ∧ (t.port out).heldPk = (s.port out).heldPk ++ [f]) ∧
        (r.getLsbD 31 = false → f.port = 8 → f.pk.cmd < 7 →
          ∃ t, exec (.fabricPacketRoute p i) s = .next t ∧ gone t ∧
            t = { s with ports := t.ports, net := s.net ++ [Flight.mk (State.respOf f.pk node 1 []) node] }) ∧
        (r.getLsbD 31 = false → f.port < 8 → f.pk.cmd < 7 →
          ∃ t b, exec (.fabricPacketRoute p i) s = .next t ∧ t = { s with ports := t.ports } ∧
            (t.port p).arrived = x.arrived.eraseIdx i ++ [b] ∧ b.dest = f.src ∧ b.src = s.fabAddr ∧ b.pk.cmd = 7 ∧
            b.pk.resp = 1) ∧
        (r.getLsbD 31 = false → 7 ≤ f.pk.cmd → f.pk.cmd ≤ 8 →
          ∃ t, exec (.fabricPacketRoute p i) s = .next t ∧ t = { s with ports := t.ports } ∧ gone t)) ∧
      (behind = false → s.fabOwn f.dest = false → f.port < 8 → f.e ≠ s.epoch →
        let kept := fun (t : State) => (t.port out).heldPk = (s.port out).heldPk ++ [{ f with late := true }]
        (∀ q, r.getLsbD 31 = true → s.routePort r = some q → State.hopsOut f ≤ 31 →
          ∃ t, exec (.fabricPacketRoute p i) s = .next t ∧ t.free = s.free + 1 ∧ gone t ∧
            (kept t ∨ t.classQ q f.bulk = ((s.classQ q f.bulk).1 ++ [f], (s.classQ q f.bulk).2))) ∧
        (((s.port out).heldPk.any fun g => State.sameFlow f g && g.late) = true →
          ∃ t, exec (.fabricPacketRoute p i) s = .next t ∧ gone t ∧ kept t))) ∧
    (x.heldPk[i]? = none → exec (.holdNack p i) s = .next s) ∧
    (∀ f, x.heldPk[i]? = some f → f.pk.cmd < 7 →
      (f.port = 8 → ∃ t, exec (.holdNack p i) s = .next t ∧
        t = { s with regs := t.regs, ports := t.ports, net := s.net ++ [Flight.mk (State.respOf f.pk node 3 []) node] } ∧
        s.RegsKept t [Reg.lnkHold p] ∧ s.PortsKept t p ∧ t.port p = { x with heldPk := x.heldPk.eraseIdx i }) ∧
      (f.port < 8 → ∃ t b, exec (.holdNack p i) s = .next t ∧ t = { s with regs := t.regs, ports := t.ports } ∧
        s.RegsKept t [Reg.lnkHold p] ∧ (t.port p).heldPk = x.heldPk.eraseIdx i ∧ (t.port p).arrived = x.arrived ++ [b] ∧
        b.dest = f.src ∧ b.pk.cmd = 7 ∧ b.pk.resp = 3)) ∧
    (∀ pk, (s.srvAt node)[i]? = some pk → aSpace pk.addr = 0 → 0x80000 ≤ aOff pk.addr → aOff pk.addr < 0xC0000 →
      let ahead := ((s.srvAt node).take i).any fun g => g.sx == pk.sx && g.sy == pk.sy && g.mid == pk.mid
      let n := (aOff pk.addr - 0x80000) / 0x10000
      let hi := s.reg (Reg.fabRwinHi p n)
      let rest := s.setSrvAt node ((s.srvAt node).eraseIdx i)
      (ahead = true ∨ s.lockWaits node pk = true → exec (.remoteRequest p i) s = .next s) ∧
      (ahead = false → s.lockWaits node pk = false → hi.getLsbD 31 = true → ∃ t f, exec (.remoteRequest p i) s = .next t ∧
        t = { s with srv := rest.srv, ports := t.ports } ∧ s.PortsKept t p ∧
        t.port p = { x with arrived := x.arrived ++ [f] } ∧ f.dest = bits hi 10 0 ∧ f.src = s.fabAddr ∧ f.e = s.epoch ∧
        f.hops = 0 ∧ f.port = 8 ∧ f.bulk = hi.getLsbD 30 ∧ f.pk = { pk with addr := f.pk.addr } ∧
        f.pk.addr.toNat = 2 ^ 16 * (s.reg (Reg.fabRwinLo p n)).toNat + aOff pk.addr % 0x10000) ∧
      (ahead = false → s.lockWaits node pk = false → hi.getLsbD 31 = false → exec (.remoteRequest p i) s =
        .next { s with srv := rest.srv, net := s.net ++ [Flight.mk (State.respOf pk node 1 []) node] })) ∧
    let first := x.arrived.findIdx? fun f => s.fabOwn f.dest && f.pk.cmd != 7
    ((first = none ∨ s.freeSlot node 0 = none ∨ (s.master node 0).frozen = true) → exec (.remoteRequestArrive p) s = .next s) ∧
    ∀ f k d, first = some i → x.arrived[i]? = some f →
      s.freeSlot node 0 = some k → (s.master node 0).frozen = false →
      let pk : Packet := { f.pk with sx := node % 10, sy := node / 10, mid := 0, ctx := s.ctxOf node 0 f.pk.ctx,
                                     slot := k, cls := 0, resp := 0 }
      State.formatCause pk = 0 → s.contextCause pk = 0 → ¬ (aSpace pk.addr = 2 ∧ hbmTop ≤ (State.hbmSpan pk).2) →
      s.destOf pk.addr = some d →
      let g := ((tget (fun _ => Slot.empty) (s.master node 0).slots k).gen + 1) % 64
      ∃ t, exec (.remoteRequestArrive p) s = .next t ∧ t = { s with ports := t.ports, masters := t.masters, net := t.net } ∧
        (t.port p).arrived = x.arrived.eraseIdx i ∧
        (pk.cmd ≠ 8 → t.net = s.net ++ [Flight.mk { pk with dx := d % 10, dy := d / 10, gen := g } node] ∧
          tget (fun _ => none) (t.port p).remote k = some f) ∧
        (pk.cmd = 8 → t.net = s.net ++ [Flight.mk { pk with dx := 0, dy := 0, cls := 2 } node] ∧ t.masters = s.masters)

/-! ### Loading, the configuration store, the dawn, regions -/

/-- LOAD_START, LOAD_ABORT (R369, R370, R373, R376, R378 to R380, R383), of a write that nothing keeps waiting: a start without a full
load in progress discards the run and begins a full load from the source that LSRC and the boot selection in force name,
with the sequencer IDLE, the lanes empty and both memories as they were; a start during a full load starts nothing; an
abort of a full load in LOADING or RETRY records 0Eh and falls back, a user load to the golden image; it ends a region
load and a VERIFY with 0Eh; in another state it changes no load. -/
def Obligations.LoadsStartAndAbort : Prop :=
  (∀ (s : State) (v : BitVec 32) (lost : List LostCopy), s.regNow .host Reg.ceCtrl true false (setBit v 31 true) = true →
    let sel := match bits v 30 29 with
      | 0 => if (s.readCopies lost).store.dir.sel then 2 else 1
      | 1 => 1
      | 2 => 2
      | _ => 3
    let noVerify := ∀ o, s.store.op = some o → o.op ≠ 3
    (s.fullLoading = false → (v.getLsbD 28 = false ∨ (s.load = none ∧ noVerify)) →
      ∃ t, exec (.loadStart ⟨v, lost⟩) s = .next t ∧ t.load = some (Load.start none sel 0) ∧
        t.fld Reg.ceStat 31 29 = 0 ∧ t.seq = Seq.reset ∧ t.seqState = 0 ∧ t.spad = s.spad ∧ t.hbm = s.hbm ∧
        (∀ l i, (t.lane l).place i = none) ∧ t.image = none) ∧
    (s.fullLoading = true → v.getLsbD 28 = false → ∃ t, exec (.loadStart ⟨v, lost⟩) s = .next t ∧ s.OnlyRegs t [Reg.ceCtrl])) ∧
  ∀ (s : State) (v : BitVec 32), s.regNow .host Reg.ceCtrl true false (setBit v 28 true) = true →
    let noVerify := ∀ o, s.store.op = some o → o.op ≠ 3
    (v.getLsbD 31 = true → exec (.loadAbort v) s = exec (.loadStart ⟨setBit v 28 true, []⟩) s) ∧
    (∀ ld, noVerify → s.load = some ld → ld.region = none → ld.src < 6 →
      (s.fld Reg.ceStat 31 29 = 1 ∨ s.fld Reg.ceStat 31 29 = 2) →
      ∃ t, exec (.loadAbort v) s = .next t ∧ t.load = some (Load.start none (if ld.src < 3 then 3 else 0) 0) ∧
        t.fld Reg.ceStat 31 29 = 3 ∧ t.flag Reg.ceLerr 31 = true ∧ t.image = none ∧ t.spad = s.spad ∧ t.hbm = s.hbm ∧
        (s.flag Reg.ceLerr 31 = false → t.fld Reg.ceLerr 7 0 = 0x0E)) ∧
    (∀ ld k j, noVerify → v.getLsbD 31 = false → s.load = some ld → ld.region = some k → k < 64 → (s.tile k).job = some j →
      ∃ t, exec (.loadAbort v) s = .next t ∧ t.load = none ∧ t.flag Reg.ceStat 24 = false ∧ t.rgnState k = 3 ∧
        (t.tile k).job = none ∧ t.fld (Reg.rgnStat k) 7 0 = 0x0E) ∧
    (noVerify → v.getLsbD 31 = false →
      (s.load = none ∨ (∃ ld, s.load = some ld ∧ ld.region = none) ∧ s.fld Reg.ceStat 31 29 ≠ 1 ∧ s.fld Reg.ceStat 31 29 ≠ 2) →
      ∃ t, exec (.loadAbort v) s = .next t ∧ s.OnlyRegs t [Reg.ceCtrl]) ∧
    (∀ o, s.store.op = some o → o.op = 3 → s.load = none → v.getLsbD 31 = false → ∃ t, exec (.loadAbort v) s = .next t ∧
      t.store.op = none ∧ t.slotState o.slot = 4 ∧ t.fld Reg.cePgmStat 7 0 = 0x0E ∧ t.flag Reg.cePgmStat 30 = true ∧
      t.load = none ∧ s.MemoryKept t)

/-- LOAD_HEADER, FRAME_READ, LOAD_CLEAN_DONE (R370, R372, R374, R376, R377, R380, R398): with no load in progress the next region load
begins; a read that fails, or whose CRC does not match, is retried; a header that passes records the image identity and
goes on to the frames; one that fails ends the load, which falls back; a frame that passes counts one and leaves what its records wrote; the last
one ends the load, and a user image begins its dawn; an erased frame of the store, and one that fails, end the load; a
frame whose tiles have no power waits; when the clean-up ends, the golden load starts, or the device is unconfigured. -/
def Obligations.LoadsReadTheirFrames : Prop :=
  (∀ (s : State) (err : Bool) (ecc : List EccAt), s.load = none →
    exec (.frameRead ⟨err, ecc⟩) s = .next s ∧ exec .loadCleanDone s = .next s ∧
    (s.nextRegion = none → exec (.loadHeader ⟨err, ecc⟩) s = .next s) ∧
    ∀ k j, s.nextRegion = some (k, j) → exec (.loadHeader ⟨err, ecc⟩) s = exec (.loadHeader ⟨err, ecc⟩)
      { (s.setFlag Reg.ceStat 24 true).applyClusterMap fun c => c / 72 == k with
        load := some (Load.start (some k) (if j.src = 1 then 5 else j.src - 1) j.base) }) ∧
  ∀ (s : State) (ld : Load) (err : Bool) (ecc : List EccAt), s.load = some ld →
    let full := ld.region = none
    let r := s.readFrame ld ecc
    let fallback := fun (t : State) (code : Nat) =>
      t.load = some (Load.start none (if ld.src < 3 then 3 else if ld.src = 3 ∧ code ≠ 0x0E then 4 else 0) 0) ∧
      t.fld Reg.ceStat 31 29 = 3 ∧ t.image = none ∧ s.MemoryKept t
    let again := fun (t : State) => t.load = some { ld with retries := ld.retries + 1 } ∧ t.fld Reg.ceStat 31 29 = 2 ∧
      t.clus = s.clus ∧ (ld.frame < 2 ^ 23 → t.flag Reg.ceRframe 31 = true) ∧ s.MemoryKept t
    ((ld.header = true ∨ s.fld Reg.ceStat 31 29 = 3 ∨ s.fld Reg.sprStat 31 29 = 1 ∨ s.readWaits ld = true) →
      exec (.loadHeader ⟨err, ecc⟩) s = .next s) ∧
    (ld.header = false → s.fld Reg.ceStat 31 29 ≠ 3 → s.fld Reg.sprStat 31 29 ≠ 1 → s.readWaits ld = false →
      let slotBad := ld.src ≠ 5 ∧ s.slotState (ld.src - 1) ≠ 2 ∧ s.slotState (ld.src - 1) ≠ 3
      (r.2 = none → ¬ slotBad → ∃ t, exec (.loadHeader ⟨err, ecc⟩) s = .next t ∧ again t) ∧
      (r.2 = none → slotBad → full → ∃ t, exec (.loadHeader ⟨err, ecc⟩) s = .next t ∧ fallback t 7) ∧
      ∀ l, r.2 = some l →
        (err = true ∨ frameCrcOk l = false → ∃ t, exec (.loadHeader ⟨err, ecc⟩) s = .next t ∧ again t) ∧
        (∀ ld', err = false → frameCrcOk l = true → s.checkHeader ld l = .ok ld' → (ld'.region = none ↔ full) →
          ∃ t, exec (.loadHeader ⟨err, ecc⟩) s = .next t ∧ t.load = some { ld' with retries := 0 } ∧
            t.fld Reg.ceStat 31 29 = (if ld.region.isSome then 4 else 1) ∧ t.clus = s.clus ∧ s.MemoryKept t ∧
            (full → t.image = (if ld'.src < 3 then some ld'.img else none) ∧ t.reg Reg.ceImgidLo = ld'.imgId.setWidth 32)) ∧
        (∀ c, err = false → frameCrcOk l = true → s.checkHeader ld l = .error c → full →
          ∃ t, exec (.loadHeader ⟨err, ecc⟩) s = .next t ∧ fallback t c)) ∧
    ((ld.header = false ∨ s.fld Reg.ceStat 31 29 = 3 ∨ s.loadDark ld ≠ [] ∨ s.readWaits ld = true) →
      exec (.frameRead ⟨err, ecc⟩) s = .next s) ∧
    (ld.header = true → s.fld Reg.ceStat 31 29 ≠ 3 → s.loadDark ld = [] → s.readWaits ld = false →
      (r.2 = none → (err = true ∨ ld.src = 5) → ∃ t, exec (.frameRead ⟨err, ecc⟩) s = .next t ∧ again t) ∧
      (r.2 = none → err = false → ld.src ≠ 5 → full → ∃ t, exec (.frameRead ⟨err, ecc⟩) s = .next t ∧ fallback t 0x0B) ∧
      ∀ l, r.2 = some l →
        (err = true ∨ frameCrcOk l = false → ∃ t, exec (.frameRead ⟨err, ecc⟩) s = .next t ∧ again t) ∧
        (err = false → frameCrcOk l = true →
          (∀ d, r.1.doFrame State.loadWrite ld l true = .wait d →
            exec (.frameRead ⟨err, ecc⟩) s = .next (d.elim s s.domainCall)) ∧
          (∀ u ld' c f b, r.1.doFrame State.loadWrite ld l true = .fail u ld' c f b → ld'.region = none →
            ∃ t, exec (.frameRead ⟨err, ecc⟩) s = .next t ∧ t.fld Reg.ceStat 31 29 = 3 ∧ t.image = none ∧ u.MemoryKept t ∧
              ∃ n, t.load = some (Load.start none n 0) ∧ (n = 0 ∨ n = 3 ∨ n = 4) ∧ (ld'.src < 3 → n = 3)) ∧
          (∀ u ld' done, r.1.doFrame State.loadWrite ld l true = .ok u ld' done → ld'.region = none →
            ∃ t, exec (.frameRead ⟨err, ecc⟩) s = .next t ∧
              t.fld Reg.ceProg 22 0 = min (u.fld Reg.ceProg 22 0 + 1) (2 ^ 23 - 1) ∧
              t.clus = u.clus ∧ t.lanes = u.lanes ∧ t.spad = u.spad ∧ t.hbm = u.hbm ∧
              (done = false → t.load = some { ld' with retries := 0 } ∧ t.fld Reg.ceStat 31 29 = 1) ∧
              (done = true → t.load = none ∧ t.fld Reg.ceStat 31 29 = 4 ∧ (ld'.src < 3 → t.dawnState = 1))) ∧
          (∀ u ld' k, r.1.doFrame State.loadWrite ld l true = .ok u ld' true → ld'.region = some k →
            ∃ t, exec (.frameRead ⟨err, ecc⟩) s = .next t ∧ t.load = none ∧ t.flag (Reg.rgnStat k) 28 = true ∧
              t.flag Reg.ceStat 24 = false ∧ t.clus = u.clus))) ∧
    (s.fld Reg.ceStat 31 29 ≠ 3 → exec .loadCleanDone s = .next s) ∧
    (s.fld Reg.ceStat 31 29 = 3 →
      (ld.src = 0 → ∃ t, exec .loadCleanDone s = .next t ∧ t.load = none ∧ t.fld Reg.ceStat 31 29 = 5 ∧
        t.reg Reg.ceImgidLo = 0 ∧ t.reg Reg.ceImgidHi = 0 ∧ s.RegsKept t [Reg.ceStat, Reg.ceImgidLo, Reg.ceImgidHi] ∧
        s.NetKept t ∧ s.MemoryKept t) ∧
      (ld.src ≠ 0 → ∃ t, exec .loadCleanDone s = .next t ∧ s.OnlyRegs t [Reg.ceStat, Reg.ceProg] ∧
        t.fld Reg.ceStat 31 29 = 0 ∧ t.flag Reg.ceStat 25 = true ∧ t.reg Reg.ceProg = 0))

/-- ERASE, WRITE, COMMIT, VERIFY, IDENT, BOOT_SELECT_WRITE (R351, R352, R383, R384, R386, R395), of a write that nothing keeps waiting: an
operation that is not refused is in progress with its slot, frames and source, its slot WRITING where it erases or first
writes; a refused one sets ERR and changes nothing else; SEL goes to the directory, with the next generation, unless the
register is locked. -/
def Obligations.StoreOperationsStart : Prop :=
  (∀ (s : State) (v : BitVec 32) (op : Nat) (c : Instr),
    (op, c) ∈ [(0, Instr.erase v), (1, Instr.write v), (2, Instr.commit v), (3, Instr.verify v), (4, Instr.ident v)] →
    s.regNow .host Reg.cePgmCtrl true false (setBits v 31 28 (8 + op)) = true →
    let slot := bits v 27 26
    let first := bits v 22 0
    let count := s.fld Reg.cePgmCnt 22 0
    (s.pgmRefused op slot first count = false → ∃ t, exec c s = .next t ∧ t = { s with regs := t.regs, store := t.store } ∧
      s.RegsKept t [Reg.cePgmCtrl, Reg.cePgmStat] ∧ t.flag Reg.cePgmStat 31 = true ∧
      t.store.op = some (StoreOp.mk op slot first count (BitVec.ofNat 64 s.pgmSrc)) ∧ t.store.pages = s.store.pages ∧
      t.slotState slot = (if op < 2 then 1 else s.slotState slot) ∧
      ∀ k, k ≠ slot → t.slotState k = s.slotState k) ∧
    (s.pgmRefused op slot first count = true → ∃ t, exec c s = .next t ∧ s.OnlyField t Reg.cePgmStat 29 29 ∧
      t.flag Reg.cePgmStat 29 = true)) ∧
  ∀ (s : State) (v : BitVec 32), s.regNow .host Reg.ceBoot true false v = true →
    let d := s.store.dir
    (s.flag Reg.ceCtrl 0 = false → exec (.bootSelectWrite v) s = .next { s with
      store := { s.store with dir := { d with sel := v.getLsbD 0, gen := d.gen + 1 }, dirPrev := some d } }) ∧
    (s.flag Reg.ceCtrl 0 = true → exec (.bootSelectWrite v) s = .next s)

/-- STORE_OPERATION_DONE, STORE_PATROL_READ (R351 to R353, R383, R384, R387 to R389, R394, R395; log 36, log 81), with no block retired:
an ERASE leaves every frame of its slot erased and the slot EMPTY, given that the block map finds the slot's blocks again; a
WRITE leaves its frames as the HBM bytes of its source, or ends with ERR; a COMMIT leaves the slot WRITTEN with its FCOUNT, a
VERIFY with a result VERIFIED or BAD, or goes on reading, an IDENT the identity. A patrol read counts one read of the
block, and moves it when the read asked for that. -/
def Obligations.StoreOperationsEnd : Prop :=
  (∀ (s : State) (o : StoreOp) (ok : Bool) (ecc : List EccAt) (retries : List (Nat × Nat)), s.store.op = some o →
    let cell := fun (k n : Nat) => 1024 * s.blockOf (homeBlock k (n / 1024)) + n % 1024
    let ended := fun (t : State) (err : Bool) => t.store.op = none ∧ t.flag Reg.cePgmStat 31 = false ∧
      t.flag Reg.cePgmStat (if err then 29 else 30) = true ∧ s.MemoryKept t
    let run := exec (.storeOperationDone ok ⟨[], retries, ecc⟩) s
    (o.op = 0 → o.slot < 4 →
      let map := if o.slot < 2 then s.spreadMap o.slot else s.store.dir.bmap
      let u := { s with store := { s.store with dir := { s.store.dir with bmap := map } } }
      ∃ t, run = .next t ∧ ended t false ∧ t.slotState o.slot = 0 ∧ (∀ k, k ≠ o.slot → t.slotState k = s.slotState k) ∧
        ((∀ i, i < slotSize o.slot / 1024 → u.inRegion o.slot (u.blockOf (homeBlock o.slot i)) = true) →
          ∀ n, n < slotSize o.slot → t.page o.slot n = none) ∧
        ∀ k n, k < 4 → k ≠ o.slot → n < slotSize k → s.inRegion o.slot (s.blockOf (homeBlock k (n / 1024))) = false →
          u.inRegion o.slot (s.blockOf (homeBlock k (n / 1024))) = false → t.page k n = s.page k n) ∧
    (o.op = 1 → (s.hbmStates o.src.toNat (4096 * o.count)).any (fun e => e.2 == 1) = true → run = .next s) ∧
    (o.op = 1 → (∀ m, s.mcState m ≠ 1) → (ok = false ∨ s.spareWanting = true) →
      ∃ t, run = .next t ∧ ended t true ∧ t.free = s.free + 1 ∧ ∀ k, t.slotState k = s.slotState k) ∧
    (o.op = 1 → ok = true → ecc = [] → s.hbmBad = [] → s.spareWanting = false → (∀ m, m < 6 → s.mcState m = 2) →
      o.src.toNat + 4096 * o.count ≤ hbmTop →
      ∃ t, run = .next t ∧ ended t false ∧ (∀ k, t.slotState k = s.slotState k) ∧
        (∀ i, i < o.count → (∀ j, j < o.count → cell o.slot (o.first + j) = cell o.slot (o.first + i) → j = i) →
          t.page o.slot (o.first + i) = some (pageOf ((List.range 512).flatMap fun k =>
            bytesOf 8 (s.hbmWord (o.src.toNat + 4096 * i + 8 * k) [] 0).toNat))) ∧
        ∀ k n, (∀ i, i < o.count → cell k n ≠ cell o.slot (o.first + i)) → t.page k n = s.page k n) ∧
    (o.op = 2 → tget (fun _ => 0) s.store.reads (s.blockOf (homeBlock o.slot 0)) < 100000 →
      ∃ t, run = .next t ∧ ended t false ∧ t.slotState o.slot = 2 ∧ t.store.pages = s.store.pages ∧
        ∀ l, s.frameZero o.slot = some l → tget (fun _ => 0) t.store.dir.fcount o.slot = fieldBE l 16 4 % 2 ^ 23) ∧
    (∀ c n, o.op = 3 → s.verifyCode o.slot = .ok (c, n) → c < 256 → ∃ t, run = .next t ∧ ended t false ∧
      t.slotState o.slot = (if c = 0 then 3 else 4) ∧ t.fld Reg.cePgmStat 7 0 = c) ∧
    (∀ f, o.op = 3 → s.verifyCode o.slot = .error f → ∃ t, run = .next t ∧ t.store.op = some o ∧
      t.flag Reg.ceRframe 31 = true ∧ t.fld Reg.ceRetry 15 0 = min (s.fld Reg.ceRetry 15 0 + 1) 65535 ∧ s.MemoryKept t) ∧
    (o.op = 4 → ∃ t, run = .next t ∧ ended t false ∧ t.store.record = ⟨s.store.record.gen + 1, some o.src⟩ ∧
      t.store.recordPrev = some s.store.record ∧ t.store.pages = s.store.pages)) ∧
  (∀ (s : State) (ok : Bool) (bad : List Nat) (retries : List (Nat × Nat)) (ecc : List EccAt), s.store.op = none →
    exec (.storeOperationDone ok ⟨bad, retries, ecc⟩) s = .next s) ∧
  ∀ (s : State) (region block : Nat) (reloc : Bool),
    let h := homeBlock region block
    let q := s.blockOf h
    let n := tget (fun _ => 0) s.store.reads q
    ((s.load.isSome = true ∨ s.store.op.isSome = true ∨ s.writtenBlocks.contains h = false) →
      exec (.storePatrolRead region block reloc) s = .next s) ∧
    (s.load = none → s.store.op = none → s.writtenBlocks.contains h = true → n < 100000 →
      (reloc = false → ∃ t, exec (.storePatrolRead region block reloc) s = .next t ∧ t = { s with store := t.store } ∧
        tget (fun _ => 0) t.store.reads q = n + 1 ∧ t.store.pages = s.store.pages ∧ t.store.dir.slot = s.store.dir.slot ∧
        t.store.dir.bmap = s.store.dir.bmap) ∧
      (reloc = true → ∃ t, exec (.storePatrolRead region block reloc) s = .next t ∧
        t.fld Reg.cePatrol 31 16 = min (s.fld Reg.cePatrol 31 16 + 1) 65535 ∧ s.RegsKept t [Reg.cePatrol] ∧
        t.store.dir.slot = s.store.dir.slot ∧ ∀ p, s.freshBlock q = some p → t.blockOf h = p))

/-- DAWN_LOCK_WAIT_END, DAWN_LOCK_TIMEOUT, DAWN_RELEASE, DAWN_GO, DAWN_RETRY (R349, R398 to R403, R419, R516; a target interface that is
off: log 25): a lock wait with every item done makes the first release, and one with a failed domain stops; one that times
out shows the loops that failed, and stops when the image asks for it; a gap that ends makes the next release, and after
the third the go wait, the cadence wait or the first step's sample instant follows; a GO passes the go wait or is held; a
RETRY in LOCKFAIL samples the registers and waits anew. In another state nothing happens but what the register keeps. -/
def Obligations.DawnSequence : Prop :=
  ∀ s : State,
    let k := Reg.dwnStat
    let started := fun (t : State) => t.dawnState = 8 ∧ t.seq.run = true ∧ t.seq.cycle = s.seq.cycle
    let on := s.domState 80 = 2 ∨ s.domState 80 = 3
    ((s.dawnState ≠ 1 ∨ s.locksDone = false) → exec .dawnLockWaitEnd s = .next s) ∧
    (s.dawnState = 1 → s.locksDone = true → (∀ m, m < 6 → s.mcState m = 2) → (∀ d, d < 81 → s.domState d = 2) →
      s.dawn.done = 0 →
      ∃ t, exec .dawnLockWaitEnd s = .next t ∧ t.dawnState = 3 ∧ t.dawn.done = 1 ∧
        t.flag k (28 - s.dawnOrder.1.getD 0 3) = true ∧ s.RegsKept t [k] ∧ t.seq = s.seq ∧ s.MemoryKept t) ∧
    (s.dawnState = 1 → s.locksDone = true → s.lastTileFailed = true → ∃ t, exec .dawnLockWaitEnd s = .next t ∧
      t.dawnState = 2 ∧ t.flag k 21 = true ∧ t.seq = s.seq ∧ s.MemoryKept t) ∧
    (∀ pcie ports, s.dawnState ≠ 1 → exec (.dawnLockTimeout pcie ports) s = .next s) ∧
    (∀ (pcie : Bool) (ports : BitVec 8), s.dawnState = 1 → s.dawn.done = 0 → ∃ t, exec (.dawnLockTimeout pcie ports) s = .next t ∧
      t.flag k 23 = pcie ∧ (∀ p, p < 8 → t.flag k (7 + p) = (ports.getLsbD p && s.flag (Reg.lnkCtrl p) 30)) ∧
      (pcie = true → s.dawn.ctrl.getLsbD 7 = true → t.dawnState = 2) ∧
      (s.dawn.ctrl.getLsbD 7 = false → (∀ d, d < 81 → s.domState d = 2) → s.flag Reg.tioCadCtrl 31 = false → t.dawnState = 3) ∧
      t.seq = s.seq ∧ s.MemoryKept t) ∧
    ((s.dawnState = 3 ∨ s.dawnState = 4) → s.dawn.done + 2 = s.dawnState → ∃ t, exec .dawnRelease s = .next t ∧
      t = { s with regs := t.regs, tio := t.tio, dawn := { s.dawn with done := s.dawn.done + 1 } } ∧ s.RegsKept t [k] ∧
      t.dawnState = s.dawnState + 1 ∧ t.flag k (28 - s.dawnOrder.1.getD s.dawn.done 3) = true) ∧
    ((s.dawnState < 3 ∨ 5 < s.dawnState ∨ (s.dawnState = 5 ∧ s.dawn.done ≠ 3)) → exec .dawnRelease s = .next s) ∧
    (s.dawnState = 5 → s.dawn.done = 3 →
      (s.dawn.ctrl.getLsbD 8 = true → s.dawn.go = false → ∃ t, exec .dawnRelease s = .next t ∧ s.OnlyField t k 31 28 ∧
        t.dawnState = 6) ∧
      ((s.dawn.ctrl.getLsbD 8 = false ∨ s.dawn.go = true) →
        (s.flag Reg.tioCadCtrl 31 = true → ∃ t, exec .dawnRelease s = .next t ∧ s.OnlyField t k 31 28 ∧ t.dawnState = 7) ∧
        (s.flag Reg.tioCadCtrl 31 = false → on → exec .dawnRelease s = .next { s with dawn := { s.dawn with done := 4 } }) ∧
        (s.flag Reg.tioCadCtrl 31 = false → ¬ on → ∃ t, exec .dawnRelease s = .next t ∧ started t))) ∧
    (∀ v : BitVec 32, s.regNow .host Reg.dwnCtrl true false (setBit v 31 true) = true →
      (v.getLsbD 30 = false ∨ s.dawnState ≠ 2) →
      (s.dawnState = 6 → s.flag Reg.tioCadCtrl 31 = true → ∃ t, exec (.dawnGo v) s = .next t ∧
        s.OnlyRegs t [Reg.dwnCtrl, k] ∧ t.dawnState = 7) ∧
      (s.dawnState = 6 → s.flag Reg.tioCadCtrl 31 = false → on → ∃ t, exec (.dawnGo v) s = .next t ∧
        t = { s with regs := t.regs, dawn := { s.dawn with done := 4 } } ∧ s.RegsKept t [Reg.dwnCtrl]) ∧
      (s.dawnState = 6 → s.flag Reg.tioCadCtrl 31 = false → ¬ on → ∃ t, exec (.dawnGo v) s = .next t ∧ started t) ∧
      (s.dawnState ≠ 6 → ∃ t, exec (.dawnGo v) s = .next t ∧
        t = { s with regs := t.regs, dawn := { s.dawn with go := true } } ∧ s.RegsKept t [Reg.dwnCtrl])) ∧
    ∀ v : BitVec 32, s.regNow .host Reg.dwnCtrl true false (setBit v 30 true) = true →
      (v.getLsbD 31 = true → exec (.dawnRetry v) s = exec (.dawnGo (setBit v 30 true)) s) ∧
      (v.getLsbD 31 = false → s.dawnState = 2 → ∃ t, exec (.dawnRetry v) s = .next t ∧
        t = { s with regs := t.regs, dawn := t.dawn } ∧ s.RegsKept t [Reg.dwnCtrl, k] ∧ t.dawnState = 1 ∧
        t.fld k 23 7 = 0 ∧ t.dawn.ctrl = t.reg Reg.dwnCtrl ∧ t.dawn.gap = s.reg Reg.dwnGap ∧ t.dawn.done = 0) ∧
      (v.getLsbD 31 = false → s.dawnState ≠ 2 → ∃ t, exec (.dawnRetry v) s = .next t ∧ s.OnlyRegs t [Reg.dwnCtrl])

/-- REGION_DRAIN_DONE, REGION_SWAP, WELT_EMIT, WELT_DISCARD, WELT_RECORD_READ (R131, R231, R232, R406, R412, R413, R422): once no request
of a tile that left is outstanding, the HBM queues of its WUs are empty and its load may go on; at its join midnight a
region that is loaded and whose welts are complete is ACTIVE with its clusters at the next cycle's step 0 and its banks as
its image gives them, but for those it keeps; an outbound welt emits the lane-byte of its record with the parity of the
cycle, an inbound one discards and counts; a record read that nothing keeps waiting answers the entry or 0. -/
def Obligations.RegionsLeaveAndJoin : Prop :=
  ∀ (s : State) (t : Nat), t < 64 →
    let k := Reg.rgnStat t
    ((s.flag k 29 = false ∨ s.tileInFlight t = true) → exec (.regionDrainDone t) s = .next s) ∧
    (s.flag k 29 = true → s.tileInFlight t = false → ∃ s', exec (.regionDrainDone t) s = .next s' ∧
      s.OnlyField { s with regs := s'.regs } k 29 29 ∧ s'.flag k 29 = false ∧ s.MemoryKept s' ∧ s'.net = s.net ∧
      (∀ j, (s.tile t).job = some j → (s'.tile t).job = some { j with drained := true }) ∧
      ∀ c w, c < 72 → w < 5 → ((s'.clu t c).wu w).q0 = [] ∧ ((s'.clu t c).wu w).q1 = []) ∧
    (((s.tile t).job = none ∨ s.rgnState t ≠ 2 ∨ s.seq.midnight = false ∨ s.flag k 28 = false) →
      exec (.regionSwap t) s = .next s) ∧
    (∀ j, (s.tile t).job = some j → (j.join ≠ s.seq.cycle ∨ s.weltsComplete t j.join = false) →
      exec (.regionSwap t) s = .next s) ∧
    (∀ j, (s.tile t).job = some j → s.rgnState t = 2 → s.seq.midnight = true → j.join = s.seq.cycle → s.flag k 28 = true →
      s.weltsComplete t j.join = true → ∃ s', exec (.regionSwap t) s = .next s' ∧ s'.rgnState t = 1 ∧
        s'.flag k 28 = false ∧ (s'.tile t).job = none ∧ s'.hbm = s.hbm ∧ s'.seq.cycle = s.seq.cycle ∧
        (∀ c, c < 72 → s'.flag (Reg.cluId t c) 13 = true →
          (s'.clu t c).step = 0 ∧ (s'.clu t c).done = true ∧ (s'.clu t c).inq = []) ∧
        ((s.tile t).stash = none → s'.spad = s.spad) ∧
        ∀ b, (s.tile t).stash = some b → Memory.wf b.cells = true → (∀ e ∈ b.cells, e.1 < 2 ^ 22) →
          ∀ a, Memory.get s'.spad a =
            if a / 2 ^ 22 = t ∧ b.keep.getLsbD (a % 2 ^ 22 / 2 ^ 18) = false then Memory.get b.cells (a % 2 ^ 22)
            else Memory.get s.spad a) ∧
    (∀ i,
      let w := s.welt t i
      let n := w.rcd.length
      let m := w.emitted / n
      ((s.tileOut t = false ∨ 2 ≤ s.weltMode t i ∨ n = 0 ∨ s.cyclesOut t ≤ m ∨
        (s.lane (weltLane t i)).place 0 ≠ none) → exec (.weltEmit t i) s = .next s) ∧
      (s.tileOut t = true → s.weltMode t i < 2 → 0 < n → m < s.cyclesOut t → (s.lane (weltLane t i)).place 0 = none →
        let r := w.rcd.getD (w.emitted % n) 0
        ∃ s', exec (.weltEmit t i) s = .next s' ∧ s' = { s with tiles := s'.tiles, lanes := s'.lanes } ∧
          s.LanesKept s' [laneKey (weltLane t i)] ∧ s'.welt t i = { w with emitted := w.emitted + 1 } ∧
          (s'.lane (weltLane t i)).place 0 = some (Held.mk
            (mkLaneByte (8 * (((s.tile t).leave.toNat + 1 + m) % 2) + bits r 10 8)
              (if s.weltMode t i = 1 then BitVec.ofNat 8 (s.fld (Reg.wltLane t i) 29 22) else r.extractLsb' 0 8)) 0 false))) ∧
    (∀ i,
      let w := s.welt t i
      let l := gatewayLane t (12 + i / 36) (i % 36)
      ((s.tileOut t = false ∨ 2 ≤ s.weltMode t i ∨ w.inb = 0 ∨ (s.lane l).place (s.chainLen l - 1) = none ∨
        ∃ c, s.weltUntil t = some c ∧ c ≤ w.disc / w.inb) → exec (.weltDiscard t i) s = .next s) ∧
      (s.tileOut t = true → s.weltMode t i < 2 → 0 < w.inb → ((s.lane l).place (s.chainLen l - 1)).isSome = true →
        (∀ c, s.weltUntil t = some c → w.disc / w.inb < c) → ∃ s', exec (.weltDiscard t i) s = .next s' ∧
          s' = { s with tiles := s'.tiles, lanes := s'.lanes, regs := s'.regs } ∧ s.LanesKept s' [laneKey l] ∧
          s.RegsKept s' [Reg.wltStat t] ∧ (s'.lane l).place (s.chainLen l - 1) = none ∧
          s'.welt t i = { w with disc := w.disc + 1 } ∧
          s'.fld (Reg.wltStat t) 15 0 = min (s.fld (Reg.wltStat t) 15 0 + 1) 65535)) ∧
    ∀ v : BitVec 32, s.regNow .host (Reg.wltRaccCtrl t) true false (setBit v 31 true) = true →
      ∃ s', exec (.weltRecordRead t v) s = .next s' ∧ s.OnlyRegs s' [Reg.wltRaccCtrl t, Reg.wltRdata t] ∧
      s'.reg (Reg.wltRdata t) = match (s.welt t (bits v 30 23)).rcd[bits v 9 0]? with
        | some r => BitVec.ofNat 32 (2 ^ 30 + r.toNat)
        | none => 0

/-! ### The service scheduler and its engines -/

/-- TASK_SUBMIT, TASK_CANCEL, TASK_ACK, TASK_DUE_TICK, TASK_START, TASK_END (R423, R428 to R435, R437, R445, R505; a command that must wait
on the network: log 90): a live descriptor is refused and the first refusal recorded; one that fails the check ends 10h, a
barrier task whose cycle has passed 11h, a RESTORE outside the go wait 12h; one that is due is READY and any other waits; a
waiting or ready one that is cancelled ends 15h; an acknowledgement ends a notification that awaits it DONE, or is held
while its engine has it. Passing microseconds advance the tick and make due the tasks whose key it reaches; the
heartbeat counts while it is enabled and not frozen. At a midnight that nothing else holds the barrier tasks of the cycle
become due together. A free engine takes the task in its slot, and frees itself when the task ends with its code, which
submits the descriptor's link when it is 00h; a barrier task that fails takes the promise back, but for a PARK. -/
def Obligations.TasksOfTheScheduler : Prop :=
  let past := fun (s : State) (d : Nat) => State.keyDue (s.dKey d) s.seq.cycle
  let late := fun (s : State) (d : Nat) => s.dBar d && s.dKey d != s.seq.cycle && past s d
  let early := fun (s : State) (d : Nat) => !s.dBar d && s.dType d == 5 && (s.dawnState != 6 || s.dWhen d != 0)
  let ready := fun (s : State) (d : Nat) =>
    if s.dBar d then s.dKey d == s.seq.cycle && s.seq.midnight && s.seq.settled
    else s.dWhen d == 0 || (s.dWhen d == 1 && past s d) || (s.dWhen d == 2 && State.keyDue (s.dKey d) s.tick)
  let fails := fun (s : State) (d : Nat) => !s.descOk d || late s d || early s d
  let taken := fun (s : State) (d : Nat) => if fails s d then 5 else if ready s d then 2 else 1
  let link := fun (s : State) (d : Nat) => bits (s.dword d 1) 30 21
  let linked := fun (s t : State) (d : Nat) => (s.dword d 1).getLsbD 31 = true →
    t.dState (link s d) = if link s d ≠ d ∧ s.dLive (link s d) = true then s.dState (link s d) else taken s (link s d)
  let refused := fun (s t : State) (k op d : Nat) =>
    t = { s with regs := t.regs, net := t.net } ∧ s.NetKept t ∧ s.RegsKept t [k, Reg.ssErr] ∧
    t.flag Reg.ssErr 31 = true ∧
    (s.flag Reg.ssErr 31 = false → t.fld Reg.ssErr 30 28 = op ∧ t.fld Reg.ssErr 9 0 = d) ∧
    (s.flag Reg.ssErr 31 = true → t.reg Reg.ssErr = s.reg Reg.ssErr)
  (∀ (s : State) (who : Who) (v : BitVec 32), s.regNow who Reg.ssSubmit true false (setBit v 31 true) = true →
    let d := bits v 9 0
    (s.dLive d = true → ∃ t, exec (.taskSubmit who v) s = .next t ∧ refused s t Reg.ssSubmit 1 d) ∧
    (s.dLive d = false → fails s d = true → ∃ t, exec (.taskSubmit who v) s = .next t ∧ t.dState d = 5 ∧
      t.fld (Reg.ssDstat d) 7 0 = (if s.descOk d = false then 0x10 else if late s d then 0x11 else 0x12) ∧ t.seq = s.seq ∧
      t.ss = s.ss ∧ s.MemoryKept t ∧ s.NetKept t) ∧
    (s.dLive d = false → fails s d = false → ready s d = true → ∃ t, exec (.taskSubmit who v) s = .next t ∧
      t = { s with regs := t.regs, ss := t.ss } ∧ t.dState d = 2) ∧
    (s.dLive d = false → fails s d = false → ready s d = false → ∃ t, exec (.taskSubmit who v) s = .next t ∧
      s.OnlyRegs t [Reg.ssSubmit, Reg.ssDstat d] ∧ t.dState d = 1)) ∧
  (∀ (s : State) (v : BitVec 32), s.regNow .host Reg.ssCancel true false (setBit v 31 true) = true →
    let d := bits v 9 0
    ((s.dState d = 1 ∨ s.dState d = 2) → ∃ t, exec (.taskCancel v) s = .next t ∧ t.dState d = 5 ∧
      t.fld (Reg.ssDstat d) 7 0 = 0x15 ∧ t.seq = s.seq ∧ s.MemoryKept t ∧ s.NetKept t) ∧
    (s.dState d ≠ 1 → s.dState d ≠ 2 → ∃ t, exec (.taskCancel v) s = .next t ∧ refused s t Reg.ssCancel 2 d)) ∧
  (∀ (s : State) (v : BitVec 32), s.regNow .host Reg.ssAck true false (setBit v 31 true) = true →
    let d := bits v 9 0
    (s.dState d = 3 → s.waitsAck d = true → s.inEngine d = false → ∃ t, exec (.taskAck v) s = .next t ∧
      (link s d ≠ d ∨ (s.dword d 1).getLsbD 31 = false → t.dState d = 4 ∧ t.fld (Reg.ssDstat d) 7 0 = 0) ∧ linked s t d ∧
      t.seq = s.seq ∧ s.MemoryKept t ∧ s.NetKept t) ∧
    (s.dState d = 3 → s.waitsAck d = true → s.inEngine d = true → ∃ t, exec (.taskAck v) s = .next t ∧
      t = { s with regs := t.regs, ss := { s.ss with acks := d :: s.ss.acks } } ∧ s.RegsKept t [Reg.ssAck]) ∧
    ((s.dState d ≠ 3 ∨ s.waitsAck d = false) → ∃ t, exec (.taskAck v) s = .next t ∧ refused s t Reg.ssAck 3 d)) ∧
  (∀ (s : State) (n : Nat),
    let heart := fun (t : State) => t.fld Reg.wdgStat 27 0 =
      if s.flag Reg.wdgCtrl 0 = true ∧ s.flag Reg.wdgStat 30 = false then s.fld Reg.wdgStat 27 0 - n else s.fld Reg.wdgStat 27 0
    ((s.domState 79 = 2 ∨ s.domState 79 = 3) → ∃ t, exec (.taskDueTick n) s = .next t ∧ heart t ∧
      t = { s with regs := t.regs, ss := t.ss, dbg := t.dbg, us := s.us + BitVec.ofNat 48 n, tick := s.tick + BitVec.ofNat 48 n } ∧
      ∀ d, d < 1024 → t.dState d = if s.dState d = 1 ∧ s.dWhen d = 2 ∧
        State.keyDue (s.dKey d) (s.tick + BitVec.ofNat 48 n) = true then 2 else s.dState d) ∧
    (s.domState 79 ≠ 2 → s.domState 79 ≠ 3 → ∃ t, exec (.taskDueTick n) s = .next t ∧ heart t ∧
      t = { s with regs := t.regs, dbg := t.dbg, us := s.us + BitVec.ofNat 48 n } ∧
      s.RegsKept t [Reg.wdgStat, Reg.wdgStrem])) ∧
  ∀ (s : State) (e : Nat), e < 16 →
    let u := s.barrierDue.fillSlots
    (∀ d, s.engBusy e = false → u.slotTask e = some d → ∃ t, exec (.taskStart e) s = .next t ∧ t.engBusy e = true ∧
      t.engCur e = d ∧ t.dState d = 3 ∧ t.fld (Reg.ssDstat d) 23 20 = e ∧ t.engResult e = none ∧ s.MemoryKept t) ∧
    ((s.engBusy e = true ∨ u.slotTask e = none) → exec (.taskStart e) s = .next u) ∧
    (s.seq.midnight = true → s.seq.settled = false → s.regionHolds = false → s.inFlight = false → s.stimHolds = false →
      ∃ t, exec (.taskStart e) s = .next t ∧ t.seq = { s.seq with settled := true } ∧ ∀ d, d < 1024 → s.dState d = 1 →
        s.dBar d = true → s.dKey d = s.seq.cycle →
        t.dState d = if s.engBusy e = false ∧ u.slotTask e = some d then 3 else 2) ∧
    ((s.seq.midnight = false ∨ s.seq.settled = true ∨ s.regionHolds = true ∨ s.inFlight = true ∨ s.stimHolds = true) →
      ∃ t, exec (.taskStart e) s = .next t ∧ t = { s with regs := t.regs, ss := t.ss }) ∧
    ((s.engResult e = none ∨ (s.master ssNode e).frozen = true) → exec (.taskEnd e) s = .next s) ∧
    ∀ code, s.engResult e = some code → code < 256 → (s.master ssNode e).frozen = false →
      let d := s.engCur e
      ∃ t, exec (.taskEnd e) s = .next t ∧ t.engBusy e = false ∧ t.engResult e = none ∧ t.seq = s.seq ∧ s.MemoryKept t ∧
        s.NetKept t ∧
        (code ≠ 0 ∨ (s.dword d 1).getLsbD 31 = false ∨ link s d ≠ d →
          t.dState d = (if code = 0 then 4 else 5) ∧ t.fld (Reg.ssDstat d) 7 0 = code) ∧
        (code = 0 → linked s t d) ∧
        (code ≠ 0 → s.dBar d = true → t.flag Reg.ssStat 31 = true ∧
          (s.dType d ≠ 6 ∨ code ≠ 0x14 → t.flag Reg.seqLoss 5 = true))

/-- COPY, FILL, FORCE, PEEK (R84, R88, R221, R245, R250, R283, R424 to R427, R435; what an engine's access meets: log 2), for the task in hand
at engine e: a chunk of 32 bytes that a COPY reads, as read, or that a FILL's pattern gives lies at the destination, also in the
spare a migration has copied, and no other byte of memory changes; an uncorrected error read ends a COPY 05h. A FORCE
writes the bits its mask names of a flop row, a WU register or the carry, through the access registers, and outside a
barrier takes the promise back; a PEEK leaves its 32 bytes and no cluster changed; without a user image, or at a place that
holds no tile, both end 12h, and while another access to the cluster's stores is in progress they wait. An access that must
wait leaves everything as it was; one that is answered with another code ends the task with that code, a violation freezes
the engine too. -/
def Obligations.EnginesMoveData : Prop :=
  ∀ (s : State) (e d : Nat) (ecc : List EccAt),
    let a0 := atChunk (s.dpair d 4) 0
    let b0 := atChunk (s.dpair d 6) 0
    let c0 := atChunk (s.dpair d 10) 0
    let w := s.dword d 4
    let v := BitVec.ofNat 64 (s.dpair d 6)
    let m := BitVec.ofNat 64 (s.dpair d 8)
    let mix := fun (old : BitVec 64) => (old &&& ~~~m) ||| (v &&& m)
    let tileOf := fun (a : BitVec 48) => (s.destOf a).bind fun n => tileAt (n % 10) (n / 10)
    let stored := fun (t : State) (a : BitVec 48) (l : List (BitVec 64)) =>
      (aSpace a = 2 → bits a 4 0 = 0 → (∀ x, Memory.get t.spad x = Memory.get s.spad x) ∧
        (∀ k, k < 32 → Memory.get t.hbm (s.hbmFlat (aHbm a) + k) = (l.getD (k / 8) 0).extractLsb' (8 * (k % 8)) 8) ∧
        (∀ y, s.hbmTwin (aHbm a) = some y → ∀ k, k < 32 →
          Memory.get t.hbm (y + k) = (l.getD (k / 8) 0).extractLsb' (8 * (k % 8)) 8) ∧
        ∀ x, (x < s.hbmFlat (aHbm a) ∨ s.hbmFlat (aHbm a) + 32 ≤ x) →
          (∀ y, s.hbmTwin (aHbm a) = some y → x < y ∨ y + 32 ≤ x) → Memory.get t.hbm x = Memory.get s.hbm x) ∧
      ∀ tl, aSpace a = 1 → tileOf a = some tl → (∀ x, Memory.get t.hbm x = Memory.get s.hbm x) ∧
        (∀ i, i < 4 → t.spWord tl (aBank a) (aWord a + i) = l.getD i 0) ∧
        ∀ x, (x < State.spAddr tl (aBank a) (aWord a) ∨ State.spAddr tl (aBank a) (aWord a) + 32 ≤ x) →
          Memory.get t.spad x = Memory.get s.spad x
    let stops := fun (c : Option (Nat × Nat) → Instr) (pk : Packet) =>
      (s.engMeets pk = 8 → exec (c none) s = .next s) ∧
      (1 ≤ s.engMeets pk → s.engMeets pk ≤ 7 → ∃ t, exec (c none) s = .next t ∧ t = { s with ss := t.ss } ∧
        t.engResult e = some (s.engMeets pk)) ∧
      (16 ≤ s.engMeets pk → ∃ t, exec (c none) s = .next t ∧ (t.master ssNode e).frozen = true ∧ s.MemoryKept t ∧
        t.engResult e = some (State.violResp (s.engMeets pk % 16))) ∧
      ∀ k, 1 ≤ k → k ≤ 7 → ∃ t, exec (c (some (0, k))) s = .next t ∧ t = { s with ss := t.ss } ∧ t.engResult e = some k
    (s.engTask e 0 = some d → (s.dword d 8).toNat = 32 →
      let rd := s.engFetch a0 ecc
      stops (Instr.copy e ecc) (s.engPacket e d false a0) ∧
      (s.engMeets (s.engPacket e d false a0) = 0 → s.engMeets (s.engPacket e d true b0) = 0 →
        ∃ t, exec (.copy e ecc none) s = .next t ∧ t.engResult e = some (if rd.2.2 then 5 else 0) ∧ stored t b0 rd.2.1)) ∧
    (s.engTask e 1 = some d → (s.dword d 8).toNat = 32 →
      stops (Instr.fill e) (s.engPacket e d true a0) ∧
      (s.engMeets (s.engPacket e d true a0) = 0 → ∃ t, exec (.fill e none) s = .next t ∧ t.engResult e = some 0 ∧
        stored t a0 (List.replicate 4 v))) ∧
    ((s.engTask e 0 = none → ∀ stop, exec (.copy e ecc stop) s = .next s) ∧
      (s.engTask e 1 = none → ∀ stop, exec (.fill e stop) s = .next s) ∧
      (s.engTask e 2 = none → ∀ stop, exec (.force e stop) s = .next s) ∧
      (s.engTask e 3 = none → ∀ stop, exec (.peek e stop) s = .next s)) ∧
    (∀ c ∈ [(2, Instr.force e none), (3, Instr.peek e none)], s.engTask e c.1 = some d →
      ((s.stateTile w = none ∨ s.userLoaded = false) → ∃ t, exec c.2 s = .next t ∧ t = { s with ss := t.ss } ∧
        t.engResult e = some 0x12) ∧
      ∀ t c', s.stateTile w = some (t, c') → s.userLoaded = true → s.cluBusy t c' = true → exec c.2 s = .next s) ∧
    ∀ t c, s.stateTile w = some (t, c) → s.userLoaded = true → s.cluBusy t c = false → bits w 7 6 = 0 →
      let x := s.clu t c
      let p := physUnit [s.wuSkip t c] (bits w 13 12)
      let b := physUnit (s.bpSkips t c) (bits w 17 12)
      let k := bits w 11 2
      let r := bits w 5 2
      (s.engTask e 2 = some d → stops (Instr.force e) (s.cluPacket e d t c true)) ∧
      (s.engTask e 2 = some d → s.engMeets (s.cluPacket e d t c true) = 0 → bits w 19 18 ≤ 2 →
        (bits w 19 18 = 0 → r = 0) → ∃ s', exec (.force e none) s = .next s' ∧ s'.engResult e = some 0 ∧
          s.MemoryKept s' ∧ s.ClustersKept s' t c ∧ (s.dBar d = true → s'.reg Reg.seqLoss = s.reg Reg.seqLoss) ∧
          (s.dBar d = false → s'.flag Reg.seqLoss 1 = true) ∧
          (bits w 19 18 = 0 → s'.clu t c = { x with flop := (s'.clu t c).flop } ∧
            (∀ q, q ≠ b → rowOf (s'.clu t c).flop q = rowOf x.flop q) ∧
            ∀ i, i < 1024 → (rowOf (s'.clu t c).flop b).getLsbD i = if k ≤ i ∧ i < k + 64
              then (mix ((rowOf x.flop b).extractLsb' k 64)).getLsbD (i - k) else (rowOf x.flop b).getLsbD i) ∧
          (bits w 19 18 ≠ 0 → s'.clu t c = { x with wus := (s'.clu t c).wus } ∧
            (∀ q, q ≠ p → (s'.clu t c).wu q = x.wu q) ∧
            (s'.clu t c).wu p = if bits w 19 18 = 1 then (x.wu p).setR r (mix ((x.wu p).reg r))
              else { x.wu p with c := if m.getLsbD 0 then v.getLsbD 0 else (x.wu p).c })) ∧
      (s.engTask e 3 = some d → stops (Instr.peek e) (s.cluPacket e d t c false)) ∧
      (s.engTask e 3 = some d → s.engMeets (s.cluPacket e d t c false) = 0 → s.engMeets (s.engPacket e d true c0) = 0 →
        bits w 19 18 ≤ 2 → (bits w 19 18 = 0 → r = 0) →
        let free := s.flag Reg.dwnStat 25
        let val : BitVec 64 := if bits w 19 18 = 0 then (if free then (rowOf x.flop b).extractLsb' k 64 else 0)
          else if bits w 19 18 = 1 then (if free then (x.wu p).reg r else 0)
          else if free && (x.wu p).c then 1 else 0
        ∃ s', exec (.peek e none) s = .next s' ∧ s'.engResult e = some 0 ∧ s.ClustersKept s' t c ∧
          s'.clu t c = { x with wus := (s'.clu t c).wus } ∧ (∀ q, (s'.clu t c).wu q = x.wu q) ∧
          stored s' c0 (wordsOfBytes (s.peekBytes d val)) ∧
          (bits w 19 18 = 1 → s'.reg (Reg.cluWaccD0 t c p) = val.setWidth 32 ∧
            s'.reg (Reg.cluWaccD1 t c p) = val.extractLsb' 32 32))

/-- CHECKPOINT, RESTORE, REGION_LOAD, TRIGGER_ARM, HOST_NOTIFY (R291, R406, R408, R424, R434, R439 to R443, R461): a checkpoint or a
restore that R439 refuses ends 12h, and waits while another access to a named cluster's stores is in progress; a checkpoint
whose accesses nothing stops writes its header last and leaves every scratchpad word and cluster; one of no tile writes 4,096 zero
bytes and then the header at its base; a restore reads the header first, ends 13h and changes no cluster where that does not
check, 05h on an uncorrected error in it, and one that ends DONE has moved the count to the header's cycle, or past it in the go wait. A region
task at the midnight of its key takes its tile out, into RELOAD with its job or into PARKED, and frees the engine; one that
the loader refuses ends 14h. Trigger units are armed or disarmed, an armed one's equations made ready, at once or after the
cycle is evaluated; a notification sends its EVT to HP, and its task stays in RUN while it awaits its acknowledgement. -/
def Obligations.EnginesHandOn : Prop :=
  ∀ (s : State) (e d : Nat) (ecc : List EccAt) (stop : Option (Nat × Nat)),
    let a := s.dpair d 4
    let mask := BitVec.ofNat 64 (s.dpair d 6)
    let banks := (s.dword d 8).getLsbD 0
    let base := State.hbmAddr a
    let put := fun (u : State) (l : List (BitVec 8)) =>
      (List.range 128).foldl (fun (u : State) i => u.engPut (atChunk base i) (wordsOfBytes ((l.drop (32 * i)).take 32))) u
    let read := fun (i : Nat) => s.engFetch (BitVec.ofNat 48 (base + 32 * i)) (eccFrom ecc (4 * i))
    let head := (List.range 128).flatMap fun i => bytesOfWords (read i).2.1
    let ck := Instr.checkpoint e ecc stop
    let rs := Instr.restore e ecc stop
    let done := fun (t : State) (code : Nat) => t = { s with ss := t.ss } ∧ t.engResult e = some code
    (∀ c ∈ [(4, ck), (5, rs)], (s.engTask e c.1 = none → exec c.2 s = .next s) ∧ (s.engTask e c.1 = some d →
      (s.ckRefused d mask = true → ∃ t, exec c.2 s = .next t ∧ done t 0x12) ∧
      (s.ckRefused d mask = false → (c.1 = 5 → s.dBar d = true ∨ s.dawnState = 6) → s.ckBusy mask = true →
        exec c.2 s = .next s))) ∧
    (s.engTask e 5 = some d → s.dBar d = false → s.dawnState ≠ 6 → ∃ t, exec rs s = .next t ∧ done t 0x12) ∧
    (s.engTask e 4 = some d → s.ckRefused d mask = false → s.ckBusy mask = false → stop = none → a % 4096 = 0 →
      a + 4096 ≤ hbmTop →
      (mask = 0 → (∀ i, i < 128 → s.engMeets (s.engPacket e d true (atChunk base i)) = 0) →
        ∃ t, exec ck s = .next t ∧ t.engResult e = some 0 ∧
          t = { put (put s (List.replicate 4096 0)) (s.ckHeader banks mask) with ss := t.ss }) ∧
      (banks = false → a + 4096 + State.sectionSize * (State.maskTiles mask).length ≤ hbmTop →
        (∀ i, 32 * i < 4096 + State.sectionSize * (State.maskTiles mask).length →
          s.engMeets (s.engPacket e d true (atChunk base i)) = 0) →
        (∀ p ∈ State.maskTiles mask, ∀ t, s.physTile p.1 p.2 = some t → s.engMeets (s.cluPacket e d t 0 false) = 0 ∧
          ∀ r, r < 8 → s.flag (Reg.dbgRuCtrl t r) 31 = false) →
        ∃ t u, exec ck s = .next t ∧ t.engResult e = some 0 ∧ t = { put u (s.ckHeader banks mask) with ss := t.ss } ∧
          (∀ x, Memory.get t.spad x = Memory.get s.spad x) ∧ ∀ k c p, (t.clu k c).flop = (s.clu k c).flop ∧
            ((t.clu k c).wu p).reg = ((s.clu k c).wu p).reg ∧ ((t.clu k c).wu p).c = ((s.clu k c).wu p).c)) ∧
    (s.engTask e 5 = some d → s.ckRefused d mask = false → (s.dBar d = true ∨ s.dawnState = 6) → s.ckBusy mask = false →
      (stop = none → a % 4096 = 0 → a + 4096 ≤ hbmTop →
        (∀ i, i < 128 → s.engMeets (s.engPacket e d false (BitVec.ofNat 48 (base + 32 * i))) = 0) →
        ((∃ i, i < 128 ∧ (read i).2.2 = true) → ∃ t, exec rs s = .next t ∧ t.engResult e = some 5 ∧ t.clus = s.clus ∧
          s.MemoryKept t) ∧
        ((∀ i, i < 128 → (read i).2.2 = false) →
          (s.ckHeaderOk head mask = false → ∃ t, exec rs s = .next t ∧ t.engResult e = some 0x13 ∧ t.clus = s.clus ∧
            s.MemoryKept t ∧ t.seq.cycle = s.seq.cycle) ∧
          (s.ckHeaderOk head mask = true → mask = 0 → ∃ t, exec rs s = .next t ∧ t.engResult e = some 0 ∧ t.clus = s.clus ∧
            s.MemoryKept t ∧ t.seq = s.seq))) ∧
      (a + 4096 ≤ 2 ^ 46 → ∃ t, exec rs s = .next t ∧ (t.engResult e = some 0 → s.ckHeaderOk head mask = true ∧ (mask ≠ 0 →
        t.seq.cycle = BitVec.ofNat 48 (fieldBE head 16 8) + if s.dBar d then 0 else 1)))) ∧
    (s.engTask e 6 = none → exec (.regionLoad e) s = .next s) ∧
    (s.engTask e 6 = some d →
      let w := s.dword d 4
      let join := BitVec.ofNat 48 (s.dpair d 8)
      let k := s.dKey d
      let src := bits w 1 0
      let due := s.seq.midnight && k == s.seq.cycle
      let before := decide (src ≠ 0) && State.cycBefore join k
      ((s.userLoaded = false ∨ s.physTile (bits w 31 29) (bits w 28 26) = none) → ∃ t, exec (.regionLoad e) s = .next t ∧
        done t 0x12) ∧
      ∀ t, s.userLoaded = true → s.physTile (bits w 31 29) (bits w 28 26) = some t →
        ∃ s', exec (.regionLoad e) s = .next s' ∧ s'.engBusy e = false ∧ s'.engResult e = none ∧ s.MemoryKept s' ∧
          s'.seq = s.seq ∧
          ((due = false ∨ before = true ∨ s.rgnState t = 2) → s'.dState d = 5 ∧ s'.fld (Reg.ssDstat d) 7 0 = 0x14 ∧
            s'.rgnState t = s.rgnState t ∧ s'.flag (Reg.rgnStat t) 27 = true ∧
            s'.fld (Reg.rgnStat t) 7 0 = if due = false then 0x80 else if before then 0x81 else 0x82) ∧
          (due = true → before = false → s.rgnState t ≠ 2 →
            (s.rgnState t = 1 → s'.reg (Reg.rgnLeave t) = s.seq.cycle.setWidth 32 ∧ (s'.tile t).leave = s.seq.cycle ∧
              s'.flag (Reg.rgnStat t) 29 = true) ∧
            (src = 0 → s'.dState d = 5 ∧ s'.fld (Reg.ssDstat d) 7 0 = 0x14 ∧
              s'.rgnState t = if s.rgnState t = 1 then 3 else s.rgnState t) ∧
            (src ≠ 0 → s'.rgnState t = 2 ∧ s'.reg (Reg.rgnJoin t) = join.setWidth 32 ∧ s'.dState d = s.dState d ∧
              ∃ j, (s'.tile t).job = some j ∧ j.join = join ∧ j.src = src ∧ j.base = s.dpair d 5 ∧ j.desc = d ∧
                j.drained = !(s'.flag (Reg.rgnStat t) 29)))) ∧
    (s.engTask e 7 = none → exec (.triggerArm e) s = .next s) ∧
    (s.engTask e 7 = some d →
      let w := s.dword d 4
      let m := s.engMeets (s.engPacket e d true (BitVec.ofNat 48 (9 * 2 ^ 42 + 9 * 2 ^ 38 + 2 ^ 37 + 0x1000)))
      let after := s.dBar d && s.tt.buf.any fun c => c.cyc == s.dKey d
      (s.dBar d = false → s.seqState ≠ 0 → ∃ t, exec (.triggerArm e) s = .next t ∧ done t 0x12) ∧
      ((s.dBar d = true ∨ s.seqState = 0) →
        (m = 8 → exec (.triggerArm e) s = .next s) ∧
        (1 ≤ m → m ≤ 7 → ∃ t, exec (.triggerArm e) s = .next t ∧ done t m) ∧
        (m = 0 → after = true → ∃ t, exec (.triggerArm e) s = .next t ∧ t = { s with ss := t.ss, tt := { s.tt with
          arms := s.tt.arms ++ [(s.dKey d, w.setWidth 16, w.getLsbD 16)] } } ∧ t.engResult e = some 0) ∧
        (m = 0 → after = false → ∃ t, exec (.triggerArm e) s = .next t ∧ t = { s with regs := t.regs, ss := t.ss } ∧
          t.engResult e = some 0 ∧
          (∀ u, u < 16 → (w.getLsbD u = true → w.getLsbD 16 = true →
              t.flag (Reg.ttUCtrl u) 31 = true ∧ t.flag (Reg.ttUCtrl u) 30 = false ∧ t.fld (Reg.ttUCnt u) 15 0 = 0) ∧
            (w.getLsbD u = true → w.getLsbD 16 = false → t.flag (Reg.ttUCtrl u) 31 = false) ∧
            (w.getLsbD u = false → t.reg (Reg.ttUCtrl u) = s.reg (Reg.ttUCtrl u))) ∧
          ∀ g u, g < 4 → u < 16 → w.getLsbD u = true → w.getLsbD 16 = true → s.eqNames g u = true →
            t.flag (Reg.ttEqCtrl g) 31 = false))) ∧
    (s.engTask e 8 = none → exec (.hostNotify e) s = .next s) ∧
    (s.engTask e 8 = some d →
      ∃ t f, exec (.hostNotify e) s = .next t ∧ f.pk.cmd = 8 ∧ f.pos = ssNode ∧ f.pk.dx = 0 ∧ f.pk.dy = 0 ∧
        bits f.pk.addr 7 0 = bits (s.dword d 4) 7 0 ∧
        (s.waitsAck d = false → t = { s with net := s.net ++ [f], ss := t.ss } ∧ t.engResult e = some 0) ∧
        (s.waitsAck d = true → s.ss.acks.contains d = false →
          t = { s with net := s.net ++ [f], ss := t.ss, regs := t.regs } ∧ t.engBusy e = false ∧ t.dState d = s.dState d) ∧
        (s.waitsAck d = true → s.ss.acks.contains d = true → (s.dword d 1).getLsbD 31 = false →
          t.engBusy e = false ∧ t.dState d = 4 ∧ t.fld (Reg.ssDstat d) 7 0 = 0 ∧ t.ss.acks.contains d = false))

/-! ### Trigger and trace -/

/-- TT_CYCLE_EVALUATE, STIMULUS_WRITE, STIMULUS_DELIVERY, STREAM_ENABLE, STREAM_DISABLE (R245, R452, R455 to R457, R464 to R468, R473,
R476; a command that must wait on the network: log 90): the oldest cycle leaves the buffers, its past stimulus writes with it
once delivered, every unit that fires and every equation that fires is marked with the cycle, and a stream that records
it stages its SAMPLE; a THROTTLE stream without room keeps the cycle and counts it once. A stimulus write with a key to come and a free place is
queued; a refused command changes nothing but what TT_ERR records. At its midnight, once no request is in flight, a
delivery writes its value into its burst, also in the spare a migration has copied, or takes the promise back; the write
leaves its port if its cycle has been evaluated. A stream command takes its key. -/
def Obligations.TriggersAndStimuli : Prop :=
  let refused := fun (s t : State) (op : Nat) => t = { s with regs := t.regs, net := t.net } ∧ s.NetKept t ∧
    s.RegsKept t [Reg.ttErr] ∧ t.flag Reg.ttErr 31 = true ∧
    t.fld Reg.ttErr 15 0 = min (s.fld Reg.ttErr 15 0 + 1) 65535 ∧
    t.fld Reg.ttErr 30 28 = if s.flag Reg.ttErr 31 then s.fld Reg.ttErr 30 28 else op
  (∀ s : State, (s.domState 78 ≠ 2 ∨ s.tt.buf = []) → exec .ttCycleEvaluate s = .next s) ∧
  (∀ (s : State) (c : TtCycle) (rest : List TtCycle), s.domState 78 = 2 → s.tt.buf = c :: rest →
    let held := s.throttled ({ s with tt := { s.tt with buf := rest } }.ttTake c)
    let fires := fun (g : Nat) => s.flag (Reg.ttEqCtrl g) 31 = false ∧
      (∃ u, u < 16 ∧ s.unitFires c u = true ∧ s.eqNames g u = true) ∧ (s.flag (Reg.ttEqCtrl g) 29 = false ∨
        ∀ u, u < 16 → s.eqNames g u = true → s.flag (Reg.ttUCtrl u) 30 = true ∨ s.unitFires c u = true)
    (held = [] → ∃ t, exec .ttCycleEvaluate s = .next t ∧ t.tt.buf = rest ∧ s.MemoryKept t ∧ t.seq = s.seq ∧
      (∀ p, p < 32 → tget (fun _ => []) t.tt.stim p =
        (tget (fun _ => []) s.tt.stim p).filter fun x => !State.keyDue x.key c.cyc || !x.done) ∧
      ((∀ g, g < 4 → s.flag (Reg.ttEqCtrl g) 30 = false) → (∀ a ∈ s.tt.arms, a.1 ≠ c.cyc) →
        (∀ k, k < 16 → s.unitFires c k = true →
          t.flag (Reg.ttUCtrl k) 30 = true ∧ t.reg (Reg.ttUFcycLo k) = c.cyc.setWidth 32) ∧
        (∀ k, k < 16 → s.unitFires c k = false → t.reg (Reg.ttUCtrl k) = s.reg (Reg.ttUCtrl k)) ∧
        ∀ g, g < 4 → (fires g → t.flag (Reg.ttEqCtrl g) 31 = true ∧ t.reg (Reg.ttEqFcycLo g) = c.cyc.setWidth 32) ∧
          (¬ fires g → t.reg (Reg.ttEqCtrl g) = s.reg (Reg.ttEqCtrl g))) ∧
      ∀ n, n < 8 →
        let x := s.stream n
        let ws := s.sampleWords c n
        x.on = true → x.gateOpen = true → x.enKey = none → x.disKey = none → s.streamCount n ≠ 0 →
        (s.flag (Reg.ttSCtrl n) 27 = false ∨ x.lastSample ≠ some ws) →
        (s.streamStop n = false ∨ packetWords x.staging + ws.length + 2 ≤ 8192) →
        ∃ more, (t.stream n).staging = x.staging ++ tracePacket n 2 0 0 x.seqno c.cyc ws :: more) ∧
    (held ≠ [] → ∃ t, exec .ttCycleEvaluate s = .next t ∧ t.tt.buf = s.tt.buf ∧
      t = { s with regs := t.regs, tt := t.tt } ∧ s.RegsKept t (held.map Reg.ttSCnt) ∧
      ∀ n ∈ held, (t.stream n).counted = true ∧ t.fld (Reg.ttSCnt n) 31 16 =
        if (s.stream n).counted then s.fld (Reg.ttSCnt n) 31 16 else min (s.fld (Reg.ttSCnt n) 31 16 + 1) 65535)) ∧
  (∀ (s : State) (who : Who) (v : BitVec 32), s.regNow who Reg.ttStimCmd true false (setBit v 31 true) = true →
    let p := bits v 4 0
    let k : BitVec 48 := BitVec.ofNat 48 (s.pair Reg.ttStimKlo Reg.ttStimKhi)
    let l := tget (fun _ => []) s.tt.stim p
    (s.keyRefused k = false → l.length < 16 → ∃ t x, exec (.stimulusWrite who v) s = .next t ∧
      t = { s with regs := t.regs, tt := t.tt } ∧ s.RegsKept t [Reg.ttStimCmd] ∧
      (∀ q, tget (fun _ => []) t.tt.stim q = if q = p then l ++ [x] else tget (fun _ => []) s.tt.stim q) ∧ x.key = k ∧
      x.val = BitVec.ofNat 64 (s.pair Reg.ttStimDlo Reg.ttStimDhi) ∧ x.dbg = (who == .debug) ∧
      x.done = !s.flag (Reg.ttPDaddrHi p) 31 ∧ t.tt = { s.tt with stim := t.tt.stim }) ∧
    ((s.keyRefused k = true ∨ 16 ≤ l.length) → ∃ t, exec (.stimulusWrite who v) s = .next t ∧ refused s t 2)) ∧
  (∀ (s : State) (p : Nat) (ecc : List EccAt),
    let l := tget (fun _ => []) s.tt.stim p
    let a := s.pair (Reg.ttPDaddrLo p) (Reg.ttPDaddrHi p) % 2 ^ 46
    let b := a / 32 * 32
    let m := s.engMeets (State.ttPacket 3 (BitVec.ofNat 48 (2 ^ 47 + a)))
    let due := s.seq.midnight && !s.seq.settled && !s.regionHolds && !s.inFlight && !(s.master ttNode 0).frozen
    let at_ := l.findIdx? fun x => x.key == s.seq.cycle && !x.done
    let run := exec (.stimulusDelivery ⟨p, ecc⟩) s
    ((due = false ∨ at_ = none ∨ m = 8) → run = .next s) ∧
    ∀ i x, due = true → at_ = some i → l[i]? = some x → m ≠ 8 → ∃ t, run = .next t ∧
      tget (fun _ => []) t.tt.stim p = (if s.tt.buf.any (fun c => c.cyc == s.seq.cycle)
        then l.modify i (fun x => { x with done := true }) else l.eraseIdx i) ∧
      (∀ y, Memory.get t.spad y = Memory.get s.spad y) ∧
      (m = 0 → a % 8 = 0 →
        let byte := fun (k : Nat) => if a % 32 ≤ k ∧ k < a % 32 + 8 then x.val.extractLsb' (8 * (k - a % 32)) 8
          else (s.hbmWord b ecc (k / 8)).extractLsb' (8 * (k % 8)) 8
        (∀ k, k < 32 → Memory.get t.hbm (s.hbmFlat b + k) = byte k) ∧
        (∀ y, s.hbmTwin b = some y → ∀ k, k < 32 → Memory.get t.hbm (y + k) = byte k) ∧
        ∀ y, (y < s.hbmFlat b ∨ s.hbmFlat b + 32 ≤ y) → (∀ z, s.hbmTwin b = some z → y < z ∨ z + 32 ≤ y) →
          Memory.get t.hbm y = Memory.get s.hbm y) ∧
      (m ≠ 0 → s.MemoryKept t ∧ t.flag Reg.seqLoss 3 = true ∧ t.flag Reg.ttErr 31 = true ∧
        (16 ≤ m → (t.master ttNode 0).frozen = true))) ∧
  ∀ (s : State) (n : Nat) (v : BitVec 32), n < 8 →
    let k : BitVec 48 := BitVec.ofNat 48 (s.pair (Reg.ttSKeyLo n) (Reg.ttSKeyHi n))
    let bad := 65536 < s.fld (Reg.ttSCh n) 31 16 + s.fld (Reg.ttSCh n) 15 0 ∨ s.fld (Reg.ttSRbLo n) 11 0 ≠ 0 ∨
      s.fld (Reg.ttSRsize n) 22 0 = 0
    let held := s.fidelity && decide (n < 4)
    let took := fun (t : State) (x : TtStream) => t = { s with regs := t.regs, tt := t.tt } ∧ s.RegsKept t [Reg.ttSCmd n] ∧
      t.tt = { s.tt with streams := t.tt.streams } ∧ t.stream n = x ∧ ∀ m, m ≠ n → t.stream m = s.stream m
    (s.regNow .host (Reg.ttSCmd n) true false (setBits v 31 30 3) = true →
      ((s.keyRefused k = true ∨ bad) → ∃ t, exec (.streamEnable n v) s = .next t ∧ refused s t 1) ∧
      (s.keyRefused k = false → ¬ bad → ∃ t, exec (.streamEnable n v) s = .next t ∧
        took t { s.stream n with enKey := some k })) ∧
    (s.regNow .host (Reg.ttSCmd n) true false (setBits v 31 30 2) = true →
      (held = true → ∃ t, exec (.streamDisable n v) s = .next t ∧ refused s t 3) ∧
      (held = false → s.keyRefused k = true → ∃ t, exec (.streamDisable n v) s = .next t ∧ refused s t 1) ∧
      (held = false → s.keyRefused k = false → ∃ t, exec (.streamDisable n v) s = .next t ∧
        took t { s.stream n with disKey := some k }))

/-- RING_WRITE, RING_WRITE_REPEAT, TRACE_FIFO_READ, TRACE_RD_WRITE (R221, R250, R283, R470 to R473, R476, R478; a ring read that fails: log 86;
a command that must wait on the network: log 90): the first packet in staging that has room leaves it for the ring, whose
words it becomes, WR moves past them round the ring and PKTS counts it; one that the network refuses or that breaks a
check stays and is repeated, a check freezing the TT; without room a STOP stream ends with an OVERFLOW packet and a
THROTTLE stream waits. With the fabric as sink the next words are sent, and once answered RD moves past them, or the
write is repeated. A FIFO read answers the half word at RD as read and moves on, a peek, the fabric as sink or an empty ring moves nothing;
RD takes a word of the ring that lies between RD and WR, and refuses another. A command whose condition does not hold
changes nothing (log 2). -/
def Obligations.TraceRings : Prop :=
  ∀ (s : State) (n : Nat) (ecc : List EccAt), n < 8 →
    let x := s.stream n
    let o := s.ringWr n
    let z := s.ringSize n
    let far := s.flag (Reg.ttSCtrl n) 28
    let frozen := (s.master ttNode 0).frozen
    let answered := fun (k : Nat) => s.tt.resps.findIdx? fun r => r.slot == k
    let idle := x.sent = none ∨ ∃ k w, x.sent = some (k, w) ∧ answered k = none
    let apart := s.ringBase n % 32 = 0 ∧ (∀ m, (s.mc m).mig = none) ∧
      ∀ m k k', m < 6 → k < 62 → k' < 62 → s.pcOf m k = s.pcOf m k' → k = k'
    (s.domState 78 ≠ 2 → (∀ ok, exec (.ringWrite n ⟨ok, ecc⟩) s = .next s) ∧ exec (.ringWriteRepeat n) s = .next s) ∧
    (s.domState 78 = 2 → idle → (frozen = true ∨ x.failed = true) → ∀ ok, exec (.ringWrite n ⟨ok, ecc⟩) s = .next s) ∧
    (s.domState 78 = 2 → idle → frozen = false → x.failed = false →
      (∀ p rest, x.staging = p :: rest → (isOverflow p = true ∨ s.ringRoom n p.length = true) →
        let m := s.ringMeets 1 n o p.length
        (m = 8 → ∀ ok, exec (.ringWrite n ⟨ok, ecc⟩) s = .next s) ∧
        (m = 0 → ∃ t, exec (.ringWrite n ⟨true, ecc⟩) s = .next t ∧
          t = { s with regs := t.regs, tt := t.tt, mcs := t.mcs, spad := t.spad, hbm := t.hbm, hbmBad := t.hbmBad } ∧
          t.tt = { s.tt with streams := t.tt.streams } ∧ t.stream n = { x with staging := rest } ∧
          (∀ j, j ≠ n → t.stream j = s.stream j) ∧
          s.RegsKept t ([Reg.ttSWr n, Reg.ttSCnt n] ++ (List.range 6).map Reg.mcRdpcnt) ∧
          t.reg (Reg.ttSWr n) = BitVec.ofNat 32 ((o + p.length) % z) ∧
          t.fld (Reg.ttSCnt n) 15 0 = min (s.fld (Reg.ttSCnt n) 15 0 + 1) 65535 ∧
          (apart → p.length + 3 ≤ z → ∀ k, k < p.length → t.ringWord n ((o + k) % z) = p.getD k 0)) ∧
        (∀ ok, m ≠ 8 → m ≠ 9 → (m ≠ 0 ∨ ok = false) → ∃ t, exec (.ringWrite n ⟨ok, ecc⟩) s = .next t ∧ s.MemoryKept t ∧
          t.stream n = { x with failed := true } ∧ (16 ≤ m → (t.master ttNode 0).frozen = true) ∧
          (m < 16 → t = { s with tt := t.tt }))) ∧
      (∀ p rest ok, x.staging = p :: rest → isOverflow p = false → s.ringRoom n p.length = false →
        (s.streamStop n = true → ∃ t, exec (.ringWrite n ⟨ok, ecc⟩) s = .next t ∧ (t.stream n).on = false ∧
          t.flag Reg.ttStat n = true ∧ t.flag Reg.seqLoss 4 = true ∧
          ∀ q ∈ (t.stream n).staging, isOverflow q = true ∧ packetSeq q = packetSeq p ∧ packetCyc q = packetCyc p) ∧
        (s.streamStop n = false → far = false → exec (.ringWrite n ⟨ok, ecc⟩) s = .next s)) ∧
      (∀ ok, x.staging = [] → far = false → exec (.ringWrite n ⟨ok, ecc⟩) s = .next s) ∧
      (∀ ok, x.staging = [] → far = true →
        ((s.ringUsed n = 0 ∨ s.freeSlot ttNode 0 = none ∨ x.sent ≠ none) → exec (.ringWrite n ⟨ok, ecc⟩) s = .next s) ∧
        ∀ k, x.sent = none → s.freeSlot ttNode 0 = some k → s.ringUsed n ≠ 0 →
          (∀ m w, m < 8 → (s.stream m).sent ≠ some (k, w)) →
          let g := s.sendSpan n
          let m := s.ringMeets 0 n g.1 g.2
          (m = 8 → exec (.ringWrite n ⟨ok, ecc⟩) s = .next s) ∧
          (m = 0 → ∃ t, exec (.ringWrite n ⟨ok, ecc⟩) s = .next t ∧ t.stream n = { x with sent := some (k, g.2) } ∧
            s.MemoryKept t ∧ t.reg (Reg.ttSRd n) = s.reg (Reg.ttSRd n)) ∧
          (m ≠ 0 → m ≠ 8 → m ≠ 9 → ∃ t, exec (.ringWrite n ⟨ok, ecc⟩) s = .next t ∧ t.stream n = { x with failed := true } ∧
            s.MemoryKept t ∧ (16 ≤ m → (t.master ttNode 0).frozen = true)))) ∧
    (∀ k w i r ok, s.domState 78 = 2 → x.sent = some (k, w) → answered k = some i → s.tt.resps[i]? = some r →
      ∃ t, exec (.ringWrite n ⟨ok, ecc⟩) s = .next t ∧ s.MemoryKept t ∧ t.tt.resps = s.tt.resps.eraseIdx i ∧
        (t.stream n).sent = none ∧ (t.stream n).staging = x.staging ∧
        (r.resp = 0 → (t.stream n).failed = x.failed ∧ t.reg (Reg.ttSRd n) = BitVec.ofNat 32 ((s.ringRd n + w) % z)) ∧
        (r.resp ≠ 0 → (t.stream n).failed = true ∧ t = { s with tt := t.tt })) ∧
    (s.domState 78 = 2 → (x.failed = false ∨ frozen = true) → exec (.ringWriteRepeat n) s = .next s) ∧
    (s.domState 78 = 2 → x.failed = true → frozen = false → ∃ t, exec (.ringWriteRepeat n) s = .next t ∧
      t = { s with regs := t.regs, net := t.net, tt := t.tt } ∧ s.NetKept t ∧ s.RegsKept t [Reg.ttErr] ∧
      t.flag Reg.ttErr 31 = true ∧ t.stream n = { x with failed := false } ∧ ∀ j, j ≠ n → t.stream j = s.stream j) ∧
    (∀ peek, s.regNow .host (Reg.ttSFifo n) false peek 0 = true →
      let m := s.ringMeets 0 n (s.ringRd n) 1
      let w := ((s.ringFetch n (s.ringRd n) 1 ecc).2).getD 0 0
      let run := exec (.traceFifoRead n ⟨peek, ecc⟩) s
      ((frozen = true ∨ m = 8) → run = .next s) ∧
      (frozen = false → m = 0 → ∃ t, run = .next t ∧ s.MemoryKept t ∧
        t.bus = (if x.half then BitVec.ofNat 32 (w.toNat / 2 ^ 32) else w.setWidth 32) ∧
        ((peek = true ∨ far = true ∨ s.ringUsed n = 0) → t.tt = s.tt ∧ t.reg (Reg.ttSRd n) = s.reg (Reg.ttSRd n)) ∧
        (peek = false → far = false → s.ringUsed n ≠ 0 → t.stream n = { x with half := !x.half } ∧
          t.reg (Reg.ttSRd n) = if x.half then BitVec.ofNat 32 ((s.ringRd n + 1) % z) else s.reg (Reg.ttSRd n))) ∧
      (frozen = false → m ≠ 0 → m ≠ 8 → m ≠ 9 → ∃ t, run = .next t ∧ t.tt = s.tt ∧ s.MemoryKept t ∧
        t.bus = (Config.freeValue s.free).setWidth 32 ∧ t.free = s.free + 1 ∧
        (16 ≤ m → (t.master ttNode 0).frozen = true))) ∧
    ∀ v : BitVec 32, s.regNow .host (Reg.ttSRd n) true false v = true →
      (far = true → exec (.traceRdWrite n v) s = .next s) ∧
      (far = false →
        (v.toNat < z → (v.toNat + z - s.ringRd n) % z ≤ s.ringUsed n → ∃ t, exec (.traceRdWrite n v) s = .next t ∧
          t = { s with regs := t.regs, tt := t.tt } ∧ s.RegsKept t [Reg.ttSRd n] ∧ t.reg (Reg.ttSRd n) = v ∧
          t.stream n = { x with half := false } ∧ ∀ j, j ≠ n → t.stream j = s.stream j) ∧
        ((z ≤ v.toNat ∨ s.ringUsed n < (v.toNat + z - s.ringRd n) % z) → ∃ t, exec (.traceRdWrite n v) s = .next t ∧
          t = { s with regs := t.regs, net := t.net } ∧ s.NetKept t ∧ s.RegsKept t [Reg.ttErr] ∧
          t.flag Reg.ttErr 31 = true))

/-! ### Debug -/

/-- DBG_HALT, DBG_HALTNOW, DBG_RESUME, DBG_STEP, DBG_CYCLE, DBG_CANCEL, HALT_POINT_REACHED, HALT_LOCK_BREAK, HALT_COMPLETE (R493 to R500):
a halt arms the point of DBG_HPT, or the midnight FLEAD cycles on where it is fabric-wide, and floods it; a step point of a
midnight the device stands at is that midnight; one already released is the next, with LATE. A resume ends the halt in
force; a step or a cycle sets the position the device runs to; a cancel withdraws every point, gives up a halt
that has not completed, and ends a step or a cycle as a resume does. A point reached is recorded
with its cause; locks still open are broken; the halt then stands, with every point withdrawn.
A command whose condition does not hold changes nothing (log 2); one that must wait on the network: log 90. -/
def Obligations.RunControl : Prop :=
  (∀ (s : State) (v : BitVec 32),
    let now := fun (k : Nat) => s.regNow .host Reg.dbgRun true false (runWord v k) = true
    let wide := v.getLsbD 27 || s.fld Reg.seqNbr 11 0 != 0
    let flood := fun (t : State) (kind : Nat) (cyc : BitVec 48) =>
      (wide = false → t.ports = s.ports ∧ t.fab = s.fab) ∧
      (wide = true → t.fab.seenSeq = some s.fab.nextSeq ∧ ∀ p, p < 8 → (t.port p).ctrlOut = (s.port p).ctrlOut ++
        if s.lnkState p = 2 then [BitVec.ofNat 64 (kind * 2 ^ 56 + s.fab.nextSeq * 2 ^ 48 + cyc.toNat)] else [])
    let lead := s.seq.cycle + BitVec.ofNat 48 (s.fld Reg.dbgCtrl 23 20)
    (now 1 → let step0 := s.fld Reg.dbgHptHi 26 16
     let cyc0 : BitVec 48 := ((s.reg Reg.dbgHptHi).setWidth 16 ++ s.reg Reg.dbgHptLo).setWidth 48
     let led := wide && decide (step0 < s.len)
     let cyc := if led = true then lead else cyc0
     let step := if led = true ∨ (s.seq.midnight = true ∧ cyc = s.seq.cycle) then 0x7FF else step0
     let late := decide (s.len ≤ step) && s.seq.run && State.cycBefore cyc s.seq.cycle
     ∃ t, exec (.dbgHalt v) s = .next t ∧ t = { s with regs := t.regs, dbg := t.dbg, ports := t.ports, fab := t.fab } ∧
      s.RegsKept t [Reg.dbgRun, Reg.dbgStat] ∧ t.dbg = { s.dbg with points := (s.dbg.points.filter fun q => q.cause ≠ 1) ++
        [{ cyc := if late then s.seq.cycle else cyc, step := step, cause := 1 }] } ∧
      (late = true → t.flag Reg.dbgStat 28 = true) ∧ (wide = true → t.flag Reg.dbgStat 22 = true) ∧ flood t 2 cyc) ∧
    (now 5 → wide = false → ∃ t, exec (.dbgHaltnow v) s = .next t ∧ t = { s with regs := t.regs, dbg := t.dbg } ∧
      s.RegsKept t [Reg.dbgRun] ∧
      t.dbg = { s.dbg with now := true, nowCause := if s.dbg.now then min 2 s.dbg.nowCause else 2 }) ∧
    (now 5 → wide = true → 0 < s.len → ∃ t, exec (.dbgHaltnow v) s = .next t ∧ t.dbg.now = s.dbg.now ∧ flood t 2 lead ∧
      t.dbg.points = s.dbg.points ++ [{ cyc := lead, step := 0x7FF, cause := 2 }]) ∧
    (now 2 → s.seqState = 3 → ∃ t, exec (.dbgResume v) s = .next t ∧
      t = { s with regs := t.regs, dbg := t.dbg, clus := t.clus, ports := t.ports, fab := t.fab } ∧
      s.RegsKept t [Reg.dbgRun, Reg.dbgStat, Reg.tioCadStat, Reg.wdgStat, Reg.wdgStrem] ∧
      t.dbg = { s.dbg with now := false, reached := none, stallAt := some (s.seq.cycle, s.minStep) } ∧
      t.flag Reg.dbgStat 31 = false ∧ t.seqState ≠ 3 ∧
      t.flag Reg.wdgStat 30 = false ∧ (∀ e ∈ t.clus, e.2.turned = false) ∧ flood t 3 0) ∧
    (now 2 → s.seqState ≠ 3 → ∃ t, exec (.dbgResume v) s = .next t ∧ t = { s with regs := t.regs, net := t.net } ∧ s.NetKept t ∧
      s.RegsKept t [Reg.dbgRun, Reg.dbgStat] ∧ t.flag Reg.dbgStat 27 = true) ∧
    (s.seqState = 3 → s.flag Reg.dbgStat 29 = false → wide = false →
      let at_ := fun (n : Nat) =>
        let i := s.haltIdx + n
        ({ cyc := s.haltCyc + BitVec.ofNat 48 (i / (s.len + 1)),
           step := if i % (s.len + 1) = s.len then 0x7FF else i % (s.len + 1), cause := 0 } : HaltPt)
      ∀ c ∈ [(Instr.dbgStep v, max 1 (bits v 15 0), 3),
          (Instr.dbgCycle v, (if s.haltIdx = s.len then s.len + 1 else s.len - s.haltIdx), 4)],
        now c.2.2 → ∃ t, exec c.1 s = .next t ∧ t = { s with regs := t.regs, dbg := t.dbg, clus := t.clus } ∧
          t.dbg = { s.dbg with now := false, reached := none, target := some (at_ c.2.1),
                               stallAt := some (s.seq.cycle, s.minStep) } ∧ t.flag Reg.dbgStat 31 = false ∧
          t.fld Reg.dbgStat 15 0 = if c.2.2 = 3 then c.2.1 else 0) ∧
    (s.seqState ≠ 3 ∨ s.flag Reg.dbgStat 29 = true ∨ wide = true → ∀ c ∈ [(Instr.dbgStep v, 3), (Instr.dbgCycle v, 4)],
      now c.2 → ∃ t, exec c.1 s = .next t ∧ t = { s with regs := t.regs, net := t.net } ∧ s.NetKept t ∧
        s.RegsKept t [Reg.dbgRun, Reg.dbgStat] ∧ t.flag Reg.dbgStat 27 = true) ∧
    (now 6 → ∃ t, exec (.dbgCancel v) s = .next t ∧
      t.dbg = { s.dbg with points := [], now := false, target := none,
                           reached := if s.flag Reg.dbgStat 31 then s.dbg.reached else none,
                           stallAt := if s.dbg.target.isSome then some (s.seq.cycle, s.minStep) else s.dbg.stallAt } ∧
      (s.epq = [] ∨ s.dbg.reached = none ∨ s.flag Reg.dbgStat 31 = true →
        t = { s with regs := t.regs, dbg := t.dbg, clus := t.clus } ∧
        s.RegsKept t [Reg.dbgRun, Reg.dbgStat, Reg.wdgStat, Reg.wdgStrem]) ∧ s.MemoryKept t ∧ t.fld Reg.dbgStat 15 0 = 0 ∧
      (s.flag Reg.dbgStat 31 = true → s.BitsKept t Reg.dbgStat 15 0 ∧ t.clus = s.clus) ∧
      (s.flag Reg.dbgStat 31 = false → t.flag Reg.dbgStat 29 = false ∧ t.flag Reg.dbgStat 26 = false) ∧
      (s.dbg.target = none → t.reg Reg.wdgStat = s.reg Reg.wdgStat ∧ t.reg Reg.wdgStrem = s.reg Reg.wdgStrem) ∧
      (s.dbg.target.isSome = true → t.flag Reg.wdgStat 30 = false ∧
        t.reg Reg.wdgStrem = BitVec.ofNat 32 (100 * s.fld Reg.wdgStall 15 0)))) ∧
  ∀ s : State,
    (∀ p ragged, s.dbg.reached = none → s.flag Reg.dbgStat 31 = false → s.haltPick = some (p, ragged) → p.cause < 8 →
      ∃ t, exec .haltPointReached s = .next t ∧ t = { s with regs := t.regs, dbg := { s.dbg with reached := some p } } ∧
        s.RegsKept t [Reg.dbgStat] ∧ t.flag Reg.dbgStat 29 = ragged ∧ t.fld Reg.dbgStat 25 23 = p.cause ∧
        t.flag Reg.dbgStat 26 = !s.openLocks.isEmpty) ∧
    (s.dbg.reached.isSome = true ∨ s.flag Reg.dbgStat 31 = true ∨ s.haltPick = none →
      exec .haltPointReached s = .next s) ∧
    (s.flag Reg.dbgStat 26 = true → ∃ t, exec .haltLockBreak s = .next t ∧
      (s.epq = [] → t = { s with regs := t.regs, locks := t.locks } ∧ s.RegsKept t [Reg.dbgLkbrk]) ∧
      t.fld Reg.dbgLkbrk 15 0 = min (s.fld Reg.dbgLkbrk 15 0 + s.openLocks.length) 65535 ∧ s.MemoryKept t ∧
      (∀ n ∈ s.openLocks, (s.lock n).isOpen = true → (t.lock n).isOpen = false ∧
        ((s.lock n).node, (s.lock n).mid) ∈ (t.lock n).broken) ∧
      ∀ n, n ∉ s.openLocks → t.lock n = s.lock n) ∧
    (s.flag Reg.dbgStat 26 = false → exec .haltLockBreak s = .next s) ∧
    (∀ p, s.dbg.reached = some p → (s.flag Reg.dbgStat 26 = false ∨ s.openLocks = []) →
      ∃ t, exec .haltComplete s = .next t ∧ (s.epq = [] → t = { s with regs := t.regs, dbg := t.dbg, net := t.net } ∧
        s.RegsKept t [Reg.dbgStat, Reg.dbgHcycLo, Reg.dbgHcycHi, Reg.wdgStat] ∧ s.NetKept t ∧
        (s.flag Reg.dbgCtrl 2 = true ↔ t.net ≠ s.net)) ∧ t.flag Reg.dbgStat 31 = true ∧ t.flag Reg.wdgStat 30 = true ∧
        t.dbg = { s.dbg with points := [], now := false, reached := none, target := none } ∧
        t.reg Reg.dbgHcycLo = p.cyc.setWidth 32 ∧ s.MemoryKept t ∧ (s.seq.faulted = false → t.seqState = 3)) ∧
    (s.dbg.reached = none ∨ (s.flag Reg.dbgStat 26 = true ∧ s.openLocks ≠ []) → exec .haltComplete s = .next s)

/-- AUTH_NEW_CHALLENGE, AUTH_CHECK, FUSE_PROGRAM, FUSE_PROGRAM_DONE (R490, R491; a GO while a word is being programmed: log 37; a command
that must wait on the network: log 90): a challenge fills DBG_CHAL; a check compares once, unlocks or counts a failure, and
after four is not made; a fuse word is programmed on the debugger's armed command in IDLE, else refused, and its bits only
become 1. AWL_READ, AWL_WRITE (R245, R250, R283, R484 to R489; what an access meets: log 29): a bad frame is counted and answered 9, a locked port answers 8 but to
its open registers, the DM's own registers are read and written inside it; any other access is made as one of the debug
master's, of a register, of a bank word or of an HBM word, and answered with its words and code: a code of the network, 5 on an
uncorrected error, 4 on a violation, which freezes the DM, or while it is frozen; one that must wait leaves everything else
as it was; one through a remote window goes out and is answered when its response has come. While a device reset is in
force nothing is answered. -/
def Obligations.DebugPort : Prop :=
  (∀ (s : State) (rnd : BitVec 256), ∃ t, exec (.authNewChallenge rnd) s = .next t ∧
    t = { s with regs := t.regs, dbg := { s.dbg with freshCh := true } } ∧
    s.RegsKept t ((List.range 8).map Reg.dbgChal) ∧ t.regs256 Reg.dbgChal = rnd) ∧
  (∀ s : State,
    let fails := s.fld Reg.dbgAwl 29 27
    let ok := s.dbg.freshCh && s.regs256 Reg.dbgResp == s.authResponse
    (4 ≤ fails → exec .authCheck s = .next s) ∧
    (fails < 4 → ∃ t, exec .authCheck s = .next t ∧ t = { s with regs := t.regs, dbg := { s.dbg with freshCh := false } } ∧
      s.RegsKept t (if ok then [Reg.dbgAuth] else [Reg.dbgAwl]) ∧ (ok = true → t.flag Reg.dbgAuth 29 = true) ∧
      (ok = false → t.fld Reg.dbgAwl 29 27 = fails + 1 ∧ s.BitsKept t Reg.dbgAwl 29 27))) ∧
  (∀ (s : State) (who : Who) (v : BitVec 32),
    let g := bits v 27 24
    let w := bits v 5 0
    let d := s.reg Reg.dbgFuseData
    let lock := g == 3 && d.getLsbD 12 && !(s.fuseSet 3 0).getLsbD 13 && !d.getLsbD 13
    let ok := s.flag Reg.dbgFuseCtrl 30 && decide (w < State.fuseCount g) && who == .debug && s.seqState == 0 && !lock &&
      s.dbg.fuse.isNone
    s.regNow who Reg.dbgFuseCtrl true false (setBit v 31 true) = true →
    ∃ t, exec (.fuseProgram who v) s = .next t ∧ s.RegsKept t [Reg.dbgFuseCtrl] ∧ t.flag Reg.dbgFuseCtrl 30 = false ∧
      (ok = true → t = { s with regs := t.regs, dbg := { s.dbg with fuse := some (g, w, d) } }) ∧
      (ok = false → t = { s with regs := t.regs } ∧ t.flag Reg.dbgFuseCtrl 28 = true)) ∧
  (∀ s : State, (∀ g w d, s.dbg.fuse = some (g, w, d) → ∃ t, exec .fuseProgramDone s = .next t ∧
      t = { s with fuses := t.fuses, dbg := { s.dbg with fuse := none } } ∧
      tget (fun _ => 0) t.fuses (64 * g + w) = tget (fun _ => 0) s.fuses (64 * g + w) ||| d ∧
      ∀ k, k ≠ 64 * g + w → tget (fun _ => (0 : BitVec 32)) t.fuses k = tget (fun _ => 0) s.fuses k) ∧
    (s.dbg.fuse = none → exec .fuseProgramDone s = .next s)) ∧
  ∀ (s : State) (f : List (BitVec 8)) (rate : Nat) (ecc : List EccAt), rate < 256 →
    let rd := fun (c : Option (Nat × Nat)) => Instr.awlRead f rate ecc c
    let wr := fun (c : Option (Nat × Nat)) => Instr.awlWrite f rate ⟨ecc, c⟩
    let answered := fun (t : State) (code : Nat) (data : List (BitVec 32)) => t.pkg = { s.pkg with
      awlOut := awlFrame code data, awlWant := none, awlPart := none } ∧ t.fld Reg.dbgAwl 23 16 = rate
    let answers := fun (t u : State) (code : Nat) (data : List (BitVec 32)) =>
      t = { u with regs := t.regs, pkg := t.pkg } ∧ u.RegsKept t [Reg.dbgAwl] ∧ answered t code data
    ((s.inReset = true ∨ s.pkg.vaon = false) → ∀ stop, exec (rd stop) s = .next s ∧ exec (wr stop) s = .next s) ∧
    (s.inReset = false → s.pkg.vaon = true →
      (awlRequest f = none → ∀ stop, ∀ c ∈ [rd stop, wr stop], ∃ t, exec c s = .next t ∧
        answers t s 9 [] ∧ t.fld Reg.dbgAwl 15 0 = min (s.fld Reg.dbgAwl 15 0 + 1) 65535) ∧
      ∀ r, awlRequest f = some r →
        let c := if r.wr then wr else rd
        let opens := State.awlInside r && (List.range r.n).all fun i => State.awlOpen (aOff r.addr + 4 * i)
        let a := r.addr
        let pk := State.dmPacket r.wr r.peek a
        let m := s.engMeets pk
        let tl := (s.destOf a).bind fun n => tileAt (n % 10) (n / 10)
        let v := r.data.getD 1 0 ++ r.data.getD 0 0
        (∀ stop, exec ((if r.wr then rd else wr) stop) s = .next s) ∧
        (s.awlLocked = true → opens = false → ∀ stop, ∃ t, exec (c stop) s = .next t ∧ answers t s 8 [] ∧
          s.BitsKept t Reg.dbgAwl 23 16) ∧
        ((s.awlLocked = false ∨ opens = true) → State.awlInside r = true → ∀ stop,
          let k := 0x100000 * dmNode + aOff a
          (r.wr = false → ∃ t, exec (c stop) s = .next t ∧ answers t (s.dmInside r).1 0 (s.dmInside r).2 ∧
            (r.n = 1 → (s.dmInside r).2 = [s.view k] ∧ (s.dmInside r).1 = s.readEffect k r.peek)) ∧
          (r.wr = true → ∃ t, exec (c stop) s = .next t ∧ t.pkg.awlOut = awlFrame 0 [] ∧ t.fld Reg.dbgAwl 23 16 = rate ∧
            ∀ w, r.data = [w] → t = { s.writeReg .debug k w with regs := t.regs, pkg := t.pkg } ∧
              (s.writeReg .debug k w).RegsKept t [Reg.dbgAwl])) ∧
        (s.awlLocked = false → State.awlInside r = false → s.pkg.awlPart = none →
          ((s.master dmNode 0).frozen = true → ∃ t, exec (c none) s = .next t ∧ answers t s 4 []) ∧
          (∀ k, 1 ≤ k → k ≤ 7 → k ≠ 5 ∨ r.wr = true → ∃ t, exec (c (some (0, k))) s = .next t ∧ answers t s k []) ∧
          (aSpace a = 0 → (s.destOf a).any (fun n => State.isRemote n pk) = true → State.formatCause pk = 0 →
            s.contextCause pk = 0 → (s.master dmNode 0).frozen = false →
            let key := 0x100000 * (s.destOf a).getD 0 + aOff a
            let u := fun (k : Nat) => s.dmRemote (State.regPacket .debug key r.wr r.peek (if r.wr then r.data.getD 0 0 else 0)) k
            ∀ k, s.freeSlot dmNode 0 = some k → ∃ t, exec (c none) s = .next t ∧
              t = { u k with pkg := { (u k).pkg with awlWant := none, awlPart := some ⟨f, 0, [], k⟩ } }) ∧
          ((aSpace a ≠ 0 ∨ (s.destOf a).any (fun n => State.isRemote n pk) = false) → (s.master dmNode 0).frozen = false →
            (m = 8 → ∃ t, exec (c none) s = .next t ∧ t = { s with pkg := { s.pkg with awlWant := t.pkg.awlWant } }) ∧
            (1 ≤ m → m ≤ 7 → m ≠ 5 → ∃ t, exec (c none) s = .next t ∧ answers t s m []) ∧
            (16 ≤ m → ∃ t, exec (c none) s = .next t ∧ (t.master dmNode 0).frozen = true ∧ s.MemoryKept t ∧
              answered t 4 []) ∧
            (m = 0 → aSpace a = 0 → r.n = 1 → ∀ n, s.destOf a = some n →
              let k := 0x100000 * n + aOff a
              let u := tl.elim s fun i => s.rangeUnits i pk false
              (r.wr = true → ∀ w, r.data = [w] → ∃ t, exec (c none) s = .next t ∧ t.pkg.awlOut = awlFrame 0 [] ∧
                t = { u.writeReg .debug k w with regs := t.regs, pkg := t.pkg } ∧
                (u.writeReg .debug k w).RegsKept t [Reg.dbgAwl]) ∧
              (r.wr = false → ∃ t, exec (c none) s = .next t ∧ t.pkg.awlOut = awlFrame 0 [u.view k] ∧
                t = { u.readEffect k r.peek with regs := t.regs, pkg := t.pkg } ∧
                (u.readEffect k r.peek).RegsKept t [Reg.dbgAwl])) ∧
            (m = 0 → aSpace a = 1 → r.n = 2 → ∀ i, tl = some i →
              let old := s.spWord i (aBank a) (aWord a)
              (r.wr = true → ∃ t, exec (c none) s = .next t ∧ answered t 0 [] ∧ t.spWord i (aBank a) (aWord a) = v ∧
                (s.bankOwn i (aBank a) = 1 → t.flag Reg.seqLoss 1 = true) ∧ (∀ x, Memory.get t.hbm x = Memory.get s.hbm x) ∧
                ∀ x, (x < State.spAddr i (aBank a) (aWord a) ∨ State.spAddr i (aBank a) (aWord a) + 8 ≤ x) →
                  Memory.get t.spad x = Memory.get s.spad x) ∧
              (r.wr = false → ∃ t, exec (c none) s = .next t ∧ s.MemoryKept t ∧
                let w := eccWord (eccOf ecc 0) old
                answered t (if State.anyUe ecc 1 then 5 else 0) [w.setWidth 32, w.extractLsb' 32 32])) ∧
            (m = 0 → aSpace a = 2 → r.n = 2 →
              let b := aHbm a / 32 * 32
              let byte := fun (k : Nat) => if aHbm a % 32 ≤ k ∧ k < aHbm a % 32 + 8
                then v.extractLsb' (8 * (k - aHbm a % 32)) 8 else (s.hbmWord b ecc (k / 8)).extractLsb' (8 * (k % 8)) 8
              (r.wr = true → ∃ t, exec (c none) s = .next t ∧ answered t 0 [] ∧
                (∀ x, Memory.get t.spad x = Memory.get s.spad x) ∧
                (∀ k, k < 32 → Memory.get t.hbm (s.hbmFlat b + k) = byte k) ∧
                (∀ y, s.hbmTwin b = some y → ∀ k, k < 32 → Memory.get t.hbm (y + k) = byte k) ∧
                ∀ y, (y < s.hbmFlat b ∨ s.hbmFlat b + 32 ≤ y) → (∀ z, s.hbmTwin b = some z → y < z ∨ z + 32 ≤ y) →
                  Memory.get t.hbm y = Memory.get s.hbm y) ∧
              (r.wr = false → ∃ t, exec (c none) s = .next t ∧ s.MemoryKept t ∧
                let w := s.hbmWord (aHbm a) ecc 0
                answered t (if s.hbmAnyUe (aHbm a) ecc 1 then 5 else 0) [w.setWidth 32, w.extractLsb' 32 32])))) ∧
        ∀ y p, s.awlLocked = false → State.awlInside r = false → s.pkg.awlPart = some y → y.frame = f → y.done = 0 → y.out = [] →
          r.n = 1 → aSpace a = 0 →
          ((tget (fun _ => Slot.empty) (s.master dmNode 0).slots y.slot).req.isSome = true → ∃ t, exec (c none) s = .next t ∧
            t = { s with pkg := { s.pkg with awlWant := none, awlPart := some y } }) ∧
          ((tget (fun _ => Slot.empty) (s.master dmNode 0).slots y.slot).req = none → (s.master dmNode 0).last = some p →
            p.slot = y.slot → p.resp ≠ 5 → ∃ t, exec (c none) s = .next t ∧ answers t s p.resp
              (if r.wr = false ∧ p.resp = 0 then [State.flitReg (p.data.getD 0 0) (aOff a % 32 / 4)] else [])))

/-! ### The target interface -/

/-- SAMPLE_INSTANT (R513 to R518, R522 to R527; a heartbeat's pins: R381; what the recorder's request meets: log 87; a bidirectional
pin that drives is free: log 24), at a midnight that waits for nothing but it, or as the last wait of the dawn, with
the TIO on: a full or an empty ring makes it wait, as does a recorder request that must wait; a replayed record of another
cycle breaks the run; otherwise every input
of a working bank is sampled, every other pin reads 0, the converter of
an input shows its level, whether an edge came and when, a recorded instant is in the ring unless the request for it failed, a replayed one gives its levels and moves RD, the single pin
that names a flop entry of an ACTIVE region is delivered there, plain outputs take their channels, and at the dawn the
first step begins. -/
def Obligations.SampleInstants : Prop :=
  ∀ (s : State) (now : Nat) (ecc : List EccAt),
    let first := s.dawnSampling
    let due := s.seq.midnight && !s.tio.instant && s.seqState == 2 && (!s.flag Reg.tioCadCtrl 31 || s.tio.paired)
    let k := if first then s.seq.cycle else s.seq.cycle + 1
    let on := (due || first) && !s.tio.broken && (s.domState 80 == 2 || s.domState 80 == 3)
    let go := on = true ∧ s.recBlocked = false ∧ s.recMeets ≠ 8
    let word := (s.recRead ecc).2.1
    let lev := (s.recRead ecc).2.2
    let run := exec (.sampleInstant ⟨now, ecc⟩) s
    ((on = false ∨ (s.recBlocked = false ∧ s.recMeets = 8)) → run = .next s) ∧
    (on = true → s.recBlocked = true → ∃ t, run = .next t ∧ s.OnlyField t Reg.tioRecStat 31 31 ∧
      t.flag Reg.tioRecStat 31 = true) ∧
    (go → s.recDir = 2 → word ≠ k.setWidth 64 →
      ∃ t, run = .next t ∧ t.tio = { s.tio with broken := true } ∧ t.flag Reg.tioRecStat 30 = true ∧
        t.seq.run = s.seq.run ∧ t.seq.cycle = s.seq.cycle ∧ t.clus = s.clus ∧ s.MemoryKept t) ∧
    (go → (s.recDir = 2 → word = k.setWidth 64) → s.tio.safe = true →
      ∃ t, run = .next t ∧ t.tio = { s.tio with instant := true } ∧ t.clus = s.clus ∧ s.MemoryKept t ∧
        t.seq.run = (s.seq.run || first) ∧ (first = false → s.recDir ≠ 2 →
          t = { s with regs := t.regs, free := t.free, tio := t.tio } ∧ s.RegsKept t [Reg.tioRecStat])) ∧
    (go → (s.recDir = 2 → word = k.setWidth 64) → s.tio.safe = false →
      let replayed := fun (p : Nat) => s.recDir == 2 && s.flag (Reg.tioPin p) 29
      ∃ t, run = .next t ∧ t.seq.run = (s.seq.run || first) ∧ t.seq.cycle = s.seq.cycle ∧
        ((first = false ∨ s.fidelity = false) → s.recDir = 0 →
          t = { s with free := t.free, regs := t.regs, tio := t.tio, clus := t.clus, seq := t.seq, dawn := t.dawn, dbg := t.dbg }) ∧
        (first = true → t.dawnState = 8 ∧ t.tio.outs = s.tio.outs) ∧
        t.tio.instant = true ∧ t.tio.before = s.tio.samp ∧ t.tio.edges = 0 ∧ t.tio.levels = s.tio.levels ∧
        (∀ p, p < 640 → t.tio.samp.getLsbD p =
          if s.pinIn p = true ∧ replayed p = true then lev.getLsbD p
          else if s.pinIn p = true ∧ s.pinDrive p = none then s.bankOk (p / 40) && s.tio.levels.getLsbD p
          else s.pinIn p && t.tio.samp.getLsbD p) ∧
        (∀ p, p < 640 → s.pinIn p = true → t.flag (Reg.tioTdc p) 30 = t.tio.samp.getLsbD p ∧
          (replayed p = false → t.flag (Reg.tioTdc p) 31 = s.tio.edges.getLsbD p ∧ t.fld (Reg.tioTdc p) 23 0 =
            let e := tget (fun _ => 0) s.tio.times p
            if e = 0 then 0xFFFFFF else min (now - (e - 1)) 0xFFFFFF)) ∧
        (∀ p, p < 640 → s.pinIn p = true → replayed p = false → (s.flag (Reg.tioPdst p) 31 = true ∨ s.pinWatched p = true) →
          t.flag Reg.seqLoss 0 = true) ∧
        (∀ p i, p < 640 → s.pinIn p = true → s.flag (Reg.tioPdst p) 31 = true →
          (∀ q, q < 640 → q ≠ p → s.flag (Reg.tioPdst q) 31 = false) →
          let d := s.reg (Reg.tioPdst p)
          let c := 8 * physRow (s.srow i) (bits d 21 19) + bits d 24 22
          s.physTile (bits d 30 28) (bits d 27 25) = some i → s.tileActive i = true →
          (rowOf (t.clu i c).flop (physUnit (s.bpSkips i c) (bits d 18 13))).getLsbD (bits d 12 3) = t.tio.samp.getLsbD p ∧
          s.ClustersKept t i c) ∧
        (first = false → ∀ p, p < 640 → 2 ≤ s.pinDir p → s.flag (Reg.tioPin p) 19 = false →
          let src := s.reg (Reg.tioPsrc p)
          t.tio.outs.getLsbD p = tget (fun _ => false) s.tio.chans (bits src 31 16) ∧
          t.tio.oe.getLsbD p = (s.pinDir p == 2 || tget (fun _ => false) s.tio.chans (bits src 15 0))) ∧
        ((s.recDir ≠ 1 ∨ s.recMeets ≠ 0) → s.MemoryKept t) ∧
        (s.recDir = 1 → (s.recMeets = 0 →
            t.hbm = (s.hbmWriteNow s.recWrAddr (State.recordBytes k (t.tio.samp &&& s.recMask)) []).hbm) ∧
          (16 ≤ s.recMeets → (t.master tioNode 0).frozen = true) ∧
          t.reg Reg.tioRecWr = BitVec.ofNat 32 (s.recNext (s.reg Reg.tioRecWr).toNat)) ∧
        (s.recDir = 2 → t.reg Reg.tioRecRd = BitVec.ofNat 32 (s.recNext (s.reg Reg.tioRecRd).toNat)) ∧
        ((s.recDir = 1 ∨ s.recDir = 2) → t.fld Reg.tioRecStat 15 0 = min (s.fld Reg.tioRecStat 15 0 + 1) 65535))

/-- CADENCE_TICK, CADENCE_CLOCK_FALL, CADENCE_LOCK_LOSS, CADENCE_RELOCK, VCCO_OUT_OF_WINDOW, VCCO_RETURN, REC_DIR_WRITE, INPUT_EDGE
(R514, R515, R517, R519 to R522, R524): a tick sets the clock pins, but for a stopped clock, and ends the dawn's wait, pairs with the
midnight, waits, or slips; half a period later they fall; lock lost and regained shows in CAD_STAT; a measured supply
shows in its bank with whether the standard allows it; the direction is written in the go wait only; an edge at an input
is kept with its time.
A command whose condition does not hold changes nothing (log 2); a write that must wait on the network: log 90. -/
def Obligations.CadenceBanksAndPins : Prop :=
  (∀ s : State,
    let clock := fun (t : State) (b : Bool) => ∀ p, t.tio.outs.getLsbD p =
      if p < 640 ∧ 2 ≤ s.pinDir p ∧ s.flag (Reg.tioPin p) 19 = true then b else s.tio.outs.getLsbD p
    let ticks := s.flag Reg.tioCadCtrl 31 && s.flag Reg.tioCadStat 31
    let highs := fun (t : State) => (s.clockStopped = false → clock t true) ∧ (s.clockStopped = true → t.tio.outs = s.tio.outs)
    let dawn := s.fld Reg.dwnStat 31 28 == 7 && s.dawn.done == 3
    let pairs := s.seq.midnight && !s.tio.paired && !s.tio.instant
    (ticks = false → exec .cadenceTick s = .next s) ∧
    (ticks = true → dawn = true → ∃ t, exec .cadenceTick s = .next t ∧ highs t ∧
      t = { s with tio := { s.tio with outs := t.tio.outs }, dawn := { s.dawn with done := 4 } }) ∧
    (ticks = true → dawn = false → (s.seqState = 3 ∨ s.seq.run = false) → ∃ t, exec .cadenceTick s = .next t ∧ highs t ∧
      t = { s with tio := { s.tio with outs := t.tio.outs } }) ∧
    (ticks = true → dawn = false → s.seqState ≠ 3 → s.seq.run = true →
      (pairs = true → ∃ t, exec .cadenceTick s = .next t ∧ highs t ∧
        t = { s with tio := { s.tio with outs := t.tio.outs, paired := true } }) ∧
      (pairs = false → ∃ t, exec .cadenceTick s = .next t ∧ highs t ∧ s.RegsKept t [Reg.tioCadStat] ∧
        t = { s with regs := t.regs, tio := { s.tio with outs := t.tio.outs } } ∧ t.flag Reg.tioCadStat 30 = true ∧
        t.fld Reg.tioCadStat 15 0 = if s.flag Reg.tioCadStat 30 = true then min (s.fld Reg.tioCadStat 15 0 + 1) 65535
          else s.fld Reg.tioCadStat 15 0)) ∧
    (∃ t, exec .cadenceClockFall s = .next t ∧ clock t false ∧ t = { s with tio := { s.tio with outs := t.tio.outs } }) ∧
    (∃ t, exec .cadenceRelock s = .next t ∧ s.OnlyField t Reg.tioCadStat 31 31 ∧ t.flag Reg.tioCadStat 31 = true) ∧
    (s.seq.run = false ∨ s.flag Reg.tioCadStat 31 = false → ∃ t, exec .cadenceLockLoss s = .next t ∧
      s.OnlyField t Reg.tioCadStat 31 31 ∧ t.flag Reg.tioCadStat 31 = false) ∧
    (s.seq.run = true → s.flag Reg.tioCadStat 31 = true → ∃ t, exec .cadenceLockLoss s = .next t ∧
      t = { s with regs := t.regs, net := t.net, ledger := t.ledger } ∧ t.flag Reg.tioCadStat 31 = false ∧ s.NetKept t ∧
      s.RegsKept t [Reg.tioCadStat, Reg.sprLgWr, Reg.sprLgLost] ∧
      (s.flag Reg.tioCtrl 2 = true → ∃ f ∈ t.net, f.pk.cmd = 8 ∧ f.pos = tioNode ∧ bits f.pk.addr 7 0 = 50))) ∧
  (∀ (s : State) (b v : Nat), b < 16 →
    let k := Reg.tioBank b
    let std := s.fld k 31 28
    let fell := s.bankOk b && !vccoOk std v
    ∀ c ∈ [Instr.vccoOutOfWindow b v, Instr.vccoReturn b v], ∃ t, exec c s = .next t ∧
      t = { s with regs := t.regs, net := t.net, ledger := t.ledger } ∧ s.NetKept t ∧ t.fld k 23 16 = min v 255 ∧
      t.bankOk b = vccoOk std v ∧ (t.view k).getLsbD 25 = vccoOk std v ∧ t.flag k 24 = (s.flag k 24 || fell) ∧
      s.RegsKept t (if fell then [k, Reg.sprLgWr, Reg.sprLgLost] else [k]) ∧
      (fell = false → t.net = s.net ∧ t.ledger = s.ledger)) ∧
  (∀ (s : State) (v : BitVec 32), s.regNow .host Reg.tioRecCtrl true false v = true →
    (s.seqState = 0 → s.fld Reg.dwnStat 31 28 = 6 → ∃ t, exec (.recDirWrite v) s = .next t ∧ s.OnlyRegs t [Reg.tioRecCtrl] ∧
      t.reg Reg.tioRecCtrl = v &&& 3#32) ∧
    (s.seqState ≠ 0 ∨ s.fld Reg.dwnStat 31 28 ≠ 6 → ∃ t, exec (.recDirWrite v) s = .next t ∧
      s.OnlyField t Reg.tioStat 15 15 ∧ t.flag Reg.tioStat 15 = true)) ∧
  ∀ (s : State) (p : Nat) (b : Bool) (time : Nat),
    (p < 640 → s.tio.levels.getLsbD p ≠ b → ∃ t, exec (.inputEdge p b time) s = .next t ∧
      t = { s with tio := { s.tio with levels := t.tio.levels, edges := t.tio.edges, times := t.tio.times } } ∧
      (∀ q, q < 640 → t.tio.levels.getLsbD q = if q = p then b else s.tio.levels.getLsbD q) ∧
      (∀ q, q < 640 → t.tio.edges.getLsbD q = (s.tio.edges.getLsbD q || decide (q = p))) ∧
      tget (fun _ => 0) t.tio.times p = time + 1 ∧
      ∀ q, q ≠ p → tget (fun _ => 0) t.tio.times q = tget (fun _ => 0) s.tio.times q) ∧
    (640 ≤ p ∨ s.tio.levels.getLsbD p = b → exec (.inputEdge p b time) s = .next s)

/-! ### The power and sparing manager -/

/-- MODE_APPLY, PM_LIMIT_CHECK, ECONOMY_CHECK, VCORE_RAMP_DONE (R535 to R541, R573): a refused preset sets ERR and nothing else; one
that is taken is in force with its VCORE request; FIDELITY is entered with its four streams enabled, when the trace engine's domain
is on (log 32); over a limit VCORE steps down, with room it steps up to the preset's; ECONOMY powers down what is on and idle, or has
ERR where that is refused; a rail that has reached its request no longer ramps. A write that something keeps waiting takes effect as
RegistersKeepTheirAccessCodes says.
A command whose condition does not hold changes nothing (log 2). -/
def Obligations.ModesAndLimits : Prop :=
  (∀ (s : State) (v : BitVec 32) (acks : BitVec 4), s.regNow .host Reg.modeCtrl true false (setBit v 31 true) = true →
    let p := bits v 28 27
    let fid := v.getLsbD 26
    let req := presetReq p
    let leaves := s.fld Reg.modeStat 31 30 = 2 ∧ p ≠ 2
    let streams := fun (t : State) => ∀ n, n < 4 →
      let ring := 2 ^ 47 + s.pair Reg.modeFrbLo Reg.modeFrbHi + n * s.fld Reg.modeFrsize 22 0 * 4096
      (t.stream n).enKey = some s.seq.cycle ∧ t.reg (Reg.ttSRsize n) = BitVec.ofNat 32 (s.fld Reg.modeFrsize 22 0) ∧
      t.reg (Reg.ttSRbLo n) = BitVec.ofNat 32 ring ∧ t.reg (Reg.ttSRbHi n) = BitVec.ofNat 32 (ring / 2 ^ 32) ∧
      t.fld (Reg.ttSCh n) 31 16 = 16384 * n ∧ t.fld (Reg.ttSCh n) 15 0 = 16384 ∧ t.reg (Reg.ttSCtrl n) = 0 ∧
      t.flag (Reg.ttSCtrl (4 + n)) 29 = false
    (s.modeRefused p fid = true → ∃ t, exec (.modeApply v acks) s = .next t ∧ s.OnlyField t Reg.modeStat 24 24 ∧
      t.flag Reg.modeStat 24 = true) ∧
    (s.modeRefused p fid = false → ∃ t, exec (.modeApply v acks) s = .next t ∧ t.fld Reg.modeStat 31 30 = p ∧
      t.fld Reg.modeStat 7 0 = req ∧ t.flag Reg.modeStat 29 = fid ∧
      t = { s with regs := t.regs, pm := t.pm, pwr := t.pwr, tt := t.tt, net := t.net, ledger := t.ledger } ∧ s.NetKept t ∧
      t.pm = { s.pm with ramping := t.pm.ramping, fid := t.pm.fid } ∧
      (s.fld Reg.modeStat 7 0 ≠ req → t.pm.ramping = [0, 1, 2, 3]) ∧
      (acks = 15 → (fid = true → s.fidelity = true) → ¬ leaves →
        t = { s with regs := t.regs, pm := { s.pm with ramping := t.pm.ramping, fid := fid && s.pm.fid } } ∧
        s.RegsKept t [Reg.modeCtrl, Reg.modeStat]) ∧
      (leaves → ∀ k, 64 ≤ k → k < 78 → (s.pw k).eco = true → (t.pw k).eco = false ∧ t.flag (Reg.pwrDom k) 30 = false ∧
        (s.domState k = 0 ∨ s.domState k = 5 → (t.pw k).wake = true)) ∧
      (fid = true → s.fidelity = false →
        (s.domState 78 = 2 ∨ s.domState 78 = 3 → t.domState 78 = 2 ∧ streams t) ∧
        (s.domState 78 = 0 ∨ s.domState 78 = 1 ∨ s.domState 78 = 4 ∨ s.domState 78 = 5 →
          t.pm.fid = true ∧ (t.pw 78).want = true ∧ t.tt = s.tt)))) ∧
  (∀ s : State, s.domState 78 = 1 → s.pm.fid = true → ∃ t, exec (.domainOn 78) s = .next t ∧ t.domState 78 = 2 ∧ t.pm.fid = false ∧
    ∀ n, n < 4 → (t.stream n).enKey = some s.seq.cycle ∧ t.flag (Reg.ttSCtrl (4 + n)) 29 = false) ∧
  (∀ (s : State) (power : Nat) (temp : Int) (acks : BitVec 4),
    let plim := s.fld Reg.modePlim 15 0
    let tlim : Int := min 125 (s.fld Reg.modeTlim 7 0 : Nat)
    let v := s.fld Reg.modeStat 7 0
    let top := presetReq (s.fld Reg.modeStat 31 30)
    let exceeds := (plim ≠ 0 ∧ plim < power) ∨ tlim < temp
    let room := (plim = 0 ∨ power * 100 < 95 * plim) ∧ temp + 5 ≤ tlim
    ∃ t, exec (.pmLimitCheck power temp acks) s = .next t ∧
      t = { s with regs := t.regs, pm := t.pm, net := t.net, ledger := t.ledger } ∧ s.NetKept t ∧
      s.RegsKept t (Reg.modeStat :: if acks = 15 then [] else [Reg.sprLgWr, Reg.sprLgLost]) ∧
      s.BitsKept t Reg.modeStat 7 0 ∧
      (exceeds → t.fld Reg.modeStat 7 0 = if v < 122 then min v 120 else v - 2) ∧
      (¬ exceeds → room → v < top → t.fld Reg.modeStat 7 0 = min top (v + 2)) ∧
      (¬ exceeds → ¬ (room ∧ v < top) → t.fld Reg.modeStat 7 0 = v ∧ t.pm = s.pm) ∧
      (acks = 15 → t.net = s.net ∧ t.ledger = s.ledger) ∧
      t.pm = { s.pm with ramping := if t.fld Reg.modeStat 7 0 = v then s.pm.ramping else [0, 1, 2, 3] }) ∧
  (∀ s : State,
    (s.fld Reg.modeStat 31 30 ≠ 2 → exec .economyCheck s = .next s) ∧
    (s.fld Reg.modeStat 31 30 = 2 → ∃ t, exec .economyCheck s = .next t ∧
      t = { s with regs := t.regs, pwr := t.pwr, net := t.net } ∧ s.NetKept t ∧
      s.RegsKept t ((List.range 81).map Reg.pwrDom) ∧
      ∀ k, k < 81 →
        (s.domState k = 2 → s.ecoIdle k = true → s.downRefused .pm k = false →
          t.domState k = (if State.privileged k then 5 else 3) ∧ t.flag (Reg.pwrDom k) 30 = true ∧
          t.pw k = { Pwr.empty with eco := State.privileged k }) ∧
        (s.domState k = 2 → s.ecoIdle k = true → s.downRefused .pm k = true →
          t.domState k = 2 ∧ t.flag (Reg.pwrDom k) 29 = true) ∧
        (s.domState k ≠ 2 ∨ s.ecoIdle k = false → t.reg (Reg.pwrDom k) = s.reg (Reg.pwrDom k)))) ∧
  ∀ (s : State) (rail : Nat), ∃ t, exec (.vcoreRampDone rail) s = .next t ∧
    t = { s with pm := { s.pm with ramping := t.pm.ramping } } ∧ rail ∉ t.pm.ramping ∧
    ∀ r, r ≠ rail → (r ∈ t.pm.ramping ↔ r ∈ s.pm.ramping)

/-- IDLE_PASS_DUE, HOST_PASS, COBBLER_PASS_DONE, SPR_MARK, LEDGER_READ_MARK (R253, R390, R547 to R551, R559, R563): an idle or a
host pass starts over the tiles it may test (log 39), unless a pass or a load keeps it; a pass that ends leaves those tiles' clusters
at their defaults (log 4) and takes no unit from the others; its losses are recorded; a unit that exists and is new joins the repair
map in one generation; a failing spare store block is retired; with HBMTEST a row is repaired while the stack has a repair left, and
else its pseudo-channel has failed (log 88); a load pass gives its map to the load; the read mark moves within the records written.
A write that something keeps waiting takes effect as RegistersKeepTheirAccessCodes says.
A command whose condition does not hold changes nothing (log 2). -/
def Obligations.SparingAndLedger : Prop :=
  (∀ s : State,
    let starts := fun (t : State) (st : Nat) => t.pm = { s.pm with pass := s.passTiles } ∧ t.fld Reg.sprStat 31 29 = st ∧
      t.fld Reg.sprStat 6 0 = s.passTiles.headD 127
    let busy := s.fld Reg.sprStat 31 29 ≠ 0
    ((s.fld Reg.sprCtrl 23 16 = 0 ∨ busy ∨ s.load.isSome = true ∨ s.passTiles = []) → exec .idlePassDue s = .next s) ∧
    (s.fld Reg.sprCtrl 23 16 ≠ 0 → ¬ busy → s.load = none → s.passTiles ≠ [] → ∃ t, exec .idlePassDue s = .next t ∧
      t = { s with regs := t.regs, pm := t.pm } ∧ s.RegsKept t [Reg.sprStat] ∧ starts t 2) ∧
    ∀ v : BitVec 32, s.regNow .host Reg.sprCtrl true false (setBit v 31 true) = true →
      (s.seqState = 0 → ¬ busy → s.fullLoading = false → ∃ t, exec (.hostPass v) s = .next t ∧
        t = { s with regs := t.regs, pm := t.pm } ∧ s.RegsKept t [Reg.sprCtrl, Reg.sprStat] ∧ starts t 3) ∧
      (s.seqState ≠ 0 ∨ busy ∨ s.fullLoading = true → ∃ t, exec (.hostPass v) s = .next t ∧ s.OnlyRegs t [Reg.sprCtrl])) ∧
  (∀ s : State,
    let st := s.fld Reg.sprStat 31 29
    let ends := fun (t : State) => t.fld Reg.sprStat 31 29 = 0 ∧ t.fld Reg.sprStat 6 0 = 127 ∧
      t = { s with regs := t.regs, clus := t.clus, lanes := t.lanes, pm := { s.pm with pass := [] }, dev := t.dev, store := t.store, net := t.net, ledger := t.ledger } ∧
      s.NetKept t ∧ (∀ i c, c < 72 → t.clu i c = if s.pm.pass.contains i then Cluster.empty else s.clu i c)
    let remaps := fun (t : State) (d : Device) => t.dev = { d with gen := s.dev.gen + 1 } ∧
      t.store = { s.store with mapPrev := if s.store.factoryUsed then none else some s.dev, factoryUsed := false }
    let keeps := fun (t : State) => t.dev = s.dev ∧ t.store = s.store
    let joins := fun (t : State) (u : MarkUnit) =>
      (markExists u = true → s.dev.mark u ≠ s.dev → remaps t (s.dev.mark u).skipRows.downgrade ∧ t.flag Reg.sprStat 28 = true) ∧
      (markExists u = false ∨ s.dev.mark u = s.dev → keeps t)
    (st = 0 → ∀ l a b r, exec (.cobblerPassDone l ⟨a, b, r⟩) s = .next s) ∧
    (st = 2 ∨ st = 3 →
      (∃ t, exec (.cobblerPassDone [] ⟨[], [], []⟩) s = .next t ∧ ends t ∧ keeps t ∧ t.net = s.net ∧ t.ledger = s.ledger ∧
        s.RegsKept t [Reg.sprStat]) ∧
      (∀ i loss, i < 64 → ∃ t, exec (.cobblerPassDone [] ⟨[(i, loss)], [], []⟩) s = .next t ∧ ends t ∧ keeps t ∧
        t.reg (Reg.sprAge i) = BitVec.ofNat 32 (min loss 65535) ∧
        let first := s.fld (Reg.sprAge i) 15 0 ≤ 10 * s.fld Reg.sprCtrl 15 8 ∧ 10 * s.fld Reg.sprCtrl 15 8 < min loss 65535
        (first → s.ledgerRoom = true → t.reg Reg.sprLgWr = s.reg Reg.sprLgWr + 1) ∧
        (¬ first → t.ledger = s.ledger ∧ t.net = s.net ∧ s.RegsKept t [Reg.sprStat, Reg.sprAge i])) ∧
      (∀ u, ∃ t, exec (.cobblerPassDone [u] ⟨[], [], []⟩) s = .next t ∧ ends t ∧ joins t u ∧
        s.RegsKept t [Reg.sprStat, Reg.sprLgWr, Reg.sprLgLost]) ∧
      (∀ q, ∃ t, exec (.cobblerPassDone [] ⟨[], [q], []⟩) s = .next t ∧ ends t ∧ t.dev = s.dev ∧
        (s.blockFree q = true → t.store =
          { s.store with dir := { s.store.dir with bad := q :: s.store.dir.bad, gen := s.store.dir.gen + 1 }, dirPrev := some s.store.dir }) ∧
        (s.blockFree q = false → keeps t ∧ t.ledger = s.ledger)) ∧
      ∀ r : RowRepair, ∃ t, exec (.cobblerPassDone [] ⟨[], [], [r]⟩) s = .next t ∧ ends t ∧
        (s.flag Reg.sprCtrl 29 = true → s.rowRepairable s.dev r = true →
          remaps t { s.dev with ppr := s.dev.ppr ++ [(64 * r.stack + r.pch, r.bank, r.row)] }) ∧
        (s.flag Reg.sprCtrl 29 = true → s.rowRepairable s.dev r = false →
          joins t { kind := 5, idx := r.stack, prow := 0, pcol := 0, unit := r.pch }) ∧
        (s.flag Reg.sprCtrl 29 = false → keeps t)) ∧
    (st = 1 → ∃ t, exec (.cobblerPassDone [] ⟨[], [], []⟩) s = .next t ∧ t.devIn = s.dev ∧ keeps t ∧ t.pm = { s.pm with pass := [] } ∧
      t.fld Reg.sprStat 31 29 = 0 ∧ t.fld Reg.sprStat 6 0 = 127 ∧ t.seq = s.seq ∧ s.MemoryKept t)) ∧
  (∀ (s : State) (v : BitVec 32), s.regNow .host Reg.sprMark true false (setBit v 31 true) = true →
    let u : MarkUnit := { kind := bits v 30 28, idx := bits v 27 22, prow := bits v 21 18, pcol := bits v 17 15, unit := bits v 14 8 }
    (markExists u = true → s.dev.mark u ≠ s.dev → ∃ t, exec (.sprMark v) s = .next t ∧
      t = { s with regs := t.regs, dev := t.dev, store := t.store, net := t.net, ledger := t.ledger } ∧ s.NetKept t ∧
      t.flag Reg.sprStat 28 = true ∧ t.dev = { (s.dev.mark u).skipRows.downgrade with gen := s.dev.gen + 1 } ∧
      t.store = { s.store with mapPrev := if s.store.factoryUsed then none else some s.dev, factoryUsed := false } ∧
      s.RegsKept t [Reg.sprMark, Reg.sprStat, Reg.sprLgWr, Reg.sprLgLost]) ∧
    (markExists u = false ∨ s.dev.mark u = s.dev → ∃ t, exec (.sprMark v) s = .next t ∧ s.OnlyRegs t [Reg.sprMark])) ∧
  ∀ (s : State) (v : BitVec 32), s.regNow .host Reg.sprLgRd true false v = true →
    ((s.reg Reg.sprLgWr - v).toNat < 2 ^ 31 → ∃ t, exec (.ledgerReadMark v) s = .next t ∧ s.OnlyRegs t [Reg.sprLgRd] ∧
      t.reg Reg.sprLgRd = v) ∧
    (2 ^ 31 ≤ (s.reg Reg.sprLgWr - v).toNat → exec (.ledgerReadMark v) s = .next s)

/-! ### Resets and the package -/

/-- AWL_RESET, POWER_ON_RESET, UNDERVOLTAGE, VAON_LOSS, VAON_RISE, AWL_RESET_END, POWER_ON_RESET_END (R51, R257, R300, R351, R369,
R397, R483, R559, R564, R574, R575, R580): a reset leaves every register at its Reset value but those it keeps, the run over, the
clusters and lanes at their defaults, the commands that wait in their queue, the domains to be brought on (log 89), and says its
cause; an awl reset changes no byte of the HBM but those of writes that it cuts short; a power-on reset loses the HBM and the ledger,
the loss of VAON the scratchpads with them; when the reset ends, the copies of the store's regions that are lost give way to the
others, and a load begins from the slot that the boot selection names.
A command whose condition does not hold changes nothing (log 2). -/
def Obligations.ResetsOfTheDevice : Prop :=
  ∀ s : State,
    let kept := (List.range 64).map Reg.sprAge
    let clean := fun (t : State) (ks : List Nat) => (∀ k, k ∉ ks → t.reg k = resetWord k) ∧ t.seq = Seq.reset ∧
      (∀ i c, t.clu i c = Cluster.empty) ∧ (∀ l, t.lane l = Lane.empty) ∧ t.net = [] ∧ t.pending = s.pending ∧
      t.store = { s.store with op := none } ∧ t.dev = s.dev ∧ t.dbg = Dbg.empty ∧ t.load = none ∧ t.pm.bring = true ∧
      t.masters = [] ∧ t.locks = [] ∧ t.fabId = s.store.record.id
    let ages := fun (t : State) => ∀ i, i < 64 → t.reg (Reg.sprAge i) = s.reg (Reg.sprAge i)
    let ended := fun (t : State) (lost : List LostCopy) => t.pkg = { s.pkg with por := false, awl := false, pwrgd := true } ∧
      t.load = some (Load.start none (if t.store.dir.sel then 2 else 1) 0) ∧ t.seq = Seq.reset ∧ t.seqState = 0 ∧
      t.fld Reg.ceStat 31 29 = 0 ∧ t.spad = s.spad ∧ t.hbm = s.hbm ∧ ages t ∧
      t.dev = (if LostCopy.mk .repairMap true ∈ lost then t.dev else s.dev) ∧
      (lost = [] → t.store.dir.sel = s.store.dir.sel ∧ t.fabId = s.store.record.id) ∧
      (lost = [⟨.directory, true⟩] → t.store.dir.sel = (s.store.dirPrev.getD s.store.dir).sel) ∧
      (lost = [⟨.record, true⟩] → t.fabId = (s.store.recordPrev.getD s.store.record).id) ∧
      (lost = [⟨.repairMap, true⟩] → t.dev = s.store.mapPrev.getD s.store.factoryMap ∧
        t.flag Reg.ceStat 23 = (s.store.factoryUsed || s.store.mapPrev.isNone))
    let cold := fun (t : State) (pwrgd : Bool) (cause : Nat) => clean t kept ∧ ages t ∧ t.hbm = [] ∧ t.hbmBad = [] ∧ t.spad = s.spad ∧
      t.ledger = [] ∧ t.overt = false ∧ t.pkg =
        Pkg.mk s.pkg.vaon pwrgd true false (if s.pkg.overtPin then 4 else cause) 0 false s.pkg.straps none [] none none
    let cuts := fun (y : Nat) => ∃ e ∈ s.mcs, ∃ r ∈ (e.2.queue.flatMap fun q => q.2) ++ e.2.ready, r.pk.cmd % 2 = 1 ∧
      ∃ j, j < (if r.pk.cmd = 1 then r.pk.len else 1) ∧
        let b := aHbm r.pk.addr / 32 * 32 + 32 * j
        (s.hbmFlat b ≤ y ∧ y < s.hbmFlat b + 32) ∨ ∃ z, s.hbmTwin b = some z ∧ z ≤ y ∧ y < z + 32
    (s.inReset = false → s.pkg.vaon = true → ∃ t, exec .awlReset s = .next t ∧
      clean t (kept ++ [Reg.sprLgWr, Reg.sprLgRd, Reg.sprLgLost, Reg.dbgAwl] ++ (List.range 6).map Reg.mcGeom ++
        (List.range 6).map Reg.mcStat) ∧ ages t ∧ t.spad = s.spad ∧ t.ledger = s.ledger ∧
      (∀ y, ¬ cuts y → Memory.get t.hbm y = Memory.get s.hbm y) ∧
      t.reg Reg.sprLgWr = s.reg Reg.sprLgWr ∧ t.fld Reg.dbgAwl 29 27 = s.fld Reg.dbgAwl 29 27 ∧
      t.pkg = { s.pkg with awl := true, cause := 3, awlN := s.pkg.awlN + 1, awlOut := [], awlWant := none, awlPart := none }) ∧
    (s.inReset = true ∨ s.pkg.vaon = false → exec .awlReset s = .next s) ∧
    (s.pkg.awl = true → ∃ t, exec .awlResetEnd s = .next t ∧ ended t (State.lostCopies s.drawn)) ∧
    (s.pkg.awl = false → exec .awlResetEnd s = .next s) ∧
    (∃ t, exec .powerOnReset s = .next t ∧ cold t false 1) ∧
    (∀ rail, (rail < 6 → s.pkg.pwrgd = true → s.pkg.por = false → ∃ t, exec (.undervoltage rail) s = .next t ∧ cold t true 2) ∧
      (6 ≤ rail ∨ s.pkg.pwrgd = false ∨ s.pkg.por = true → exec (.undervoltage rail) s = .next s)) ∧
    (∀ acks lost, (s.pkg.por = true → s.pkg.vaon = true → ∃ t, exec (.powerOnResetEnd ⟨acks, lost⟩) s = .next t ∧ ended t lost) ∧
      (s.pkg.por = false ∨ s.pkg.vaon = false → exec (.powerOnResetEnd ⟨acks, lost⟩) s = .next s)) ∧
    (s.pkg.vaon = true → ∃ t, exec .vaonLoss s = .next t ∧ t.pkg.vaon = false ∧ t.pkg.por = true ∧ clean t [] ∧
      (∀ a, Memory.get t.spad a = 0) ∧ (∀ a, Memory.get t.hbm a = 0) ∧ t.ledger = []) ∧
    (s.pkg.vaon = false → exec .vaonLoss s = .next s) ∧
    ∀ straps, (s.pkg.vaon = true → exec (.vaonRise straps) s = .next s) ∧
      (s.pkg.vaon = false → ∃ t, exec (.vaonRise straps) s = .next t ∧
        t = { s with pkg := { s.pkg with vaon := true, por := true, straps := t.pkg.straps } } ∧ t.pkg.straps = straps % 4)

/-- OVER_TEMPERATURE, STACK_RAIL_LOSS, PERST (R257, R258, R579, R581): a sensor at 130 °C or more holds every cluster, makes the
pins safe and drives OVERT_N, in a device not held already; a stack whose rails are lost loses its bytes and no other, and its
controller has failed, holding no request; PERST_N clears the vectors raised and the responses due to the host port, and changes
nothing else.
STALL_WATCHDOG_EXPIRY, WDG_KICK, HEARTBEAT_EXPIRY (R40, R503, R504): a stall stops the run with SEQ_FAULT.STALL, unless the
watchdog does not count; a kick gives the heartbeat its full period; a heartbeat that expires says so, raises its
interrupt, halts at the midnight when HBACT asks for it, and makes the pins safe at HBACT = 2. A kick that something keeps waiting
takes effect as RegistersKeepTheirAccessCodes says.
A command whose condition does not hold changes nothing (log 2). -/
def Obligations.ThermalStopLossesAndWatchdogs : Prop :=
  ((∀ (s : State) (sensor : Nat) (reading : Int),
      (130 ≤ reading → sensor < 70 → s.overt = false → s.pkg.vaon = true → ∃ t, exec (.overTemperature sensor reading) s = .next t ∧
        t = { s with regs := t.regs, net := t.net, ledger := t.ledger, overt := true, tio := t.tio, pkg := t.pkg } ∧ s.NetKept t ∧
        t.tio = { s.tio with safe := true } ∧ t.pkg = { s.pkg with overtPin := true } ∧ s.RegsKept t [Reg.sprLgWr, Reg.sprLgLost] ∧
        ∀ i c x, t.runHeld i c x = true) ∧
      (reading < 130 ∨ 70 ≤ sensor ∨ s.overt = true ∨ s.pkg.vaon = false → exec (.overTemperature sensor reading) s = .next s)) ∧
    (∀ (s : State) (m : Nat),
      (m < 6 → ∃ t, exec (.stackRailLoss m) s = .next t ∧ t.mcState m = 5 ∧ t.spad = s.spad ∧ t.seq = s.seq ∧
        (∀ a, Memory.get t.hbm a = if a / 2 ^ 36 = m then 0 else Memory.get s.hbm a) ∧
        (∀ n, n ≠ m → t.mc n = s.mc n) ∧
        (s.mcState m = 5 → t = { s with hbm := t.hbm, hbmBad := t.hbmBad }) ∧
        (s.mcState m ≠ 5 → (t.mc m).queue = [] ∧ (t.mc m).ready = [] ∧ (t.mc m).mig = none ∧
          (s.ledgerRoom = true → t.reg Reg.sprLgWr = s.reg Reg.sprLgWr + 1))) ∧
      (6 ≤ m → exec (.stackRailLoss m) s = .next s)) ∧
    ∀ s : State, twf (fun _ => Master.empty) 0 s.masters = true → ∃ t, exec .perst s = .next t ∧
      t = { s with msix := 0, masters := t.masters } ∧
      (∀ node mid, node ≠ hpNode → mid < 1024 → t.master node mid = s.master node mid) ∧
      ∀ mid, mid < 1024 → (t.master hpNode mid).slots =
        (s.master hpNode mid).slots.map fun e => (e.1, { e.2 with gen := e.2.gen + 1 })) ∧
  ∀ s : State,
    (s.stallCounts = true → ∃ t, exec .stallWatchdogExpiry s = .next t ∧ t.flag Reg.seqFault 2 = true ∧
      t = { s with regs := t.regs, seq := t.seq, net := t.net, ledger := t.ledger } ∧ s.NetKept t ∧
      s.RegsKept t [Reg.seqFault, Reg.sprLgWr, Reg.sprLgLost] ∧
      t.seq = { s.seq with stalled := true, faulted := s.seq.run || s.seq.faulted }) ∧
    (s.stallCounts = false → exec .stallWatchdogExpiry s = .next s) ∧
    (∀ v, s.regNow .host Reg.wdgKick true false (setBit v 31 true) = true →
      ∃ t, exec (.wdgKick v) s = .next t ∧ s.OnlyField t Reg.wdgStat 27 0 ∧
      t.fld Reg.wdgStat 27 0 = 1000 * max 1 (s.fld Reg.wdgHb 15 0)) ∧
    (s.flag Reg.wdgCtrl 0 = true → s.flag Reg.wdgStat 30 = false →
      let act := s.fld Reg.wdgCtrl 2 1
      ∃ t, exec .heartbeatExpiry s = .next t ∧ t.flag Reg.wdgStat 31 = true ∧
        (∃ f ∈ t.net, f.pk.cmd = 8 ∧ f.pk.addr = BitVec.ofNat 48 (2 ^ 37 + dmNode)) ∧ s.NetKept t ∧ t.seq = s.seq ∧
        t.fld Reg.wdgStat 27 0 = 1000 * max 1 (s.fld Reg.wdgHb 15 0) ∧ s.MemoryKept t ∧ t.clus = s.clus ∧
        t.dbg.points = s.dbg.points ++
          (if act = 1 ∨ act = 2 then [{ cyc := s.seq.cycle, step := 0x7FF, cause := 7 }] else []) ∧
        t.tio.safe = (s.tio.safe || act == 2)) ∧
    (s.flag Reg.wdgCtrl 0 = false ∨ s.flag Reg.wdgStat 30 = true → exec .heartbeatExpiry s = .next s)

/-- SMB_STATUS, SMB_RESET_CAUSE, SMB_FUSES, SMB_GRADE, SMB_VCORE_VOLTAGE, SMB_VCORE_CURRENT, SMB_DIE_TEMP, SMB_HBM_TEMP, SMB_POWER
(R580): while VAON is up the target answers the word of each command, and changes nothing else; without VAON, or for a rail
that does not exist, it does not acknowledge. The measured values are the command's (log 3); how many awl resets it shows beyond 255
is a free value (log 34). -/
def Obligations.SmbusAnswers : Prop :=
  ∀ s : State,
    let frame := fun (t : State) => t = { s with free := t.free, pkg := { s.pkg with smb := t.pkg.smb } }
    (s.pkg.vaon = true →
      (∀ link, ∃ t w, exec (.smbStatus link) s = .next t ∧ frame t ∧ t.pkg.smb = some w ∧ w.getLsbD 0 = true ∧
        w.getLsbD 1 = s.pkg.pwrgd ∧ bits w 4 2 = s.fld Reg.ceStat 31 29 ∧ w.getLsbD 5 = s.pkg.overtPin ∧
        w.getLsbD 6 = link ∧ bits w 15 7 = 0) ∧
      (s.pkg.cause < 256 → ∃ t w, exec .smbResetCause s = .next t ∧ frame t ∧ t.pkg.smb = some w ∧
        bits w 7 0 = s.pkg.cause ∧ bits w 15 8 = (if s.pkg.awlN < 256 then s.pkg.awlN else s.drawn.toNat % 256)) ∧
      (∃ t w, exec .smbFuses s = .next t ∧ frame t ∧ t.pkg.smb = some w ∧ bits w 13 0 = bits (s.fuse 3 0) 13 0 ∧
        bits w 15 14 = 0) ∧
      (∃ t w, exec .smbGrade s = .next t ∧ frame t ∧ t.pkg.smb = some w ∧ w.toNat = bits s.sprGradeWord 31 16) ∧
      (∀ rail x, rail < 4 → x < 65536 → ∀ c ∈ [Instr.smbVcoreVoltage rail x, Instr.smbVcoreCurrent rail x, Instr.smbPower x],
        ∃ t w, exec c s = .next t ∧ frame t ∧ t.pkg.smb = some w ∧ w.toNat = x) ∧
      ∀ x : Int, -32768 ≤ x → x < 32768 → ∀ c ∈ [Instr.smbDieTemp x, Instr.smbHbmTemp x],
        ∃ t w, exec c s = .next t ∧ frame t ∧ t.pkg.smb = some w ∧ w.toInt = x) ∧
    (s.pkg.vaon = false → ∀ link rail x y, ∀ c ∈ [Instr.smbStatus link, .smbResetCause, .smbFuses, .smbGrade,
        .smbVcoreVoltage rail x, .smbVcoreCurrent rail x, .smbDieTemp y, .smbHbmTemp y, .smbPower x],
      ∃ t, exec c s = .next t ∧ frame t ∧ t.pkg.smb = none) ∧
    ∀ rail x, 4 ≤ rail → ∀ c ∈ [Instr.smbVcoreVoltage rail x, Instr.smbVcoreCurrent rail x],
      ∃ t, exec c s = .next t ∧ frame t ∧ t.pkg.smb = none

/-! ### Registers -/

/-- REGISTER_WRITE, RC_FIELD_READ, SS_TICK_LO_READ (R9 to R12, R89, R446), where nothing keeps the access waiting (R267, R277, R283,
R287, R288): a place where no register is defined reads 0 and takes no write; a write of a register that
only holds its fields gives each bit what its access code says; a read answers what the register shows, and clears its RC
fields but by a peek; the low half of the tick latches the high one. An access that finds its domain powering down stops that first
(R287); one that something keeps waiting joins its master's requests (log 90). During a device reset registers cannot be reached.
A command whose condition does not hold changes nothing (log 2). -/
def Obligations.RegistersKeepTheirAccessCodes : Prop :=
  (∀ (s : State) (who : Who) (k0 : Nat) (v : BitVec 32) (peek : Bool),
    let node := k0 / 0x100000
    let wr := State.regPacket who k0 true false v
    let rd := State.regPacket .host k0 false peek 0
    (s.inReset = true → exec (.registerWrite who k0 v) s = .next s ∧ exec (.rcFieldRead k0 peek) s = .next s) ∧
    (s.inReset = false → node < 100 →
      ((s.regFree who k0 true false v = false ∨ s.admission node wr = 1 ∨ s.admission node wr = 2 ∨ s.admission node wr = 3) →
        exec (.registerWrite who k0 v) s = .next (s.handIn (State.masterOf who).1 (State.masterOf who).2 wr)) ∧
      (s.regFree .host k0 false peek 0 = false ∨ s.admission node rd = 1 ∨ s.admission node rd = 2 ∨ s.admission node rd = 3 →
        exec (.rcFieldRead k0 peek) s = .next (s.handIn hpNode 0 rd)) ∧
      (∀ d, s.regFree who k0 true false v = true → s.admission node wr = 4 → (s.arriving node wr).admission node wr = 0 →
        State.domainOf node = some d → (s.arriving node wr).domState d = 2 ∧
          exec (.registerWrite who k0 v) s = exec (.registerWrite who k0 v) (s.arriving node wr)) ∧
      (s.regFree .host k0 false peek 0 = true → s.admission node rd = 4 → (s.arriving node rd).admission node rd = 0 →
        exec (.rcFieldRead k0 peek) s = exec (.rcFieldRead k0 peek) (s.arriving node rd))) ∧
    (s.regNow .host k0 false peek 0 = true →
      let k := s.key k0
      (rowAt k = none → exec (.rcFieldRead k0 peek) s = .next { s with bus := 0 }) ∧
      (peek = true → exec (.rcFieldRead k0 peek) s = .next { s with bus := s.view k0 }) ∧
      ∀ r, rowAt k = some r → peek = false → k ≠ Reg.seqCycleLo → k ≠ Reg.ssTickLo →
        ¬ (nodeKind (k / 0x100000) = .tt ∧ 0x2000 ≤ k % 0x100000 ∧ k % 0x100000 < 0x2800 ∧ k % 0x100 = 0x2C) →
        ∃ t, exec (.rcFieldRead k0 peek) s = .next t ∧ t = { s with bus := s.view k0, regs := t.regs } ∧
          s.RegsKept t [k] ∧ ∀ i, i < 32 → t.flag k i = (s.flag k i && !r.rc.testBit i)) ∧
    (s.regNow who k0 true false v = true →
      let k := s.key k0
      let o := k % 0x100000
      let kind := nodeKind (k / 0x100000)
      let plain : Prop :=
        match kind with
        | .ce => o ∉ [0, 0x1C, 0x40, 0x40020, 0x60010, 0x61000, 0x61004, 0x70000, 0x70010, 0x90000] ∧
            (0x72000 ≤ o → o < 0x76000 → s.epoch ≠ decide (0x74000 ≤ o))
        | .tile t => o ≠ 0x50010 ∧ o ≠ 0x70014 ∧ ¬ (0x60000 ≤ o ∧ o < 0x60400 ∧ o % 0x40 = 0) ∧
            ¬ (0xD0000 ≤ o ∧ o < 0xD0100 ∧ o % 0x20 = 0) ∧
            (0x80000 ≤ o → o < 0xA4000 →
              let r := (o - 0x80000) % 0x800
              r ≠ 0x20 ∧ ¬ (0x200 ≤ r ∧ r < 0x340 ∧ r % 0x40 = 0x10)) ∧ (0xE0000 ≤ o → o < 0xE8000 → s.rgnState t ≠ 1)
        | .mc _ => o ≠ 0x38
        | .port _ => o ≠ 0
        | .ss => o ∉ [0, 0x8, 0xC, 0x10] ∧ (o < 0x10000 ∨ s.dLive ((o - 0x10000) / 0x40) = false)
        | .tt => o ≠ 0x310 ∧ s.ttIgnored who o v = false ∧
            (0x2000 ≤ o → o < 0x2800 → o % 0x100 ≠ 0x18 ∧ o % 0x100 ≠ 0x24)
        | .dm => o ∉ [0, 0x8, 0x80, 0xA0, 0x100, 0x10C]
        | .pm => o ∉ [0x10000, 0x20000, 0x20010, 0x20024] ∧ ¬ (0x100 ≤ o ∧ o < 0x388 ∧ o % 8 = 0)
        | .tio => o ∉ [0x2C, 0x30, 0x34]
        | _ => True
      (rowAt k = none → exec (.registerWrite who k0 v) s = .next s) ∧
      ∀ r, rowAt k = some r → plain →
        ∃ t, exec (.registerWrite who k0 v) s = .next t ∧ s.OnlyRegs t [k] ∧ ∀ i, i < 32 →
          t.flag k i = if (r.rw ||| r.wo ||| if s.rowLocked (k / 0x100000) r then 0 else r.rwl).testBit i = true then v.getLsbD i
            else s.flag k i && !(v.getLsbD i && r.w1c.testBit i))) ∧
  ∀ (s : State) (peek : Bool), s.regNow .host Reg.ssTickLo false peek 0 = true → ∃ t, exec (.ssTickLoRead peek) s = .next t ∧
    t = { s with bus := s.tick.setWidth 32, regs := t.regs } ∧ s.RegsKept t (if peek then [] else [Reg.ssTickHi]) ∧
    (peek = false → t.reg Reg.ssTickHi = BitVec.ofNat 32 (s.tick.toNat / 2 ^ 32))
end

