-- ==== Sys2Proof/Laws/Loader.lean ====
section
/-! SUPPORT. The laws of frames: a page holds the bytes that were put into it, and a frame sealed with its CRC passes the CRC
check. -/

namespace Sys2Proof.Machine

theorem beNat_snoc (l : List (BitVec 8)) (b : BitVec 8) : beNat (l ++ [b]) = 256 * beNat l + b.toNat := by
  simp [beNat]

theorem beNat_lt (l : List (BitVec 8)) : beNat l < 256 ^ l.length := by
  induction l using List.reverseRecOn with
  | nil => simp [beNat]
  | append_singleton l b ih =>
    rw [beNat_snoc, List.length_append, List.length_singleton, Nat.pow_succ]
    have := b.isLt
    omega

theorem bytesOf_beNat (l : List (BitVec 8)) : bytesOf l.length (beNat l) = l.reverse := by
  induction l using List.reverseRecOn with
  | nil => rfl
  | append_singleton l b ih =>
    have h : BitVec.ofNat 8 (256 * beNat l + b.toNat) = b := by
      apply BitVec.eq_of_toNat_eq
      have := b.isLt
      rw [BitVec.toNat_ofNat]
      omega
    have h2 : (256 * beNat l + b.toNat) / 256 = beNat l := by
      have := b.isLt
      omega
    rw [beNat_snoc, List.length_append, List.length_singleton, bytesOf, h, h2, ih, List.reverse_append]
    rfl

theorem beBytes_beNat (l : List (BitVec 8)) : beBytes l.length (beNat l) = l := by
  rw [beBytes, bytesOf_beNat, List.reverse_reverse]

theorem bytesOf_length (n v : Nat) : (bytesOf n v).length = n := by
  induction n generalizing v with
  | zero => rfl
  | succ n ih => simp [bytesOf, ih]

theorem beNat_beBytes (n v : Nat) (h : v < 256 ^ n) : beNat (beBytes n v) = v := by
  induction n generalizing v with
  | zero => simp at h; simp [h, beBytes, bytesOf, beNat]
  | succ n ih =>
    rw [beBytes, bytesOf, List.reverse_cons, beNat_snoc]
    rw [Nat.pow_succ] at h
    have := ih (v / 256) (by omega)
    rw [beBytes] at this
    rw [this, BitVec.toNat_ofNat]
    omega

/-- A page of 4,096 bytes reads back as they were put. -/
theorem pageBytes_pageOf (l : List (BitVec 8)) (h : l.length = 4096) : pageBytes (pageOf l) = l := by
  have hl := beNat_lt l
  rw [h] at hl
  have e : (pageOf l).toNat = beNat l := by
    rw [pageOf, BitVec.toNat_ofNat]
    exact Nat.mod_eq_of_lt (by rw [show (2 : Nat) ^ 32768 = 256 ^ 4096 from by rw [show (256 : Nat) = 2 ^ 8 from rfl, ← Nat.pow_mul]]; exact hl)
  rw [pageBytes, e, ← h, beBytes_beNat]

/-- A body of 4,092 bytes with its CRC behind it (R354). -/
def sealedFrame (body : List (BitVec 8)) : List (BitVec 8) := body ++ beBytes 4 (crc32 body).toNat

theorem sealedFrame_length (body : List (BitVec 8)) (h : body.length = 4092) : (sealedFrame body).length = 4096 := by
  simp [sealedFrame, beBytes, bytesOf_length, h]

/-- Whether the CRC of a frame holds is whether it is that of the body. -/
theorem frameCrcOk_append (body : List (BitVec 8)) (c : BitVec 32) (h : body.length = 4092) :
    frameCrcOk (body ++ beBytes 4 c.toNat) = ((crc32 body).toNat == c.toNat) := by
  have ht : (body ++ beBytes 4 c.toNat).take 4092 = body := by rw [← h, List.take_left']; rfl
  have hd : (body ++ beBytes 4 c.toNat).drop 4092 = beBytes 4 c.toNat := by rw [← h, List.drop_left']; rfl
  have hn : (beBytes 4 c.toNat).take 4 = beBytes 4 c.toNat := by
    apply List.take_of_length_le
    simp [beBytes, bytesOf_length]
  rw [frameCrcOk, ht, fieldBE, hd, hn, beNat_beBytes 4 _ (by have := c.isLt; omega)]

theorem frameCrcOk_sealed (body : List (BitVec 8)) (h : body.length = 4092) : frameCrcOk (sealedFrame body) = true := by
  rw [sealedFrame, frameCrcOk_append body _ h]
  exact beq_self_eq_true _

end Sys2Proof.Machine
end

