-- ==== Sys2Proof/Laws/Ops.lean ====
section
/-! SUPPORT. The laws of the shared operations: tables (a read after a write, writes elsewhere, the canonical form), memories,
bit fields, registers. -/

namespace Sys2Proof.Machine

/-! ### Tables -/

section tables

variable {α : Type} (d : Nat → α)

@[simp] theorem tget_nil (a : Nat) : tget d [] a = d a := rfl

theorem tget_tdel_same (a : Nat) (t : Tab α) : tget d (tdel a t) a = d a := by
  induction t with
  | nil => rfl
  | cons e t ih => obtain ⟨k, w⟩ := e; by_cases h : a = k <;> simp [tdel, tget, h] <;> simpa [h] using ih

theorem tget_tdel_other {a b : Nat} (h : b ≠ a) (t : Tab α) : tget d (tdel a t) b = tget d t b := by
  induction t with
  | nil => rfl
  | cons e t ih =>
    obtain ⟨k, w⟩ := e
    by_cases hk : a = k
    · subst hk; simp [tdel, tget, h, ih]
    · simp [tdel, tget, hk, ih]

theorem tget_tins_same (a : Nat) (v : α) (t : Tab α) : tget d (tins a v t) a = v := by
  induction t with
  | nil => simp [tins, tget]
  | cons e t ih =>
    obtain ⟨k, w⟩ := e
    simp only [tins]
    split
    · simp [tget]
    · split
      · simp [tget]
      · simp [tget, *]

theorem tget_tins_other {a b : Nat} (h : b ≠ a) (v : α) (t : Tab α) : tget d (tins a v t) b = tget d t b := by
  induction t with
  | nil => simp [tins, tget, h]
  | cons e t ih =>
    obtain ⟨k, w⟩ := e
    simp only [tins]
    split
    · simp [tget, h]
    · split
      · next hk => subst hk; simp [tget, h]
      · simp [tget, ih]

variable [DecidableEq α]

/-- A read after a write gives the value written. -/
@[simp] theorem tget_tput_same (a : Nat) (v : α) (t : Tab α) : tget d (tput d a v t) a = v := by
  unfold tput
  split
  · next h => rw [tget_tdel_same, h]
  · exact tget_tins_same d a v t

/-- A write leaves every other key alone. -/
theorem tget_tput_other {a b : Nat} (h : b ≠ a) (v : α) (t : Tab α) : tget d (tput d a v t) b = tget d t b := by
  unfold tput
  split
  · exact tget_tdel_other d h t
  · exact tget_tins_other d h v t

theorem tget_tput (a b : Nat) (v : α) (t : Tab α) :
    tget d (tput d a v t) b = if b = a then v else tget d t b := by
  split
  · next h => subst h; simp
  · next h => exact tget_tput_other d h v t

omit [DecidableEq α] in
/-- Dropped keys read their default, the others as before. -/
theorem tget_tdrop (p : Nat → Bool) (b : Nat) (t : Tab α) :
    tget d (tdrop p t) b = if p b then d b else tget d t b := by
  induction t with
  | nil => simp [tdrop, tget]
  | cons e t ih =>
    obtain ⟨k, w⟩ := e
    simp only [tdrop] at ih
    by_cases hk : p k
    · by_cases hb : b = k
      · subst hb; simp [tdrop, hk, ih]
      · simp [tdrop, hk, tget, hb, ih]
    · by_cases hb : b = k
      · subst hb; simp [tdrop, hk, tget]
      · simp [tdrop, hk, tget, hb, ih]

theorem twf_mono {lo lo' : Nat} (h : lo' ≤ lo) (t : Tab α) (w : twf d lo t) : twf d lo' t := by
  cases t with
  | nil => rfl
  | cons e t =>
    simp only [twf, Bool.and_eq_true, decide_eq_true_eq] at w ⊢
    exact ⟨⟨by omega, w.1.2⟩, w.2⟩

theorem twf_tdel {lo : Nat} (a : Nat) (t : Tab α) (w : twf d lo t) : twf d lo (tdel a t) := by
  induction t generalizing lo with
  | nil => rfl
  | cons e t ih =>
    obtain ⟨k, x⟩ := e
    simp only [twf, Bool.and_eq_true, decide_eq_true_eq] at w
    simp only [tdel]
    split
    · exact ih (twf_mono d (by omega) t w.2)
    · simp only [twf, Bool.and_eq_true, decide_eq_true_eq]; exact ⟨w.1, ih w.2⟩

theorem twf_tins {lo a : Nat} {v : α} (hv : v ≠ d a) (ha : lo ≤ a) (t : Tab α) (w : twf d lo t) :
    twf d lo (tins a v t) := by
  induction t generalizing lo with
  | nil => simp [tins, twf, ha, hv]
  | cons e t ih =>
    obtain ⟨k, x⟩ := e
    simp only [twf, Bool.and_eq_true, decide_eq_true_eq] at w
    simp only [tins]
    split
    · simp only [twf, Bool.and_eq_true, decide_eq_true_eq]; exact ⟨⟨ha, hv⟩, ⟨by omega, w.1.2⟩, w.2⟩
    · split
      · next h => subst h; simp only [twf, Bool.and_eq_true, decide_eq_true_eq]; exact ⟨⟨ha, hv⟩, w.2⟩
      · simp only [twf, Bool.and_eq_true, decide_eq_true_eq]; exact ⟨w.1, ih (by omega) w.2⟩

/-- A write keeps the canonical form. -/
theorem twf_tput (a : Nat) (v : α) (t : Tab α) (w : twf d 0 t) : twf d 0 (tput d a v t) := by
  unfold tput
  split
  · exact twf_tdel d a t w
  · next h => exact twf_tins d h (Nat.zero_le a) t w

/-- Any selection of entries of a canonical table is canonical. -/
theorem twf_filter {lo : Nat} (p : Nat × α → Bool) (t : Tab α) (w : twf d lo t) : twf d lo (t.filter p) := by
  induction t generalizing lo with
  | nil => rfl
  | cons e t ih =>
    obtain ⟨k, x⟩ := e
    simp only [twf, Bool.and_eq_true, decide_eq_true_eq] at w
    simp only [List.filter_cons]
    split
    · simp only [twf, Bool.and_eq_true, decide_eq_true_eq]; exact ⟨w.1, ih w.2⟩
    · exact ih (twf_mono d (by omega) t w.2)

/-- Dropping entries keeps the canonical form. -/
theorem twf_tdrop (p : Nat → Bool) (t : Tab α) (w : twf d 0 t) : twf d 0 (tdrop p t) := twf_filter d _ t w

end tables

/-! ### Memories -/

theorem Memory.get_put (m : List Host.Cell) (a b : Nat) (v : BitVec 8) :
    Memory.get (Memory.put m a v) b = if b = a then v else Memory.get m b := tget_tput _ a b v m

theorem Memory.wf_put (m : List Host.Cell) (a : Nat) (v : BitVec 8) (w : Memory.wf m) : Memory.wf (Memory.put m a v) :=
  twf_tput _ a v m w

theorem Memory.wf_putN (m : List Host.Cell) (a : Nat) (l : List (BitVec 8)) (w : Memory.wf m) :
    Memory.wf (Memory.putN m a l) := by
  induction l generalizing m a with
  | nil => exact w
  | cons v t ih => exact ih _ _ (Memory.wf_put m a v w)

theorem Memory.wf_putMask (m : List Host.Cell) (a : Nat) (k : BitVec 8) (v : BitVec 64) (n : Nat) (w : Memory.wf m) :
    Memory.wf (Memory.putMask m a k v n) := by
  induction n with
  | zero => exact w
  | succ n ih =>
    simp only [Memory.putMask]
    split
    · exact Memory.wf_put _ _ _ ih
    · exact ih

theorem Memory.wf_tdrop (p : Nat → Bool) (m : List Host.Cell) (w : Memory.wf m) : Memory.wf (tdrop p m) :=
  twf_tdrop _ p m w

/-- Bytes outside those written read as before. -/
theorem Memory.get_putN_other (m : List Host.Cell) (a : Nat) (l : List (BitVec 8)) (b : Nat)
    (h : b < a ∨ a + l.length ≤ b) : Memory.get (Memory.putN m a l) b = Memory.get m b := by
  induction l generalizing m a with
  | nil => rfl
  | cons v t ih =>
    simp only [List.length_cons] at h
    rw [Memory.putN, ih _ _ (by omega), Memory.get_put, if_neg (by omega)]

/-- A byte written reads back. -/
theorem Memory.get_putN (m : List Host.Cell) (a : Nat) (l : List (BitVec 8)) (i : Nat) (h : i < l.length) :
    Memory.get (Memory.putN m a l) (a + i) = l[i] := by
  induction l generalizing m a i with
  | nil => simp at h
  | cons v t ih =>
    cases i with
    | zero => rw [Memory.putN, Memory.get_putN_other _ _ _ _ (by omega), Memory.get_put]; simp
    | succ i =>
      have := ih (Memory.put m a v) (a + 1) i (by simpa using h)
      rw [show a + (i + 1) = a + 1 + i by omega]; simpa [Memory.putN] using this

theorem Memory.get_putMask (m : List Host.Cell) (a : Nat) (k : BitVec 8) (v : BitVec 64) (n b : Nat) :
    Memory.get (Memory.putMask m a k v n) b =
      if a ≤ b ∧ b < a + n ∧ k.getLsbD (b - a) then v.extractLsb' (8 * (b - a)) 8 else Memory.get m b := by
  induction n with
  | zero => simp [Memory.putMask]; omega
  | succ n ih =>
    simp only [Memory.putMask]
    by_cases hb : b = a + n
    · subst hb
      by_cases hk : k.getLsbD n
      · simp [hk, Memory.get_put]
      · simp [hk, ih]
    · have e : (a ≤ b ∧ b < a + (n + 1) ∧ k.getLsbD (b - a) = true) ↔ (a ≤ b ∧ b < a + n ∧ k.getLsbD (b - a) = true) := by
        constructor <;> (rintro ⟨h1, h2, h3⟩; exact ⟨h1, by omega, h3⟩)
      split
      · rw [Memory.get_put, if_neg hb, ih, if_congr e.symm rfl rfl]
      · rw [ih, if_congr e.symm rfl rfl]

/-! ### Bit fields -/

theorem bits_lt {w : Nat} (x : BitVec w) (hi lo : Nat) : bits x hi lo < 2 ^ (hi + 1 - lo) := (x.extractLsb' lo (hi + 1 - lo)).isLt

theorem bits_eq {w : Nat} (x : BitVec w) (hi lo : Nat) : bits x hi lo = x.toNat / 2 ^ lo % 2 ^ (hi + 1 - lo) := by
  simp [bits, BitVec.extractLsb'_toNat, Nat.shiftRight_eq_div_pow]

theorem fieldMask_getLsbD {w : Nat} (hi lo i : Nat) (h : i < w) :
    (fieldMask w hi lo).getLsbD i = (decide (lo ≤ i) && decide (i < hi + 1)) := by
  simp only [fieldMask, BitVec.getLsbD_ofNat, h, decide_true, Bool.true_and]
  rw [Nat.mul_comm, Nat.testBit_two_pow_mul]
  by_cases hl : lo ≤ i
  · simp only [ge_iff_le, hl, decide_true, Bool.true_and, Nat.testBit_two_pow_sub_one]
    congr 1; exact propext (by omega)
  · simp [hl]

theorem setBits_getLsbD {w : Nat} (x : BitVec w) (hi lo v i : Nat) (h : i < w) :
    (setBits x hi lo v).getLsbD i =
      if lo ≤ i ∧ i ≤ hi then v.testBit (i - lo) else x.getLsbD i := by
  have e : (BitVec.ofNat w (v * 2 ^ lo)).getLsbD i = (decide (lo ≤ i) && v.testBit (i - lo)) := by
    rw [BitVec.getLsbD_ofNat, Nat.mul_comm v, Nat.testBit_two_pow_mul]; simp [h]
  simp only [setBits, BitVec.getLsbD_or, BitVec.getLsbD_and, BitVec.getLsbD_not, fieldMask_getLsbD hi lo i h, e, h]
  by_cases h1 : lo ≤ i <;> by_cases h2 : i ≤ hi <;> simp [h1, h2]

/-- A field written reads back. -/
theorem bits_setBits {w : Nat} (x : BitVec w) (hi lo v : Nat) (h : hi < w) (hl : lo ≤ hi) :
    bits (setBits x hi lo v) hi lo = v % 2 ^ (hi + 1 - lo) := by
  apply Nat.eq_of_testBit_eq
  intro i
  rw [bits, BitVec.testBit_toNat, BitVec.getLsbD_extractLsb', Nat.testBit_mod_two_pow]
  by_cases hi' : i < hi + 1 - lo
  · rw [setBits_getLsbD _ _ _ _ _ (by omega), if_pos (by omega)]; simp [hi']
  · simp [hi']

/-- A field apart from the one written is unchanged. -/
theorem bits_setBits_other {w : Nat} (x : BitVec w) (hi lo v hi' lo' : Nat) (h' : hi' < w)
    (hd : hi' < lo ∨ hi < lo') : bits (setBits x hi lo v) hi' lo' = bits x hi' lo' := by
  apply Nat.eq_of_testBit_eq
  intro i
  simp only [bits, BitVec.testBit_toNat, BitVec.getLsbD_extractLsb']
  by_cases hi'' : i < hi' + 1 - lo'
  · rw [setBits_getLsbD _ _ _ _ _ (by omega), if_neg (by omega)]
  · simp [hi'']

theorem getLsbD_setBits_same {w : Nat} (x : BitVec w) (i : Nat) (b : Bool) (h : i < w) :
    (setBits x i i (b2n b)).getLsbD i = b := by
  rw [setBits_getLsbD _ _ _ _ _ h, if_pos (by omega)]; cases b <;> simp [b2n]

theorem getLsbD_setBits_other {w : Nat} (x : BitVec w) (hi lo v i : Nat) (h : i < lo ∨ hi < i) (hw : i < w) :
    (setBits x hi lo v).getLsbD i = x.getLsbD i := by
  rw [setBits_getLsbD _ _ _ _ _ hw, if_neg (by omega)]

/-! ### Registers -/

namespace State

variable (s : State)

@[simp] theorem reg_setReg_same (k : Nat) (v : BitVec 32) : (s.setReg k v).reg k = v := tget_tput_same _ _ _ _

theorem reg_setReg (k j : Nat) (v : BitVec 32) : (s.setReg k v).reg j = if j = k then v else s.reg j := tget_tput _ _ _ _ _

theorem reg_setReg_other {k j : Nat} (h : j ≠ k) (v : BitVec 32) : (s.setReg k v).reg j = s.reg j := by
  rw [reg_setReg, if_neg h]

theorem reg_setFld_other {k j : Nat} (h : j ≠ k) (hi lo v : Nat) : (s.setFld k hi lo v).reg j = s.reg j :=
  s.reg_setReg_other h _

theorem reg_setFlag_other {k j : Nat} (h : j ≠ k) (i : Nat) (b : Bool) : (s.setFlag k i b).reg j = s.reg j :=
  s.reg_setReg_other h _

theorem reg_count_other {k j : Nat} (h : j ≠ k) (hi lo n : Nat) : (s.count k hi lo n).reg j = s.reg j :=
  s.reg_setReg_other h _

/-- A field written reads back. -/
theorem fld_setFld (k hi lo v : Nat) (h : hi < 32) (hl : lo ≤ hi) :
    (s.setFld k hi lo v).fld k hi lo = v % 2 ^ (hi + 1 - lo) := by
  simp [setFld, fld, bits_setBits _ _ _ _ h hl]

/-- The other fields of the register are unchanged. -/
theorem fld_setFld_other (k hi lo v hi' lo' : Nat) (h' : hi' < 32) (hd : hi' < lo ∨ hi < lo') :
    (s.setFld k hi lo v).fld k hi' lo' = s.fld k hi' lo' := by
  simp [setFld, fld, bits_setBits_other _ _ _ _ _ _ h' hd]

theorem flag_setFlag (k i : Nat) (b : Bool) (h : i < 32) : (s.setFlag k i b).flag k i = b := by
  simp [setFlag, setFld, flag, getLsbD_setBits_same _ _ _ h]

theorem flag_setFlag_other (k i j : Nat) (b : Bool) (h : j ≠ i) (hj : j < 32) : (s.setFlag k i b).flag k j = s.flag k j := by
  simp [setFlag, setFld, flag, getLsbD_setBits_other _ _ _ _ _ (by omega : j < i ∨ i < j) hj]

/-- A register write touches the registers only, and keeps their table canonical. -/
theorem setReg_frame (k : Nat) (v : BitVec 32) : s.setReg k v = { s with regs := (s.setReg k v).regs } := rfl

theorem setReg_wf (k : Nat) (v : BitVec 32) (w : twf resetWord 0 s.regs) : twf resetWord 0 (s.setReg k v).regs :=
  twf_tput _ k v _ w

end State

end Sys2Proof.Machine
end

