-- ==== Sys2Proof/Laws/State.lean ====
section
/-! SUPPORT. What each named update of the state leaves unchanged, field by field, so that no proof unfolds a record update; and
that a read of an object after its own update gives what was put there. -/

namespace Sys2Proof.Machine.State

variable (s : State)

/-! ### setReg -/

@[simp] theorem setReg_pending (k : Nat) (v : BitVec 32) : (s.setReg k v).pending = s.pending := rfl
@[simp] theorem setReg_free (k : Nat) (v : BitVec 32) : (s.setReg k v).free = s.free := rfl
@[simp] theorem setReg_steps (k : Nat) (v : BitVec 32) : (s.setReg k v).steps = s.steps := rfl
@[simp] theorem setReg_bus (k : Nat) (v : BitVec 32) : (s.setReg k v).bus = s.bus := rfl
@[simp] theorem setReg_msix (k : Nat) (v : BitVec 32) : (s.setReg k v).msix = s.msix := rfl
@[simp] theorem setReg_evts (k : Nat) (v : BitVec 32) : (s.setReg k v).evts = s.evts := rfl
@[simp] theorem setReg_seq (k : Nat) (v : BitVec 32) : (s.setReg k v).seq = s.seq := rfl
@[simp] theorem setReg_clus (k : Nat) (v : BitVec 32) : (s.setReg k v).clus = s.clus := rfl
@[simp] theorem setReg_lanes (k : Nat) (v : BitVec 32) : (s.setReg k v).lanes = s.lanes := rfl
@[simp] theorem setReg_banks (k : Nat) (v : BitVec 32) : (s.setReg k v).banks = s.banks := rfl
@[simp] theorem setReg_spad (k : Nat) (v : BitVec 32) : (s.setReg k v).spad = s.spad := rfl
@[simp] theorem setReg_net (k : Nat) (v : BitVec 32) : (s.setReg k v).net = s.net := rfl
@[simp] theorem setReg_chanWait (k : Nat) (v : BitVec 32) : (s.setReg k v).chanWait = s.chanWait := rfl
@[simp] theorem setReg_epq (k : Nat) (v : BitVec 32) : (s.setReg k v).epq = s.epq := rfl
@[simp] theorem setReg_srv (k : Nat) (v : BitVec 32) : (s.setReg k v).srv = s.srv := rfl
@[simp] theorem setReg_masters (k : Nat) (v : BitVec 32) : (s.setReg k v).masters = s.masters := rfl
@[simp] theorem setReg_locks (k : Nat) (v : BitVec 32) : (s.setReg k v).locks = s.locks := rfl
@[simp] theorem setReg_ledger (k : Nat) (v : BitVec 32) : (s.setReg k v).ledger = s.ledger := rfl
@[simp] theorem setReg_us (k : Nat) (v : BitVec 32) : (s.setReg k v).us = s.us := rfl
@[simp] theorem setReg_dbg (k : Nat) (v : BitVec 32) : (s.setReg k v).dbg = s.dbg := rfl
@[simp] theorem setReg_tiles (k : Nat) (v : BitVec 32) : (s.setReg k v).tiles = s.tiles := rfl
@[simp] theorem setReg_overt (k : Nat) (v : BitVec 32) : (s.setReg k v).overt = s.overt := rfl
@[simp] theorem setReg_ports (k : Nat) (v : BitVec 32) : (s.setReg k v).ports = s.ports := rfl
@[simp] theorem setReg_fab (k : Nat) (v : BitVec 32) : (s.setReg k v).fab = s.fab := rfl
@[simp] theorem setReg_dev (k : Nat) (v : BitVec 32) : (s.setReg k v).dev = s.dev := rfl
@[simp] theorem setReg_hbm (k : Nat) (v : BitVec 32) : (s.setReg k v).hbm = s.hbm := rfl
@[simp] theorem setReg_hbmBad (k : Nat) (v : BitVec 32) : (s.setReg k v).hbmBad = s.hbmBad := rfl
@[simp] theorem setReg_mcs (k : Nat) (v : BitVec 32) : (s.setReg k v).mcs = s.mcs := rfl
@[simp] theorem setReg_tt (k : Nat) (v : BitVec 32) : (s.setReg k v).tt = s.tt := rfl
@[simp] theorem setReg_tio (k : Nat) (v : BitVec 32) : (s.setReg k v).tio = s.tio := rfl
@[simp] theorem setReg_pwr (k : Nat) (v : BitVec 32) : (s.setReg k v).pwr = s.pwr := rfl
@[simp] theorem setReg_tick (k : Nat) (v : BitVec 32) : (s.setReg k v).tick = s.tick := rfl
@[simp] theorem setReg_ss (k : Nat) (v : BitVec 32) : (s.setReg k v).ss = s.ss := rfl
@[simp] theorem setReg_load (k : Nat) (v : BitVec 32) : (s.setReg k v).load = s.load := rfl
@[simp] theorem setReg_image (k : Nat) (v : BitVec 32) : (s.setReg k v).image = s.image := rfl
@[simp] theorem setReg_store (k : Nat) (v : BitVec 32) : (s.setReg k v).store = s.store := rfl
@[simp] theorem setReg_dawn (k : Nat) (v : BitVec 32) : (s.setReg k v).dawn = s.dawn := rfl
@[simp] theorem setReg_fabId (k : Nat) (v : BitVec 32) : (s.setReg k v).fabId = s.fabId := rfl
@[simp] theorem setReg_fuses (k : Nat) (v : BitVec 32) : (s.setReg k v).fuses = s.fuses := rfl
@[simp] theorem setReg_fusesIn (k : Nat) (v : BitVec 32) : (s.setReg k v).fusesIn = s.fusesIn := rfl
@[simp] theorem setReg_devIn (k : Nat) (v : BitVec 32) : (s.setReg k v).devIn = s.devIn := rfl
@[simp] theorem setReg_pm (k : Nat) (v : BitVec 32) : (s.setReg k v).pm = s.pm := rfl
@[simp] theorem setReg_pkg (k : Nat) (v : BitVec 32) : (s.setReg k v).pkg = s.pkg := rfl

/-! ### setFld -/

@[simp] theorem setFld_pending (k hi lo v : Nat) : (s.setFld k hi lo v).pending = s.pending := rfl
@[simp] theorem setFld_free (k hi lo v : Nat) : (s.setFld k hi lo v).free = s.free := rfl
@[simp] theorem setFld_steps (k hi lo v : Nat) : (s.setFld k hi lo v).steps = s.steps := rfl
@[simp] theorem setFld_bus (k hi lo v : Nat) : (s.setFld k hi lo v).bus = s.bus := rfl
@[simp] theorem setFld_msix (k hi lo v : Nat) : (s.setFld k hi lo v).msix = s.msix := rfl
@[simp] theorem setFld_evts (k hi lo v : Nat) : (s.setFld k hi lo v).evts = s.evts := rfl
@[simp] theorem setFld_seq (k hi lo v : Nat) : (s.setFld k hi lo v).seq = s.seq := rfl
@[simp] theorem setFld_clus (k hi lo v : Nat) : (s.setFld k hi lo v).clus = s.clus := rfl
@[simp] theorem setFld_lanes (k hi lo v : Nat) : (s.setFld k hi lo v).lanes = s.lanes := rfl
@[simp] theorem setFld_banks (k hi lo v : Nat) : (s.setFld k hi lo v).banks = s.banks := rfl
@[simp] theorem setFld_spad (k hi lo v : Nat) : (s.setFld k hi lo v).spad = s.spad := rfl
@[simp] theorem setFld_net (k hi lo v : Nat) : (s.setFld k hi lo v).net = s.net := rfl
@[simp] theorem setFld_chanWait (k hi lo v : Nat) : (s.setFld k hi lo v).chanWait = s.chanWait := rfl
@[simp] theorem setFld_epq (k hi lo v : Nat) : (s.setFld k hi lo v).epq = s.epq := rfl
@[simp] theorem setFld_srv (k hi lo v : Nat) : (s.setFld k hi lo v).srv = s.srv := rfl
@[simp] theorem setFld_masters (k hi lo v : Nat) : (s.setFld k hi lo v).masters = s.masters := rfl
@[simp] theorem setFld_locks (k hi lo v : Nat) : (s.setFld k hi lo v).locks = s.locks := rfl
@[simp] theorem setFld_ledger (k hi lo v : Nat) : (s.setFld k hi lo v).ledger = s.ledger := rfl
@[simp] theorem setFld_us (k hi lo v : Nat) : (s.setFld k hi lo v).us = s.us := rfl
@[simp] theorem setFld_dbg (k hi lo v : Nat) : (s.setFld k hi lo v).dbg = s.dbg := rfl
@[simp] theorem setFld_tiles (k hi lo v : Nat) : (s.setFld k hi lo v).tiles = s.tiles := rfl
@[simp] theorem setFld_overt (k hi lo v : Nat) : (s.setFld k hi lo v).overt = s.overt := rfl
@[simp] theorem setFld_ports (k hi lo v : Nat) : (s.setFld k hi lo v).ports = s.ports := rfl
@[simp] theorem setFld_fab (k hi lo v : Nat) : (s.setFld k hi lo v).fab = s.fab := rfl
@[simp] theorem setFld_dev (k hi lo v : Nat) : (s.setFld k hi lo v).dev = s.dev := rfl
@[simp] theorem setFld_hbm (k hi lo v : Nat) : (s.setFld k hi lo v).hbm = s.hbm := rfl
@[simp] theorem setFld_hbmBad (k hi lo v : Nat) : (s.setFld k hi lo v).hbmBad = s.hbmBad := rfl
@[simp] theorem setFld_mcs (k hi lo v : Nat) : (s.setFld k hi lo v).mcs = s.mcs := rfl
@[simp] theorem setFld_tt (k hi lo v : Nat) : (s.setFld k hi lo v).tt = s.tt := rfl
@[simp] theorem setFld_tio (k hi lo v : Nat) : (s.setFld k hi lo v).tio = s.tio := rfl
@[simp] theorem setFld_pwr (k hi lo v : Nat) : (s.setFld k hi lo v).pwr = s.pwr := rfl
@[simp] theorem setFld_tick (k hi lo v : Nat) : (s.setFld k hi lo v).tick = s.tick := rfl
@[simp] theorem setFld_ss (k hi lo v : Nat) : (s.setFld k hi lo v).ss = s.ss := rfl
@[simp] theorem setFld_load (k hi lo v : Nat) : (s.setFld k hi lo v).load = s.load := rfl
@[simp] theorem setFld_image (k hi lo v : Nat) : (s.setFld k hi lo v).image = s.image := rfl
@[simp] theorem setFld_store (k hi lo v : Nat) : (s.setFld k hi lo v).store = s.store := rfl
@[simp] theorem setFld_dawn (k hi lo v : Nat) : (s.setFld k hi lo v).dawn = s.dawn := rfl
@[simp] theorem setFld_fabId (k hi lo v : Nat) : (s.setFld k hi lo v).fabId = s.fabId := rfl
@[simp] theorem setFld_fuses (k hi lo v : Nat) : (s.setFld k hi lo v).fuses = s.fuses := rfl
@[simp] theorem setFld_fusesIn (k hi lo v : Nat) : (s.setFld k hi lo v).fusesIn = s.fusesIn := rfl
@[simp] theorem setFld_devIn (k hi lo v : Nat) : (s.setFld k hi lo v).devIn = s.devIn := rfl
@[simp] theorem setFld_pm (k hi lo v : Nat) : (s.setFld k hi lo v).pm = s.pm := rfl
@[simp] theorem setFld_pkg (k hi lo v : Nat) : (s.setFld k hi lo v).pkg = s.pkg := rfl

/-! ### setFlag -/

@[simp] theorem setFlag_pending (k i : Nat) (b : Bool) : (s.setFlag k i b).pending = s.pending := rfl
@[simp] theorem setFlag_free (k i : Nat) (b : Bool) : (s.setFlag k i b).free = s.free := rfl
@[simp] theorem setFlag_steps (k i : Nat) (b : Bool) : (s.setFlag k i b).steps = s.steps := rfl
@[simp] theorem setFlag_bus (k i : Nat) (b : Bool) : (s.setFlag k i b).bus = s.bus := rfl
@[simp] theorem setFlag_msix (k i : Nat) (b : Bool) : (s.setFlag k i b).msix = s.msix := rfl
@[simp] theorem setFlag_evts (k i : Nat) (b : Bool) : (s.setFlag k i b).evts = s.evts := rfl
@[simp] theorem setFlag_seq (k i : Nat) (b : Bool) : (s.setFlag k i b).seq = s.seq := rfl
@[simp] theorem setFlag_clus (k i : Nat) (b : Bool) : (s.setFlag k i b).clus = s.clus := rfl
@[simp] theorem setFlag_lanes (k i : Nat) (b : Bool) : (s.setFlag k i b).lanes = s.lanes := rfl
@[simp] theorem setFlag_banks (k i : Nat) (b : Bool) : (s.setFlag k i b).banks = s.banks := rfl
@[simp] theorem setFlag_spad (k i : Nat) (b : Bool) : (s.setFlag k i b).spad = s.spad := rfl
@[simp] theorem setFlag_net (k i : Nat) (b : Bool) : (s.setFlag k i b).net = s.net := rfl
@[simp] theorem setFlag_chanWait (k i : Nat) (b : Bool) : (s.setFlag k i b).chanWait = s.chanWait := rfl
@[simp] theorem setFlag_epq (k i : Nat) (b : Bool) : (s.setFlag k i b).epq = s.epq := rfl
@[simp] theorem setFlag_srv (k i : Nat) (b : Bool) : (s.setFlag k i b).srv = s.srv := rfl
@[simp] theorem setFlag_masters (k i : Nat) (b : Bool) : (s.setFlag k i b).masters = s.masters := rfl
@[simp] theorem setFlag_locks (k i : Nat) (b : Bool) : (s.setFlag k i b).locks = s.locks := rfl
@[simp] theorem setFlag_ledger (k i : Nat) (b : Bool) : (s.setFlag k i b).ledger = s.ledger := rfl
@[simp] theorem setFlag_us (k i : Nat) (b : Bool) : (s.setFlag k i b).us = s.us := rfl
@[simp] theorem setFlag_dbg (k i : Nat) (b : Bool) : (s.setFlag k i b).dbg = s.dbg := rfl
@[simp] theorem setFlag_tiles (k i : Nat) (b : Bool) : (s.setFlag k i b).tiles = s.tiles := rfl
@[simp] theorem setFlag_overt (k i : Nat) (b : Bool) : (s.setFlag k i b).overt = s.overt := rfl
@[simp] theorem setFlag_ports (k i : Nat) (b : Bool) : (s.setFlag k i b).ports = s.ports := rfl
@[simp] theorem setFlag_fab (k i : Nat) (b : Bool) : (s.setFlag k i b).fab = s.fab := rfl
@[simp] theorem setFlag_dev (k i : Nat) (b : Bool) : (s.setFlag k i b).dev = s.dev := rfl
@[simp] theorem setFlag_hbm (k i : Nat) (b : Bool) : (s.setFlag k i b).hbm = s.hbm := rfl
@[simp] theorem setFlag_hbmBad (k i : Nat) (b : Bool) : (s.setFlag k i b).hbmBad = s.hbmBad := rfl
@[simp] theorem setFlag_mcs (k i : Nat) (b : Bool) : (s.setFlag k i b).mcs = s.mcs := rfl
@[simp] theorem setFlag_tt (k i : Nat) (b : Bool) : (s.setFlag k i b).tt = s.tt := rfl
@[simp] theorem setFlag_tio (k i : Nat) (b : Bool) : (s.setFlag k i b).tio = s.tio := rfl
@[simp] theorem setFlag_pwr (k i : Nat) (b : Bool) : (s.setFlag k i b).pwr = s.pwr := rfl
@[simp] theorem setFlag_tick (k i : Nat) (b : Bool) : (s.setFlag k i b).tick = s.tick := rfl
@[simp] theorem setFlag_ss (k i : Nat) (b : Bool) : (s.setFlag k i b).ss = s.ss := rfl
@[simp] theorem setFlag_load (k i : Nat) (b : Bool) : (s.setFlag k i b).load = s.load := rfl
@[simp] theorem setFlag_image (k i : Nat) (b : Bool) : (s.setFlag k i b).image = s.image := rfl
@[simp] theorem setFlag_store (k i : Nat) (b : Bool) : (s.setFlag k i b).store = s.store := rfl
@[simp] theorem setFlag_dawn (k i : Nat) (b : Bool) : (s.setFlag k i b).dawn = s.dawn := rfl
@[simp] theorem setFlag_fabId (k i : Nat) (b : Bool) : (s.setFlag k i b).fabId = s.fabId := rfl
@[simp] theorem setFlag_fuses (k i : Nat) (b : Bool) : (s.setFlag k i b).fuses = s.fuses := rfl
@[simp] theorem setFlag_fusesIn (k i : Nat) (b : Bool) : (s.setFlag k i b).fusesIn = s.fusesIn := rfl
@[simp] theorem setFlag_devIn (k i : Nat) (b : Bool) : (s.setFlag k i b).devIn = s.devIn := rfl
@[simp] theorem setFlag_pm (k i : Nat) (b : Bool) : (s.setFlag k i b).pm = s.pm := rfl
@[simp] theorem setFlag_pkg (k i : Nat) (b : Bool) : (s.setFlag k i b).pkg = s.pkg := rfl

/-! ### count -/

@[simp] theorem count_pending (k hi lo n : Nat) : (s.count k hi lo n).pending = s.pending := rfl
@[simp] theorem count_free (k hi lo n : Nat) : (s.count k hi lo n).free = s.free := rfl
@[simp] theorem count_steps (k hi lo n : Nat) : (s.count k hi lo n).steps = s.steps := rfl
@[simp] theorem count_bus (k hi lo n : Nat) : (s.count k hi lo n).bus = s.bus := rfl
@[simp] theorem count_msix (k hi lo n : Nat) : (s.count k hi lo n).msix = s.msix := rfl
@[simp] theorem count_evts (k hi lo n : Nat) : (s.count k hi lo n).evts = s.evts := rfl
@[simp] theorem count_seq (k hi lo n : Nat) : (s.count k hi lo n).seq = s.seq := rfl
@[simp] theorem count_clus (k hi lo n : Nat) : (s.count k hi lo n).clus = s.clus := rfl
@[simp] theorem count_lanes (k hi lo n : Nat) : (s.count k hi lo n).lanes = s.lanes := rfl
@[simp] theorem count_banks (k hi lo n : Nat) : (s.count k hi lo n).banks = s.banks := rfl
@[simp] theorem count_spad (k hi lo n : Nat) : (s.count k hi lo n).spad = s.spad := rfl
@[simp] theorem count_net (k hi lo n : Nat) : (s.count k hi lo n).net = s.net := rfl
@[simp] theorem count_chanWait (k hi lo n : Nat) : (s.count k hi lo n).chanWait = s.chanWait := rfl
@[simp] theorem count_epq (k hi lo n : Nat) : (s.count k hi lo n).epq = s.epq := rfl
@[simp] theorem count_srv (k hi lo n : Nat) : (s.count k hi lo n).srv = s.srv := rfl
@[simp] theorem count_masters (k hi lo n : Nat) : (s.count k hi lo n).masters = s.masters := rfl
@[simp] theorem count_locks (k hi lo n : Nat) : (s.count k hi lo n).locks = s.locks := rfl
@[simp] theorem count_ledger (k hi lo n : Nat) : (s.count k hi lo n).ledger = s.ledger := rfl
@[simp] theorem count_us (k hi lo n : Nat) : (s.count k hi lo n).us = s.us := rfl
@[simp] theorem count_dbg (k hi lo n : Nat) : (s.count k hi lo n).dbg = s.dbg := rfl
@[simp] theorem count_tiles (k hi lo n : Nat) : (s.count k hi lo n).tiles = s.tiles := rfl
@[simp] theorem count_overt (k hi lo n : Nat) : (s.count k hi lo n).overt = s.overt := rfl
@[simp] theorem count_ports (k hi lo n : Nat) : (s.count k hi lo n).ports = s.ports := rfl
@[simp] theorem count_fab (k hi lo n : Nat) : (s.count k hi lo n).fab = s.fab := rfl
@[simp] theorem count_dev (k hi lo n : Nat) : (s.count k hi lo n).dev = s.dev := rfl
@[simp] theorem count_hbm (k hi lo n : Nat) : (s.count k hi lo n).hbm = s.hbm := rfl
@[simp] theorem count_hbmBad (k hi lo n : Nat) : (s.count k hi lo n).hbmBad = s.hbmBad := rfl
@[simp] theorem count_mcs (k hi lo n : Nat) : (s.count k hi lo n).mcs = s.mcs := rfl
@[simp] theorem count_tt (k hi lo n : Nat) : (s.count k hi lo n).tt = s.tt := rfl
@[simp] theorem count_tio (k hi lo n : Nat) : (s.count k hi lo n).tio = s.tio := rfl
@[simp] theorem count_pwr (k hi lo n : Nat) : (s.count k hi lo n).pwr = s.pwr := rfl
@[simp] theorem count_tick (k hi lo n : Nat) : (s.count k hi lo n).tick = s.tick := rfl
@[simp] theorem count_ss (k hi lo n : Nat) : (s.count k hi lo n).ss = s.ss := rfl
@[simp] theorem count_load (k hi lo n : Nat) : (s.count k hi lo n).load = s.load := rfl
@[simp] theorem count_image (k hi lo n : Nat) : (s.count k hi lo n).image = s.image := rfl
@[simp] theorem count_store (k hi lo n : Nat) : (s.count k hi lo n).store = s.store := rfl
@[simp] theorem count_dawn (k hi lo n : Nat) : (s.count k hi lo n).dawn = s.dawn := rfl
@[simp] theorem count_fabId (k hi lo n : Nat) : (s.count k hi lo n).fabId = s.fabId := rfl
@[simp] theorem count_fuses (k hi lo n : Nat) : (s.count k hi lo n).fuses = s.fuses := rfl
@[simp] theorem count_fusesIn (k hi lo n : Nat) : (s.count k hi lo n).fusesIn = s.fusesIn := rfl
@[simp] theorem count_devIn (k hi lo n : Nat) : (s.count k hi lo n).devIn = s.devIn := rfl
@[simp] theorem count_pm (k hi lo n : Nat) : (s.count k hi lo n).pm = s.pm := rfl
@[simp] theorem count_pkg (k hi lo n : Nat) : (s.count k hi lo n).pkg = s.pkg := rfl

/-! ### loss -/

@[simp] theorem loss_pending (b : Nat) : (s.loss b).pending = s.pending := rfl
@[simp] theorem loss_free (b : Nat) : (s.loss b).free = s.free := rfl
@[simp] theorem loss_steps (b : Nat) : (s.loss b).steps = s.steps := rfl
@[simp] theorem loss_bus (b : Nat) : (s.loss b).bus = s.bus := rfl
@[simp] theorem loss_msix (b : Nat) : (s.loss b).msix = s.msix := rfl
@[simp] theorem loss_evts (b : Nat) : (s.loss b).evts = s.evts := rfl
@[simp] theorem loss_seq (b : Nat) : (s.loss b).seq = s.seq := rfl
@[simp] theorem loss_clus (b : Nat) : (s.loss b).clus = s.clus := rfl
@[simp] theorem loss_lanes (b : Nat) : (s.loss b).lanes = s.lanes := rfl
@[simp] theorem loss_banks (b : Nat) : (s.loss b).banks = s.banks := rfl
@[simp] theorem loss_spad (b : Nat) : (s.loss b).spad = s.spad := rfl
@[simp] theorem loss_net (b : Nat) : (s.loss b).net = s.net := rfl
@[simp] theorem loss_chanWait (b : Nat) : (s.loss b).chanWait = s.chanWait := rfl
@[simp] theorem loss_epq (b : Nat) : (s.loss b).epq = s.epq := rfl
@[simp] theorem loss_srv (b : Nat) : (s.loss b).srv = s.srv := rfl
@[simp] theorem loss_masters (b : Nat) : (s.loss b).masters = s.masters := rfl
@[simp] theorem loss_locks (b : Nat) : (s.loss b).locks = s.locks := rfl
@[simp] theorem loss_ledger (b : Nat) : (s.loss b).ledger = s.ledger := rfl
@[simp] theorem loss_us (b : Nat) : (s.loss b).us = s.us := rfl
@[simp] theorem loss_dbg (b : Nat) : (s.loss b).dbg = s.dbg := rfl
@[simp] theorem loss_tiles (b : Nat) : (s.loss b).tiles = s.tiles := rfl
@[simp] theorem loss_overt (b : Nat) : (s.loss b).overt = s.overt := rfl
@[simp] theorem loss_ports (b : Nat) : (s.loss b).ports = s.ports := rfl
@[simp] theorem loss_fab (b : Nat) : (s.loss b).fab = s.fab := rfl
@[simp] theorem loss_dev (b : Nat) : (s.loss b).dev = s.dev := rfl
@[simp] theorem loss_hbm (b : Nat) : (s.loss b).hbm = s.hbm := rfl
@[simp] theorem loss_hbmBad (b : Nat) : (s.loss b).hbmBad = s.hbmBad := rfl
@[simp] theorem loss_mcs (b : Nat) : (s.loss b).mcs = s.mcs := rfl
@[simp] theorem loss_tt (b : Nat) : (s.loss b).tt = s.tt := rfl
@[simp] theorem loss_tio (b : Nat) : (s.loss b).tio = s.tio := rfl
@[simp] theorem loss_pwr (b : Nat) : (s.loss b).pwr = s.pwr := rfl
@[simp] theorem loss_tick (b : Nat) : (s.loss b).tick = s.tick := rfl
@[simp] theorem loss_ss (b : Nat) : (s.loss b).ss = s.ss := rfl
@[simp] theorem loss_load (b : Nat) : (s.loss b).load = s.load := rfl
@[simp] theorem loss_image (b : Nat) : (s.loss b).image = s.image := rfl
@[simp] theorem loss_store (b : Nat) : (s.loss b).store = s.store := rfl
@[simp] theorem loss_dawn (b : Nat) : (s.loss b).dawn = s.dawn := rfl
@[simp] theorem loss_fabId (b : Nat) : (s.loss b).fabId = s.fabId := rfl
@[simp] theorem loss_fuses (b : Nat) : (s.loss b).fuses = s.fuses := rfl
@[simp] theorem loss_fusesIn (b : Nat) : (s.loss b).fusesIn = s.fusesIn := rfl
@[simp] theorem loss_devIn (b : Nat) : (s.loss b).devIn = s.devIn := rfl
@[simp] theorem loss_pm (b : Nat) : (s.loss b).pm = s.pm := rfl
@[simp] theorem loss_pkg (b : Nat) : (s.loss b).pkg = s.pkg := rfl

/-! ### setDomState -/

@[simp] theorem setDomState_pending (k st : Nat) : (s.setDomState k st).pending = s.pending := rfl
@[simp] theorem setDomState_free (k st : Nat) : (s.setDomState k st).free = s.free := rfl
@[simp] theorem setDomState_steps (k st : Nat) : (s.setDomState k st).steps = s.steps := rfl
@[simp] theorem setDomState_bus (k st : Nat) : (s.setDomState k st).bus = s.bus := rfl
@[simp] theorem setDomState_msix (k st : Nat) : (s.setDomState k st).msix = s.msix := rfl
@[simp] theorem setDomState_evts (k st : Nat) : (s.setDomState k st).evts = s.evts := rfl
@[simp] theorem setDomState_seq (k st : Nat) : (s.setDomState k st).seq = s.seq := rfl
@[simp] theorem setDomState_clus (k st : Nat) : (s.setDomState k st).clus = s.clus := rfl
@[simp] theorem setDomState_lanes (k st : Nat) : (s.setDomState k st).lanes = s.lanes := rfl
@[simp] theorem setDomState_banks (k st : Nat) : (s.setDomState k st).banks = s.banks := rfl
@[simp] theorem setDomState_spad (k st : Nat) : (s.setDomState k st).spad = s.spad := rfl
@[simp] theorem setDomState_net (k st : Nat) : (s.setDomState k st).net = s.net := rfl
@[simp] theorem setDomState_chanWait (k st : Nat) : (s.setDomState k st).chanWait = s.chanWait := rfl
@[simp] theorem setDomState_epq (k st : Nat) : (s.setDomState k st).epq = s.epq := rfl
@[simp] theorem setDomState_srv (k st : Nat) : (s.setDomState k st).srv = s.srv := rfl
@[simp] theorem setDomState_masters (k st : Nat) : (s.setDomState k st).masters = s.masters := rfl
@[simp] theorem setDomState_locks (k st : Nat) : (s.setDomState k st).locks = s.locks := rfl
@[simp] theorem setDomState_ledger (k st : Nat) : (s.setDomState k st).ledger = s.ledger := rfl
@[simp] theorem setDomState_us (k st : Nat) : (s.setDomState k st).us = s.us := rfl
@[simp] theorem setDomState_dbg (k st : Nat) : (s.setDomState k st).dbg = s.dbg := rfl
@[simp] theorem setDomState_tiles (k st : Nat) : (s.setDomState k st).tiles = s.tiles := rfl
@[simp] theorem setDomState_overt (k st : Nat) : (s.setDomState k st).overt = s.overt := rfl
@[simp] theorem setDomState_ports (k st : Nat) : (s.setDomState k st).ports = s.ports := rfl
@[simp] theorem setDomState_fab (k st : Nat) : (s.setDomState k st).fab = s.fab := rfl
@[simp] theorem setDomState_dev (k st : Nat) : (s.setDomState k st).dev = s.dev := rfl
@[simp] theorem setDomState_hbm (k st : Nat) : (s.setDomState k st).hbm = s.hbm := rfl
@[simp] theorem setDomState_hbmBad (k st : Nat) : (s.setDomState k st).hbmBad = s.hbmBad := rfl
@[simp] theorem setDomState_mcs (k st : Nat) : (s.setDomState k st).mcs = s.mcs := rfl
@[simp] theorem setDomState_tt (k st : Nat) : (s.setDomState k st).tt = s.tt := rfl
@[simp] theorem setDomState_tio (k st : Nat) : (s.setDomState k st).tio = s.tio := rfl
@[simp] theorem setDomState_pwr (k st : Nat) : (s.setDomState k st).pwr = s.pwr := rfl
@[simp] theorem setDomState_tick (k st : Nat) : (s.setDomState k st).tick = s.tick := rfl
@[simp] theorem setDomState_ss (k st : Nat) : (s.setDomState k st).ss = s.ss := rfl
@[simp] theorem setDomState_load (k st : Nat) : (s.setDomState k st).load = s.load := rfl
@[simp] theorem setDomState_image (k st : Nat) : (s.setDomState k st).image = s.image := rfl
@[simp] theorem setDomState_store (k st : Nat) : (s.setDomState k st).store = s.store := rfl
@[simp] theorem setDomState_dawn (k st : Nat) : (s.setDomState k st).dawn = s.dawn := rfl
@[simp] theorem setDomState_fabId (k st : Nat) : (s.setDomState k st).fabId = s.fabId := rfl
@[simp] theorem setDomState_fuses (k st : Nat) : (s.setDomState k st).fuses = s.fuses := rfl
@[simp] theorem setDomState_fusesIn (k st : Nat) : (s.setDomState k st).fusesIn = s.fusesIn := rfl
@[simp] theorem setDomState_devIn (k st : Nat) : (s.setDomState k st).devIn = s.devIn := rfl
@[simp] theorem setDomState_pm (k st : Nat) : (s.setDomState k st).pm = s.pm := rfl
@[simp] theorem setDomState_pkg (k st : Nat) : (s.setDomState k st).pkg = s.pkg := rfl

/-! ### setDState -/

@[simp] theorem setDState_pending (d st : Nat) : (s.setDState d st).pending = s.pending := rfl
@[simp] theorem setDState_free (d st : Nat) : (s.setDState d st).free = s.free := rfl
@[simp] theorem setDState_steps (d st : Nat) : (s.setDState d st).steps = s.steps := rfl
@[simp] theorem setDState_bus (d st : Nat) : (s.setDState d st).bus = s.bus := rfl
@[simp] theorem setDState_msix (d st : Nat) : (s.setDState d st).msix = s.msix := rfl
@[simp] theorem setDState_evts (d st : Nat) : (s.setDState d st).evts = s.evts := rfl
@[simp] theorem setDState_seq (d st : Nat) : (s.setDState d st).seq = s.seq := rfl
@[simp] theorem setDState_clus (d st : Nat) : (s.setDState d st).clus = s.clus := rfl
@[simp] theorem setDState_lanes (d st : Nat) : (s.setDState d st).lanes = s.lanes := rfl
@[simp] theorem setDState_banks (d st : Nat) : (s.setDState d st).banks = s.banks := rfl
@[simp] theorem setDState_spad (d st : Nat) : (s.setDState d st).spad = s.spad := rfl
@[simp] theorem setDState_net (d st : Nat) : (s.setDState d st).net = s.net := rfl
@[simp] theorem setDState_chanWait (d st : Nat) : (s.setDState d st).chanWait = s.chanWait := rfl
@[simp] theorem setDState_epq (d st : Nat) : (s.setDState d st).epq = s.epq := rfl
@[simp] theorem setDState_srv (d st : Nat) : (s.setDState d st).srv = s.srv := rfl
@[simp] theorem setDState_masters (d st : Nat) : (s.setDState d st).masters = s.masters := rfl
@[simp] theorem setDState_locks (d st : Nat) : (s.setDState d st).locks = s.locks := rfl
@[simp] theorem setDState_ledger (d st : Nat) : (s.setDState d st).ledger = s.ledger := rfl
@[simp] theorem setDState_us (d st : Nat) : (s.setDState d st).us = s.us := rfl
@[simp] theorem setDState_dbg (d st : Nat) : (s.setDState d st).dbg = s.dbg := rfl
@[simp] theorem setDState_tiles (d st : Nat) : (s.setDState d st).tiles = s.tiles := rfl
@[simp] theorem setDState_overt (d st : Nat) : (s.setDState d st).overt = s.overt := rfl
@[simp] theorem setDState_ports (d st : Nat) : (s.setDState d st).ports = s.ports := rfl
@[simp] theorem setDState_fab (d st : Nat) : (s.setDState d st).fab = s.fab := rfl
@[simp] theorem setDState_dev (d st : Nat) : (s.setDState d st).dev = s.dev := rfl
@[simp] theorem setDState_hbm (d st : Nat) : (s.setDState d st).hbm = s.hbm := rfl
@[simp] theorem setDState_hbmBad (d st : Nat) : (s.setDState d st).hbmBad = s.hbmBad := rfl
@[simp] theorem setDState_mcs (d st : Nat) : (s.setDState d st).mcs = s.mcs := rfl
@[simp] theorem setDState_tt (d st : Nat) : (s.setDState d st).tt = s.tt := rfl
@[simp] theorem setDState_tio (d st : Nat) : (s.setDState d st).tio = s.tio := rfl
@[simp] theorem setDState_pwr (d st : Nat) : (s.setDState d st).pwr = s.pwr := rfl
@[simp] theorem setDState_tick (d st : Nat) : (s.setDState d st).tick = s.tick := rfl
@[simp] theorem setDState_ss (d st : Nat) : (s.setDState d st).ss = s.ss := rfl
@[simp] theorem setDState_load (d st : Nat) : (s.setDState d st).load = s.load := rfl
@[simp] theorem setDState_image (d st : Nat) : (s.setDState d st).image = s.image := rfl
@[simp] theorem setDState_store (d st : Nat) : (s.setDState d st).store = s.store := rfl
@[simp] theorem setDState_dawn (d st : Nat) : (s.setDState d st).dawn = s.dawn := rfl
@[simp] theorem setDState_fabId (d st : Nat) : (s.setDState d st).fabId = s.fabId := rfl
@[simp] theorem setDState_fuses (d st : Nat) : (s.setDState d st).fuses = s.fuses := rfl
@[simp] theorem setDState_fusesIn (d st : Nat) : (s.setDState d st).fusesIn = s.fusesIn := rfl
@[simp] theorem setDState_devIn (d st : Nat) : (s.setDState d st).devIn = s.devIn := rfl
@[simp] theorem setDState_pm (d st : Nat) : (s.setDState d st).pm = s.pm := rfl
@[simp] theorem setDState_pkg (d st : Nat) : (s.setDState d st).pkg = s.pkg := rfl

/-! ### irq -/

@[simp] theorem irq_pending (v : Nat) : (s.irq v).pending = s.pending := rfl
@[simp] theorem irq_free (v : Nat) : (s.irq v).free = s.free := rfl
@[simp] theorem irq_steps (v : Nat) : (s.irq v).steps = s.steps := rfl
@[simp] theorem irq_regs (v : Nat) : (s.irq v).regs = s.regs := rfl
@[simp] theorem irq_bus (v : Nat) : (s.irq v).bus = s.bus := rfl
@[simp] theorem irq_msix (v : Nat) : (s.irq v).msix = s.msix := rfl
@[simp] theorem irq_evts (v : Nat) : (s.irq v).evts = s.evts := rfl
@[simp] theorem irq_seq (v : Nat) : (s.irq v).seq = s.seq := rfl
@[simp] theorem irq_clus (v : Nat) : (s.irq v).clus = s.clus := rfl
@[simp] theorem irq_lanes (v : Nat) : (s.irq v).lanes = s.lanes := rfl
@[simp] theorem irq_banks (v : Nat) : (s.irq v).banks = s.banks := rfl
@[simp] theorem irq_spad (v : Nat) : (s.irq v).spad = s.spad := rfl
@[simp] theorem irq_chanWait (v : Nat) : (s.irq v).chanWait = s.chanWait := rfl
@[simp] theorem irq_epq (v : Nat) : (s.irq v).epq = s.epq := rfl
@[simp] theorem irq_srv (v : Nat) : (s.irq v).srv = s.srv := rfl
@[simp] theorem irq_masters (v : Nat) : (s.irq v).masters = s.masters := rfl
@[simp] theorem irq_locks (v : Nat) : (s.irq v).locks = s.locks := rfl
@[simp] theorem irq_ledger (v : Nat) : (s.irq v).ledger = s.ledger := rfl
@[simp] theorem irq_us (v : Nat) : (s.irq v).us = s.us := rfl
@[simp] theorem irq_dbg (v : Nat) : (s.irq v).dbg = s.dbg := rfl
@[simp] theorem irq_tiles (v : Nat) : (s.irq v).tiles = s.tiles := rfl
@[simp] theorem irq_overt (v : Nat) : (s.irq v).overt = s.overt := rfl
@[simp] theorem irq_ports (v : Nat) : (s.irq v).ports = s.ports := rfl
@[simp] theorem irq_fab (v : Nat) : (s.irq v).fab = s.fab := rfl
@[simp] theorem irq_dev (v : Nat) : (s.irq v).dev = s.dev := rfl
@[simp] theorem irq_hbm (v : Nat) : (s.irq v).hbm = s.hbm := rfl
@[simp] theorem irq_hbmBad (v : Nat) : (s.irq v).hbmBad = s.hbmBad := rfl
@[simp] theorem irq_mcs (v : Nat) : (s.irq v).mcs = s.mcs := rfl
@[simp] theorem irq_tt (v : Nat) : (s.irq v).tt = s.tt := rfl
@[simp] theorem irq_tio (v : Nat) : (s.irq v).tio = s.tio := rfl
@[simp] theorem irq_pwr (v : Nat) : (s.irq v).pwr = s.pwr := rfl
@[simp] theorem irq_tick (v : Nat) : (s.irq v).tick = s.tick := rfl
@[simp] theorem irq_ss (v : Nat) : (s.irq v).ss = s.ss := rfl
@[simp] theorem irq_load (v : Nat) : (s.irq v).load = s.load := rfl
@[simp] theorem irq_image (v : Nat) : (s.irq v).image = s.image := rfl
@[simp] theorem irq_store (v : Nat) : (s.irq v).store = s.store := rfl
@[simp] theorem irq_dawn (v : Nat) : (s.irq v).dawn = s.dawn := rfl
@[simp] theorem irq_fabId (v : Nat) : (s.irq v).fabId = s.fabId := rfl
@[simp] theorem irq_fuses (v : Nat) : (s.irq v).fuses = s.fuses := rfl
@[simp] theorem irq_fusesIn (v : Nat) : (s.irq v).fusesIn = s.fusesIn := rfl
@[simp] theorem irq_devIn (v : Nat) : (s.irq v).devIn = s.devIn := rfl
@[simp] theorem irq_pm (v : Nat) : (s.irq v).pm = s.pm := rfl
@[simp] theorem irq_pkg (v : Nat) : (s.irq v).pkg = s.pkg := rfl

/-! ### irqIf -/

@[simp] theorem irqIf_pending (b : Bool) (v : Nat) : (s.irqIf b v).pending = s.pending := by cases b <;> rfl
@[simp] theorem irqIf_free (b : Bool) (v : Nat) : (s.irqIf b v).free = s.free := by cases b <;> rfl
@[simp] theorem irqIf_steps (b : Bool) (v : Nat) : (s.irqIf b v).steps = s.steps := by cases b <;> rfl
@[simp] theorem irqIf_regs (b : Bool) (v : Nat) : (s.irqIf b v).regs = s.regs := by cases b <;> rfl
@[simp] theorem irqIf_bus (b : Bool) (v : Nat) : (s.irqIf b v).bus = s.bus := by cases b <;> rfl
@[simp] theorem irqIf_msix (b : Bool) (v : Nat) : (s.irqIf b v).msix = s.msix := by cases b <;> rfl
@[simp] theorem irqIf_evts (b : Bool) (v : Nat) : (s.irqIf b v).evts = s.evts := by cases b <;> rfl
@[simp] theorem irqIf_seq (b : Bool) (v : Nat) : (s.irqIf b v).seq = s.seq := by cases b <;> rfl
@[simp] theorem irqIf_clus (b : Bool) (v : Nat) : (s.irqIf b v).clus = s.clus := by cases b <;> rfl
@[simp] theorem irqIf_lanes (b : Bool) (v : Nat) : (s.irqIf b v).lanes = s.lanes := by cases b <;> rfl
@[simp] theorem irqIf_banks (b : Bool) (v : Nat) : (s.irqIf b v).banks = s.banks := by cases b <;> rfl
@[simp] theorem irqIf_spad (b : Bool) (v : Nat) : (s.irqIf b v).spad = s.spad := by cases b <;> rfl
@[simp] theorem irqIf_chanWait (b : Bool) (v : Nat) : (s.irqIf b v).chanWait = s.chanWait := by cases b <;> rfl
@[simp] theorem irqIf_epq (b : Bool) (v : Nat) : (s.irqIf b v).epq = s.epq := by cases b <;> rfl
@[simp] theorem irqIf_srv (b : Bool) (v : Nat) : (s.irqIf b v).srv = s.srv := by cases b <;> rfl
@[simp] theorem irqIf_masters (b : Bool) (v : Nat) : (s.irqIf b v).masters = s.masters := by cases b <;> rfl
@[simp] theorem irqIf_locks (b : Bool) (v : Nat) : (s.irqIf b v).locks = s.locks := by cases b <;> rfl
@[simp] theorem irqIf_ledger (b : Bool) (v : Nat) : (s.irqIf b v).ledger = s.ledger := by cases b <;> rfl
@[simp] theorem irqIf_us (b : Bool) (v : Nat) : (s.irqIf b v).us = s.us := by cases b <;> rfl
@[simp] theorem irqIf_dbg (b : Bool) (v : Nat) : (s.irqIf b v).dbg = s.dbg := by cases b <;> rfl
@[simp] theorem irqIf_tiles (b : Bool) (v : Nat) : (s.irqIf b v).tiles = s.tiles := by cases b <;> rfl
@[simp] theorem irqIf_overt (b : Bool) (v : Nat) : (s.irqIf b v).overt = s.overt := by cases b <;> rfl
@[simp] theorem irqIf_ports (b : Bool) (v : Nat) : (s.irqIf b v).ports = s.ports := by cases b <;> rfl
@[simp] theorem irqIf_fab (b : Bool) (v : Nat) : (s.irqIf b v).fab = s.fab := by cases b <;> rfl
@[simp] theorem irqIf_dev (b : Bool) (v : Nat) : (s.irqIf b v).dev = s.dev := by cases b <;> rfl
@[simp] theorem irqIf_hbm (b : Bool) (v : Nat) : (s.irqIf b v).hbm = s.hbm := by cases b <;> rfl
@[simp] theorem irqIf_hbmBad (b : Bool) (v : Nat) : (s.irqIf b v).hbmBad = s.hbmBad := by cases b <;> rfl
@[simp] theorem irqIf_mcs (b : Bool) (v : Nat) : (s.irqIf b v).mcs = s.mcs := by cases b <;> rfl
@[simp] theorem irqIf_tt (b : Bool) (v : Nat) : (s.irqIf b v).tt = s.tt := by cases b <;> rfl
@[simp] theorem irqIf_tio (b : Bool) (v : Nat) : (s.irqIf b v).tio = s.tio := by cases b <;> rfl
@[simp] theorem irqIf_pwr (b : Bool) (v : Nat) : (s.irqIf b v).pwr = s.pwr := by cases b <;> rfl
@[simp] theorem irqIf_tick (b : Bool) (v : Nat) : (s.irqIf b v).tick = s.tick := by cases b <;> rfl
@[simp] theorem irqIf_ss (b : Bool) (v : Nat) : (s.irqIf b v).ss = s.ss := by cases b <;> rfl
@[simp] theorem irqIf_load (b : Bool) (v : Nat) : (s.irqIf b v).load = s.load := by cases b <;> rfl
@[simp] theorem irqIf_image (b : Bool) (v : Nat) : (s.irqIf b v).image = s.image := by cases b <;> rfl
@[simp] theorem irqIf_store (b : Bool) (v : Nat) : (s.irqIf b v).store = s.store := by cases b <;> rfl
@[simp] theorem irqIf_dawn (b : Bool) (v : Nat) : (s.irqIf b v).dawn = s.dawn := by cases b <;> rfl
@[simp] theorem irqIf_fabId (b : Bool) (v : Nat) : (s.irqIf b v).fabId = s.fabId := by cases b <;> rfl
@[simp] theorem irqIf_fuses (b : Bool) (v : Nat) : (s.irqIf b v).fuses = s.fuses := by cases b <;> rfl
@[simp] theorem irqIf_fusesIn (b : Bool) (v : Nat) : (s.irqIf b v).fusesIn = s.fusesIn := by cases b <;> rfl
@[simp] theorem irqIf_devIn (b : Bool) (v : Nat) : (s.irqIf b v).devIn = s.devIn := by cases b <;> rfl
@[simp] theorem irqIf_pm (b : Bool) (v : Nat) : (s.irqIf b v).pm = s.pm := by cases b <;> rfl
@[simp] theorem irqIf_pkg (b : Bool) (v : Nat) : (s.irqIf b v).pkg = s.pkg := by cases b <;> rfl

/-! ### answer -/

@[simp] theorem answer_pending (v : BitVec 32) : (s.answer v).pending = s.pending := rfl
@[simp] theorem answer_free (v : BitVec 32) : (s.answer v).free = s.free := rfl
@[simp] theorem answer_steps (v : BitVec 32) : (s.answer v).steps = s.steps := rfl
@[simp] theorem answer_regs (v : BitVec 32) : (s.answer v).regs = s.regs := rfl
@[simp] theorem answer_msix (v : BitVec 32) : (s.answer v).msix = s.msix := rfl
@[simp] theorem answer_evts (v : BitVec 32) : (s.answer v).evts = s.evts := rfl
@[simp] theorem answer_seq (v : BitVec 32) : (s.answer v).seq = s.seq := rfl
@[simp] theorem answer_clus (v : BitVec 32) : (s.answer v).clus = s.clus := rfl
@[simp] theorem answer_lanes (v : BitVec 32) : (s.answer v).lanes = s.lanes := rfl
@[simp] theorem answer_banks (v : BitVec 32) : (s.answer v).banks = s.banks := rfl
@[simp] theorem answer_spad (v : BitVec 32) : (s.answer v).spad = s.spad := rfl
@[simp] theorem answer_net (v : BitVec 32) : (s.answer v).net = s.net := rfl
@[simp] theorem answer_chanWait (v : BitVec 32) : (s.answer v).chanWait = s.chanWait := rfl
@[simp] theorem answer_epq (v : BitVec 32) : (s.answer v).epq = s.epq := rfl
@[simp] theorem answer_srv (v : BitVec 32) : (s.answer v).srv = s.srv := rfl
@[simp] theorem answer_masters (v : BitVec 32) : (s.answer v).masters = s.masters := rfl
@[simp] theorem answer_locks (v : BitVec 32) : (s.answer v).locks = s.locks := rfl
@[simp] theorem answer_ledger (v : BitVec 32) : (s.answer v).ledger = s.ledger := rfl
@[simp] theorem answer_us (v : BitVec 32) : (s.answer v).us = s.us := rfl
@[simp] theorem answer_dbg (v : BitVec 32) : (s.answer v).dbg = s.dbg := rfl
@[simp] theorem answer_tiles (v : BitVec 32) : (s.answer v).tiles = s.tiles := rfl
@[simp] theorem answer_overt (v : BitVec 32) : (s.answer v).overt = s.overt := rfl
@[simp] theorem answer_ports (v : BitVec 32) : (s.answer v).ports = s.ports := rfl
@[simp] theorem answer_fab (v : BitVec 32) : (s.answer v).fab = s.fab := rfl
@[simp] theorem answer_dev (v : BitVec 32) : (s.answer v).dev = s.dev := rfl
@[simp] theorem answer_hbm (v : BitVec 32) : (s.answer v).hbm = s.hbm := rfl
@[simp] theorem answer_hbmBad (v : BitVec 32) : (s.answer v).hbmBad = s.hbmBad := rfl
@[simp] theorem answer_mcs (v : BitVec 32) : (s.answer v).mcs = s.mcs := rfl
@[simp] theorem answer_tt (v : BitVec 32) : (s.answer v).tt = s.tt := rfl
@[simp] theorem answer_tio (v : BitVec 32) : (s.answer v).tio = s.tio := rfl
@[simp] theorem answer_pwr (v : BitVec 32) : (s.answer v).pwr = s.pwr := rfl
@[simp] theorem answer_tick (v : BitVec 32) : (s.answer v).tick = s.tick := rfl
@[simp] theorem answer_ss (v : BitVec 32) : (s.answer v).ss = s.ss := rfl
@[simp] theorem answer_load (v : BitVec 32) : (s.answer v).load = s.load := rfl
@[simp] theorem answer_image (v : BitVec 32) : (s.answer v).image = s.image := rfl
@[simp] theorem answer_store (v : BitVec 32) : (s.answer v).store = s.store := rfl
@[simp] theorem answer_dawn (v : BitVec 32) : (s.answer v).dawn = s.dawn := rfl
@[simp] theorem answer_fabId (v : BitVec 32) : (s.answer v).fabId = s.fabId := rfl
@[simp] theorem answer_fuses (v : BitVec 32) : (s.answer v).fuses = s.fuses := rfl
@[simp] theorem answer_fusesIn (v : BitVec 32) : (s.answer v).fusesIn = s.fusesIn := rfl
@[simp] theorem answer_devIn (v : BitVec 32) : (s.answer v).devIn = s.devIn := rfl
@[simp] theorem answer_pm (v : BitVec 32) : (s.answer v).pm = s.pm := rfl
@[simp] theorem answer_pkg (v : BitVec 32) : (s.answer v).pkg = s.pkg := rfl

/-! ### setClu -/

@[simp] theorem setClu_pending (t c : Nat) (x : Cluster) : (s.setClu t c x).pending = s.pending := rfl
@[simp] theorem setClu_free (t c : Nat) (x : Cluster) : (s.setClu t c x).free = s.free := rfl
@[simp] theorem setClu_steps (t c : Nat) (x : Cluster) : (s.setClu t c x).steps = s.steps := rfl
@[simp] theorem setClu_regs (t c : Nat) (x : Cluster) : (s.setClu t c x).regs = s.regs := rfl
@[simp] theorem setClu_bus (t c : Nat) (x : Cluster) : (s.setClu t c x).bus = s.bus := rfl
@[simp] theorem setClu_msix (t c : Nat) (x : Cluster) : (s.setClu t c x).msix = s.msix := rfl
@[simp] theorem setClu_evts (t c : Nat) (x : Cluster) : (s.setClu t c x).evts = s.evts := rfl
@[simp] theorem setClu_seq (t c : Nat) (x : Cluster) : (s.setClu t c x).seq = s.seq := rfl
@[simp] theorem setClu_lanes (t c : Nat) (x : Cluster) : (s.setClu t c x).lanes = s.lanes := rfl
@[simp] theorem setClu_banks (t c : Nat) (x : Cluster) : (s.setClu t c x).banks = s.banks := rfl
@[simp] theorem setClu_spad (t c : Nat) (x : Cluster) : (s.setClu t c x).spad = s.spad := rfl
@[simp] theorem setClu_net (t c : Nat) (x : Cluster) : (s.setClu t c x).net = s.net := rfl
@[simp] theorem setClu_chanWait (t c : Nat) (x : Cluster) : (s.setClu t c x).chanWait = s.chanWait := rfl
@[simp] theorem setClu_epq (t c : Nat) (x : Cluster) : (s.setClu t c x).epq = s.epq := rfl
@[simp] theorem setClu_srv (t c : Nat) (x : Cluster) : (s.setClu t c x).srv = s.srv := rfl
@[simp] theorem setClu_masters (t c : Nat) (x : Cluster) : (s.setClu t c x).masters = s.masters := rfl
@[simp] theorem setClu_locks (t c : Nat) (x : Cluster) : (s.setClu t c x).locks = s.locks := rfl
@[simp] theorem setClu_ledger (t c : Nat) (x : Cluster) : (s.setClu t c x).ledger = s.ledger := rfl
@[simp] theorem setClu_us (t c : Nat) (x : Cluster) : (s.setClu t c x).us = s.us := rfl
@[simp] theorem setClu_dbg (t c : Nat) (x : Cluster) : (s.setClu t c x).dbg = s.dbg := rfl
@[simp] theorem setClu_tiles (t c : Nat) (x : Cluster) : (s.setClu t c x).tiles = s.tiles := rfl
@[simp] theorem setClu_overt (t c : Nat) (x : Cluster) : (s.setClu t c x).overt = s.overt := rfl
@[simp] theorem setClu_ports (t c : Nat) (x : Cluster) : (s.setClu t c x).ports = s.ports := rfl
@[simp] theorem setClu_fab (t c : Nat) (x : Cluster) : (s.setClu t c x).fab = s.fab := rfl
@[simp] theorem setClu_dev (t c : Nat) (x : Cluster) : (s.setClu t c x).dev = s.dev := rfl
@[simp] theorem setClu_hbm (t c : Nat) (x : Cluster) : (s.setClu t c x).hbm = s.hbm := rfl
@[simp] theorem setClu_hbmBad (t c : Nat) (x : Cluster) : (s.setClu t c x).hbmBad = s.hbmBad := rfl
@[simp] theorem setClu_mcs (t c : Nat) (x : Cluster) : (s.setClu t c x).mcs = s.mcs := rfl
@[simp] theorem setClu_tt (t c : Nat) (x : Cluster) : (s.setClu t c x).tt = s.tt := rfl
@[simp] theorem setClu_tio (t c : Nat) (x : Cluster) : (s.setClu t c x).tio = s.tio := rfl
@[simp] theorem setClu_pwr (t c : Nat) (x : Cluster) : (s.setClu t c x).pwr = s.pwr := rfl
@[simp] theorem setClu_tick (t c : Nat) (x : Cluster) : (s.setClu t c x).tick = s.tick := rfl
@[simp] theorem setClu_ss (t c : Nat) (x : Cluster) : (s.setClu t c x).ss = s.ss := rfl
@[simp] theorem setClu_load (t c : Nat) (x : Cluster) : (s.setClu t c x).load = s.load := rfl
@[simp] theorem setClu_image (t c : Nat) (x : Cluster) : (s.setClu t c x).image = s.image := rfl
@[simp] theorem setClu_store (t c : Nat) (x : Cluster) : (s.setClu t c x).store = s.store := rfl
@[simp] theorem setClu_dawn (t c : Nat) (x : Cluster) : (s.setClu t c x).dawn = s.dawn := rfl
@[simp] theorem setClu_fabId (t c : Nat) (x : Cluster) : (s.setClu t c x).fabId = s.fabId := rfl
@[simp] theorem setClu_fuses (t c : Nat) (x : Cluster) : (s.setClu t c x).fuses = s.fuses := rfl
@[simp] theorem setClu_fusesIn (t c : Nat) (x : Cluster) : (s.setClu t c x).fusesIn = s.fusesIn := rfl
@[simp] theorem setClu_devIn (t c : Nat) (x : Cluster) : (s.setClu t c x).devIn = s.devIn := rfl
@[simp] theorem setClu_pm (t c : Nat) (x : Cluster) : (s.setClu t c x).pm = s.pm := rfl
@[simp] theorem setClu_pkg (t c : Nat) (x : Cluster) : (s.setClu t c x).pkg = s.pkg := rfl

/-! ### setLane -/

@[simp] theorem setLane_pending (l : LaneId) (x : Lane) : (s.setLane l x).pending = s.pending := rfl
@[simp] theorem setLane_free (l : LaneId) (x : Lane) : (s.setLane l x).free = s.free := rfl
@[simp] theorem setLane_steps (l : LaneId) (x : Lane) : (s.setLane l x).steps = s.steps := rfl
@[simp] theorem setLane_regs (l : LaneId) (x : Lane) : (s.setLane l x).regs = s.regs := rfl
@[simp] theorem setLane_bus (l : LaneId) (x : Lane) : (s.setLane l x).bus = s.bus := rfl
@[simp] theorem setLane_msix (l : LaneId) (x : Lane) : (s.setLane l x).msix = s.msix := rfl
@[simp] theorem setLane_evts (l : LaneId) (x : Lane) : (s.setLane l x).evts = s.evts := rfl
@[simp] theorem setLane_seq (l : LaneId) (x : Lane) : (s.setLane l x).seq = s.seq := rfl
@[simp] theorem setLane_clus (l : LaneId) (x : Lane) : (s.setLane l x).clus = s.clus := rfl
@[simp] theorem setLane_banks (l : LaneId) (x : Lane) : (s.setLane l x).banks = s.banks := rfl
@[simp] theorem setLane_spad (l : LaneId) (x : Lane) : (s.setLane l x).spad = s.spad := rfl
@[simp] theorem setLane_net (l : LaneId) (x : Lane) : (s.setLane l x).net = s.net := rfl
@[simp] theorem setLane_chanWait (l : LaneId) (x : Lane) : (s.setLane l x).chanWait = s.chanWait := rfl
@[simp] theorem setLane_epq (l : LaneId) (x : Lane) : (s.setLane l x).epq = s.epq := rfl
@[simp] theorem setLane_srv (l : LaneId) (x : Lane) : (s.setLane l x).srv = s.srv := rfl
@[simp] theorem setLane_masters (l : LaneId) (x : Lane) : (s.setLane l x).masters = s.masters := rfl
@[simp] theorem setLane_locks (l : LaneId) (x : Lane) : (s.setLane l x).locks = s.locks := rfl
@[simp] theorem setLane_ledger (l : LaneId) (x : Lane) : (s.setLane l x).ledger = s.ledger := rfl
@[simp] theorem setLane_us (l : LaneId) (x : Lane) : (s.setLane l x).us = s.us := rfl
@[simp] theorem setLane_dbg (l : LaneId) (x : Lane) : (s.setLane l x).dbg = s.dbg := rfl
@[simp] theorem setLane_tiles (l : LaneId) (x : Lane) : (s.setLane l x).tiles = s.tiles := rfl
@[simp] theorem setLane_overt (l : LaneId) (x : Lane) : (s.setLane l x).overt = s.overt := rfl
@[simp] theorem setLane_ports (l : LaneId) (x : Lane) : (s.setLane l x).ports = s.ports := rfl
@[simp] theorem setLane_fab (l : LaneId) (x : Lane) : (s.setLane l x).fab = s.fab := rfl
@[simp] theorem setLane_dev (l : LaneId) (x : Lane) : (s.setLane l x).dev = s.dev := rfl
@[simp] theorem setLane_hbm (l : LaneId) (x : Lane) : (s.setLane l x).hbm = s.hbm := rfl
@[simp] theorem setLane_hbmBad (l : LaneId) (x : Lane) : (s.setLane l x).hbmBad = s.hbmBad := rfl
@[simp] theorem setLane_mcs (l : LaneId) (x : Lane) : (s.setLane l x).mcs = s.mcs := rfl
@[simp] theorem setLane_tt (l : LaneId) (x : Lane) : (s.setLane l x).tt = s.tt := rfl
@[simp] theorem setLane_tio (l : LaneId) (x : Lane) : (s.setLane l x).tio = s.tio := rfl
@[simp] theorem setLane_pwr (l : LaneId) (x : Lane) : (s.setLane l x).pwr = s.pwr := rfl
@[simp] theorem setLane_tick (l : LaneId) (x : Lane) : (s.setLane l x).tick = s.tick := rfl
@[simp] theorem setLane_ss (l : LaneId) (x : Lane) : (s.setLane l x).ss = s.ss := rfl
@[simp] theorem setLane_load (l : LaneId) (x : Lane) : (s.setLane l x).load = s.load := rfl
@[simp] theorem setLane_image (l : LaneId) (x : Lane) : (s.setLane l x).image = s.image := rfl
@[simp] theorem setLane_store (l : LaneId) (x : Lane) : (s.setLane l x).store = s.store := rfl
@[simp] theorem setLane_dawn (l : LaneId) (x : Lane) : (s.setLane l x).dawn = s.dawn := rfl
@[simp] theorem setLane_fabId (l : LaneId) (x : Lane) : (s.setLane l x).fabId = s.fabId := rfl
@[simp] theorem setLane_fuses (l : LaneId) (x : Lane) : (s.setLane l x).fuses = s.fuses := rfl
@[simp] theorem setLane_fusesIn (l : LaneId) (x : Lane) : (s.setLane l x).fusesIn = s.fusesIn := rfl
@[simp] theorem setLane_devIn (l : LaneId) (x : Lane) : (s.setLane l x).devIn = s.devIn := rfl
@[simp] theorem setLane_pm (l : LaneId) (x : Lane) : (s.setLane l x).pm = s.pm := rfl
@[simp] theorem setLane_pkg (l : LaneId) (x : Lane) : (s.setLane l x).pkg = s.pkg := rfl

/-! ### setBank -/

@[simp] theorem setBank_pending (t b : Nat) (x : Bank) : (s.setBank t b x).pending = s.pending := rfl
@[simp] theorem setBank_free (t b : Nat) (x : Bank) : (s.setBank t b x).free = s.free := rfl
@[simp] theorem setBank_steps (t b : Nat) (x : Bank) : (s.setBank t b x).steps = s.steps := rfl
@[simp] theorem setBank_regs (t b : Nat) (x : Bank) : (s.setBank t b x).regs = s.regs := rfl
@[simp] theorem setBank_bus (t b : Nat) (x : Bank) : (s.setBank t b x).bus = s.bus := rfl
@[simp] theorem setBank_msix (t b : Nat) (x : Bank) : (s.setBank t b x).msix = s.msix := rfl
@[simp] theorem setBank_evts (t b : Nat) (x : Bank) : (s.setBank t b x).evts = s.evts := rfl
@[simp] theorem setBank_seq (t b : Nat) (x : Bank) : (s.setBank t b x).seq = s.seq := rfl
@[simp] theorem setBank_clus (t b : Nat) (x : Bank) : (s.setBank t b x).clus = s.clus := rfl
@[simp] theorem setBank_lanes (t b : Nat) (x : Bank) : (s.setBank t b x).lanes = s.lanes := rfl
@[simp] theorem setBank_spad (t b : Nat) (x : Bank) : (s.setBank t b x).spad = s.spad := rfl
@[simp] theorem setBank_net (t b : Nat) (x : Bank) : (s.setBank t b x).net = s.net := rfl
@[simp] theorem setBank_chanWait (t b : Nat) (x : Bank) : (s.setBank t b x).chanWait = s.chanWait := rfl
@[simp] theorem setBank_epq (t b : Nat) (x : Bank) : (s.setBank t b x).epq = s.epq := rfl
@[simp] theorem setBank_srv (t b : Nat) (x : Bank) : (s.setBank t b x).srv = s.srv := rfl
@[simp] theorem setBank_masters (t b : Nat) (x : Bank) : (s.setBank t b x).masters = s.masters := rfl
@[simp] theorem setBank_locks (t b : Nat) (x : Bank) : (s.setBank t b x).locks = s.locks := rfl
@[simp] theorem setBank_ledger (t b : Nat) (x : Bank) : (s.setBank t b x).ledger = s.ledger := rfl
@[simp] theorem setBank_us (t b : Nat) (x : Bank) : (s.setBank t b x).us = s.us := rfl
@[simp] theorem setBank_dbg (t b : Nat) (x : Bank) : (s.setBank t b x).dbg = s.dbg := rfl
@[simp] theorem setBank_tiles (t b : Nat) (x : Bank) : (s.setBank t b x).tiles = s.tiles := rfl
@[simp] theorem setBank_overt (t b : Nat) (x : Bank) : (s.setBank t b x).overt = s.overt := rfl
@[simp] theorem setBank_ports (t b : Nat) (x : Bank) : (s.setBank t b x).ports = s.ports := rfl
@[simp] theorem setBank_fab (t b : Nat) (x : Bank) : (s.setBank t b x).fab = s.fab := rfl
@[simp] theorem setBank_dev (t b : Nat) (x : Bank) : (s.setBank t b x).dev = s.dev := rfl
@[simp] theorem setBank_hbm (t b : Nat) (x : Bank) : (s.setBank t b x).hbm = s.hbm := rfl
@[simp] theorem setBank_hbmBad (t b : Nat) (x : Bank) : (s.setBank t b x).hbmBad = s.hbmBad := rfl
@[simp] theorem setBank_mcs (t b : Nat) (x : Bank) : (s.setBank t b x).mcs = s.mcs := rfl
@[simp] theorem setBank_tt (t b : Nat) (x : Bank) : (s.setBank t b x).tt = s.tt := rfl
@[simp] theorem setBank_tio (t b : Nat) (x : Bank) : (s.setBank t b x).tio = s.tio := rfl
@[simp] theorem setBank_pwr (t b : Nat) (x : Bank) : (s.setBank t b x).pwr = s.pwr := rfl
@[simp] theorem setBank_tick (t b : Nat) (x : Bank) : (s.setBank t b x).tick = s.tick := rfl
@[simp] theorem setBank_ss (t b : Nat) (x : Bank) : (s.setBank t b x).ss = s.ss := rfl
@[simp] theorem setBank_load (t b : Nat) (x : Bank) : (s.setBank t b x).load = s.load := rfl
@[simp] theorem setBank_image (t b : Nat) (x : Bank) : (s.setBank t b x).image = s.image := rfl
@[simp] theorem setBank_store (t b : Nat) (x : Bank) : (s.setBank t b x).store = s.store := rfl
@[simp] theorem setBank_dawn (t b : Nat) (x : Bank) : (s.setBank t b x).dawn = s.dawn := rfl
@[simp] theorem setBank_fabId (t b : Nat) (x : Bank) : (s.setBank t b x).fabId = s.fabId := rfl
@[simp] theorem setBank_fuses (t b : Nat) (x : Bank) : (s.setBank t b x).fuses = s.fuses := rfl
@[simp] theorem setBank_fusesIn (t b : Nat) (x : Bank) : (s.setBank t b x).fusesIn = s.fusesIn := rfl
@[simp] theorem setBank_devIn (t b : Nat) (x : Bank) : (s.setBank t b x).devIn = s.devIn := rfl
@[simp] theorem setBank_pm (t b : Nat) (x : Bank) : (s.setBank t b x).pm = s.pm := rfl
@[simp] theorem setBank_pkg (t b : Nat) (x : Bank) : (s.setBank t b x).pkg = s.pkg := rfl

/-! ### setSpWord -/

@[simp] theorem setSpWord_pending (t b w : Nat) (m : BitVec 8) (v : BitVec 64) : (s.setSpWord t b w m v).pending = s.pending := rfl
@[simp] theorem setSpWord_free (t b w : Nat) (m : BitVec 8) (v : BitVec 64) : (s.setSpWord t b w m v).free = s.free := rfl
@[simp] theorem setSpWord_steps (t b w : Nat) (m : BitVec 8) (v : BitVec 64) : (s.setSpWord t b w m v).steps = s.steps := rfl
@[simp] theorem setSpWord_regs (t b w : Nat) (m : BitVec 8) (v : BitVec 64) : (s.setSpWord t b w m v).regs = s.regs := rfl
@[simp] theorem setSpWord_bus (t b w : Nat) (m : BitVec 8) (v : BitVec 64) : (s.setSpWord t b w m v).bus = s.bus := rfl
@[simp] theorem setSpWord_msix (t b w : Nat) (m : BitVec 8) (v : BitVec 64) : (s.setSpWord t b w m v).msix = s.msix := rfl
@[simp] theorem setSpWord_evts (t b w : Nat) (m : BitVec 8) (v : BitVec 64) : (s.setSpWord t b w m v).evts = s.evts := rfl
@[simp] theorem setSpWord_seq (t b w : Nat) (m : BitVec 8) (v : BitVec 64) : (s.setSpWord t b w m v).seq = s.seq := rfl
@[simp] theorem setSpWord_clus (t b w : Nat) (m : BitVec 8) (v : BitVec 64) : (s.setSpWord t b w m v).clus = s.clus := rfl
@[simp] theorem setSpWord_lanes (t b w : Nat) (m : BitVec 8) (v : BitVec 64) : (s.setSpWord t b w m v).lanes = s.lanes := rfl
@[simp] theorem setSpWord_banks (t b w : Nat) (m : BitVec 8) (v : BitVec 64) : (s.setSpWord t b w m v).banks = s.banks := rfl
@[simp] theorem setSpWord_net (t b w : Nat) (m : BitVec 8) (v : BitVec 64) : (s.setSpWord t b w m v).net = s.net := rfl
@[simp] theorem setSpWord_chanWait (t b w : Nat) (m : BitVec 8) (v : BitVec 64) : (s.setSpWord t b w m v).chanWait = s.chanWait := rfl
@[simp] theorem setSpWord_epq (t b w : Nat) (m : BitVec 8) (v : BitVec 64) : (s.setSpWord t b w m v).epq = s.epq := rfl
@[simp] theorem setSpWord_srv (t b w : Nat) (m : BitVec 8) (v : BitVec 64) : (s.setSpWord t b w m v).srv = s.srv := rfl
@[simp] theorem setSpWord_masters (t b w : Nat) (m : BitVec 8) (v : BitVec 64) : (s.setSpWord t b w m v).masters = s.masters := rfl
@[simp] theorem setSpWord_locks (t b w : Nat) (m : BitVec 8) (v : BitVec 64) : (s.setSpWord t b w m v).locks = s.locks := rfl
@[simp] theorem setSpWord_ledger (t b w : Nat) (m : BitVec 8) (v : BitVec 64) : (s.setSpWord t b w m v).ledger = s.ledger := rfl
@[simp] theorem setSpWord_us (t b w : Nat) (m : BitVec 8) (v : BitVec 64) : (s.setSpWord t b w m v).us = s.us := rfl
@[simp] theorem setSpWord_dbg (t b w : Nat) (m : BitVec 8) (v : BitVec 64) : (s.setSpWord t b w m v).dbg = s.dbg := rfl
@[simp] theorem setSpWord_tiles (t b w : Nat) (m : BitVec 8) (v : BitVec 64) : (s.setSpWord t b w m v).tiles = s.tiles := rfl
@[simp] theorem setSpWord_overt (t b w : Nat) (m : BitVec 8) (v : BitVec 64) : (s.setSpWord t b w m v).overt = s.overt := rfl
@[simp] theorem setSpWord_ports (t b w : Nat) (m : BitVec 8) (v : BitVec 64) : (s.setSpWord t b w m v).ports = s.ports := rfl
@[simp] theorem setSpWord_fab (t b w : Nat) (m : BitVec 8) (v : BitVec 64) : (s.setSpWord t b w m v).fab = s.fab := rfl
@[simp] theorem setSpWord_dev (t b w : Nat) (m : BitVec 8) (v : BitVec 64) : (s.setSpWord t b w m v).dev = s.dev := rfl
@[simp] theorem setSpWord_hbm (t b w : Nat) (m : BitVec 8) (v : BitVec 64) : (s.setSpWord t b w m v).hbm = s.hbm := rfl
@[simp] theorem setSpWord_hbmBad (t b w : Nat) (m : BitVec 8) (v : BitVec 64) : (s.setSpWord t b w m v).hbmBad = s.hbmBad := rfl
@[simp] theorem setSpWord_mcs (t b w : Nat) (m : BitVec 8) (v : BitVec 64) : (s.setSpWord t b w m v).mcs = s.mcs := rfl
@[simp] theorem setSpWord_tt (t b w : Nat) (m : BitVec 8) (v : BitVec 64) : (s.setSpWord t b w m v).tt = s.tt := rfl
@[simp] theorem setSpWord_tio (t b w : Nat) (m : BitVec 8) (v : BitVec 64) : (s.setSpWord t b w m v).tio = s.tio := rfl
@[simp] theorem setSpWord_pwr (t b w : Nat) (m : BitVec 8) (v : BitVec 64) : (s.setSpWord t b w m v).pwr = s.pwr := rfl
@[simp] theorem setSpWord_tick (t b w : Nat) (m : BitVec 8) (v : BitVec 64) : (s.setSpWord t b w m v).tick = s.tick := rfl
@[simp] theorem setSpWord_ss (t b w : Nat) (m : BitVec 8) (v : BitVec 64) : (s.setSpWord t b w m v).ss = s.ss := rfl
@[simp] theorem setSpWord_load (t b w : Nat) (m : BitVec 8) (v : BitVec 64) : (s.setSpWord t b w m v).load = s.load := rfl
@[simp] theorem setSpWord_image (t b w : Nat) (m : BitVec 8) (v : BitVec 64) : (s.setSpWord t b w m v).image = s.image := rfl
@[simp] theorem setSpWord_store (t b w : Nat) (m : BitVec 8) (v : BitVec 64) : (s.setSpWord t b w m v).store = s.store := rfl
@[simp] theorem setSpWord_dawn (t b w : Nat) (m : BitVec 8) (v : BitVec 64) : (s.setSpWord t b w m v).dawn = s.dawn := rfl
@[simp] theorem setSpWord_fabId (t b w : Nat) (m : BitVec 8) (v : BitVec 64) : (s.setSpWord t b w m v).fabId = s.fabId := rfl
@[simp] theorem setSpWord_fuses (t b w : Nat) (m : BitVec 8) (v : BitVec 64) : (s.setSpWord t b w m v).fuses = s.fuses := rfl
@[simp] theorem setSpWord_fusesIn (t b w : Nat) (m : BitVec 8) (v : BitVec 64) : (s.setSpWord t b w m v).fusesIn = s.fusesIn := rfl
@[simp] theorem setSpWord_devIn (t b w : Nat) (m : BitVec 8) (v : BitVec 64) : (s.setSpWord t b w m v).devIn = s.devIn := rfl
@[simp] theorem setSpWord_pm (t b w : Nat) (m : BitVec 8) (v : BitVec 64) : (s.setSpWord t b w m v).pm = s.pm := rfl
@[simp] theorem setSpWord_pkg (t b w : Nat) (m : BitVec 8) (v : BitVec 64) : (s.setSpWord t b w m v).pkg = s.pkg := rfl

/-! ### setMaster -/

@[simp] theorem setMaster_pending (n mid : Nat) (m : Master) : (s.setMaster n mid m).pending = s.pending := rfl
@[simp] theorem setMaster_free (n mid : Nat) (m : Master) : (s.setMaster n mid m).free = s.free := rfl
@[simp] theorem setMaster_steps (n mid : Nat) (m : Master) : (s.setMaster n mid m).steps = s.steps := rfl
@[simp] theorem setMaster_regs (n mid : Nat) (m : Master) : (s.setMaster n mid m).regs = s.regs := rfl
@[simp] theorem setMaster_bus (n mid : Nat) (m : Master) : (s.setMaster n mid m).bus = s.bus := rfl
@[simp] theorem setMaster_msix (n mid : Nat) (m : Master) : (s.setMaster n mid m).msix = s.msix := rfl
@[simp] theorem setMaster_evts (n mid : Nat) (m : Master) : (s.setMaster n mid m).evts = s.evts := rfl
@[simp] theorem setMaster_seq (n mid : Nat) (m : Master) : (s.setMaster n mid m).seq = s.seq := rfl
@[simp] theorem setMaster_clus (n mid : Nat) (m : Master) : (s.setMaster n mid m).clus = s.clus := rfl
@[simp] theorem setMaster_lanes (n mid : Nat) (m : Master) : (s.setMaster n mid m).lanes = s.lanes := rfl
@[simp] theorem setMaster_banks (n mid : Nat) (m : Master) : (s.setMaster n mid m).banks = s.banks := rfl
@[simp] theorem setMaster_spad (n mid : Nat) (m : Master) : (s.setMaster n mid m).spad = s.spad := rfl
@[simp] theorem setMaster_net (n mid : Nat) (m : Master) : (s.setMaster n mid m).net = s.net := rfl
@[simp] theorem setMaster_chanWait (n mid : Nat) (m : Master) : (s.setMaster n mid m).chanWait = s.chanWait := rfl
@[simp] theorem setMaster_epq (n mid : Nat) (m : Master) : (s.setMaster n mid m).epq = s.epq := rfl
@[simp] theorem setMaster_srv (n mid : Nat) (m : Master) : (s.setMaster n mid m).srv = s.srv := rfl
@[simp] theorem setMaster_locks (n mid : Nat) (m : Master) : (s.setMaster n mid m).locks = s.locks := rfl
@[simp] theorem setMaster_ledger (n mid : Nat) (m : Master) : (s.setMaster n mid m).ledger = s.ledger := rfl
@[simp] theorem setMaster_us (n mid : Nat) (m : Master) : (s.setMaster n mid m).us = s.us := rfl
@[simp] theorem setMaster_dbg (n mid : Nat) (m : Master) : (s.setMaster n mid m).dbg = s.dbg := rfl
@[simp] theorem setMaster_tiles (n mid : Nat) (m : Master) : (s.setMaster n mid m).tiles = s.tiles := rfl
@[simp] theorem setMaster_overt (n mid : Nat) (m : Master) : (s.setMaster n mid m).overt = s.overt := rfl
@[simp] theorem setMaster_ports (n mid : Nat) (m : Master) : (s.setMaster n mid m).ports = s.ports := rfl
@[simp] theorem setMaster_fab (n mid : Nat) (m : Master) : (s.setMaster n mid m).fab = s.fab := rfl
@[simp] theorem setMaster_dev (n mid : Nat) (m : Master) : (s.setMaster n mid m).dev = s.dev := rfl
@[simp] theorem setMaster_hbm (n mid : Nat) (m : Master) : (s.setMaster n mid m).hbm = s.hbm := rfl
@[simp] theorem setMaster_hbmBad (n mid : Nat) (m : Master) : (s.setMaster n mid m).hbmBad = s.hbmBad := rfl
@[simp] theorem setMaster_mcs (n mid : Nat) (m : Master) : (s.setMaster n mid m).mcs = s.mcs := rfl
@[simp] theorem setMaster_tt (n mid : Nat) (m : Master) : (s.setMaster n mid m).tt = s.tt := rfl
@[simp] theorem setMaster_tio (n mid : Nat) (m : Master) : (s.setMaster n mid m).tio = s.tio := rfl
@[simp] theorem setMaster_pwr (n mid : Nat) (m : Master) : (s.setMaster n mid m).pwr = s.pwr := rfl
@[simp] theorem setMaster_tick (n mid : Nat) (m : Master) : (s.setMaster n mid m).tick = s.tick := rfl
@[simp] theorem setMaster_ss (n mid : Nat) (m : Master) : (s.setMaster n mid m).ss = s.ss := rfl
@[simp] theorem setMaster_load (n mid : Nat) (m : Master) : (s.setMaster n mid m).load = s.load := rfl
@[simp] theorem setMaster_image (n mid : Nat) (m : Master) : (s.setMaster n mid m).image = s.image := rfl
@[simp] theorem setMaster_store (n mid : Nat) (m : Master) : (s.setMaster n mid m).store = s.store := rfl
@[simp] theorem setMaster_dawn (n mid : Nat) (m : Master) : (s.setMaster n mid m).dawn = s.dawn := rfl
@[simp] theorem setMaster_fabId (n mid : Nat) (m : Master) : (s.setMaster n mid m).fabId = s.fabId := rfl
@[simp] theorem setMaster_fuses (n mid : Nat) (m : Master) : (s.setMaster n mid m).fuses = s.fuses := rfl
@[simp] theorem setMaster_fusesIn (n mid : Nat) (m : Master) : (s.setMaster n mid m).fusesIn = s.fusesIn := rfl
@[simp] theorem setMaster_devIn (n mid : Nat) (m : Master) : (s.setMaster n mid m).devIn = s.devIn := rfl
@[simp] theorem setMaster_pm (n mid : Nat) (m : Master) : (s.setMaster n mid m).pm = s.pm := rfl
@[simp] theorem setMaster_pkg (n mid : Nat) (m : Master) : (s.setMaster n mid m).pkg = s.pkg := rfl

/-! ### setTile -/

@[simp] theorem setTile_pending (t : Nat) (x : Tile) : (s.setTile t x).pending = s.pending := rfl
@[simp] theorem setTile_free (t : Nat) (x : Tile) : (s.setTile t x).free = s.free := rfl
@[simp] theorem setTile_steps (t : Nat) (x : Tile) : (s.setTile t x).steps = s.steps := rfl
@[simp] theorem setTile_regs (t : Nat) (x : Tile) : (s.setTile t x).regs = s.regs := rfl
@[simp] theorem setTile_bus (t : Nat) (x : Tile) : (s.setTile t x).bus = s.bus := rfl
@[simp] theorem setTile_msix (t : Nat) (x : Tile) : (s.setTile t x).msix = s.msix := rfl
@[simp] theorem setTile_evts (t : Nat) (x : Tile) : (s.setTile t x).evts = s.evts := rfl
@[simp] theorem setTile_seq (t : Nat) (x : Tile) : (s.setTile t x).seq = s.seq := rfl
@[simp] theorem setTile_clus (t : Nat) (x : Tile) : (s.setTile t x).clus = s.clus := rfl
@[simp] theorem setTile_lanes (t : Nat) (x : Tile) : (s.setTile t x).lanes = s.lanes := rfl
@[simp] theorem setTile_banks (t : Nat) (x : Tile) : (s.setTile t x).banks = s.banks := rfl
@[simp] theorem setTile_spad (t : Nat) (x : Tile) : (s.setTile t x).spad = s.spad := rfl
@[simp] theorem setTile_net (t : Nat) (x : Tile) : (s.setTile t x).net = s.net := rfl
@[simp] theorem setTile_chanWait (t : Nat) (x : Tile) : (s.setTile t x).chanWait = s.chanWait := rfl
@[simp] theorem setTile_epq (t : Nat) (x : Tile) : (s.setTile t x).epq = s.epq := rfl
@[simp] theorem setTile_srv (t : Nat) (x : Tile) : (s.setTile t x).srv = s.srv := rfl
@[simp] theorem setTile_masters (t : Nat) (x : Tile) : (s.setTile t x).masters = s.masters := rfl
@[simp] theorem setTile_locks (t : Nat) (x : Tile) : (s.setTile t x).locks = s.locks := rfl
@[simp] theorem setTile_ledger (t : Nat) (x : Tile) : (s.setTile t x).ledger = s.ledger := rfl
@[simp] theorem setTile_us (t : Nat) (x : Tile) : (s.setTile t x).us = s.us := rfl
@[simp] theorem setTile_dbg (t : Nat) (x : Tile) : (s.setTile t x).dbg = s.dbg := rfl
@[simp] theorem setTile_overt (t : Nat) (x : Tile) : (s.setTile t x).overt = s.overt := rfl
@[simp] theorem setTile_ports (t : Nat) (x : Tile) : (s.setTile t x).ports = s.ports := rfl
@[simp] theorem setTile_fab (t : Nat) (x : Tile) : (s.setTile t x).fab = s.fab := rfl
@[simp] theorem setTile_dev (t : Nat) (x : Tile) : (s.setTile t x).dev = s.dev := rfl
@[simp] theorem setTile_hbm (t : Nat) (x : Tile) : (s.setTile t x).hbm = s.hbm := rfl
@[simp] theorem setTile_hbmBad (t : Nat) (x : Tile) : (s.setTile t x).hbmBad = s.hbmBad := rfl
@[simp] theorem setTile_mcs (t : Nat) (x : Tile) : (s.setTile t x).mcs = s.mcs := rfl
@[simp] theorem setTile_tt (t : Nat) (x : Tile) : (s.setTile t x).tt = s.tt := rfl
@[simp] theorem setTile_tio (t : Nat) (x : Tile) : (s.setTile t x).tio = s.tio := rfl
@[simp] theorem setTile_pwr (t : Nat) (x : Tile) : (s.setTile t x).pwr = s.pwr := rfl
@[simp] theorem setTile_tick (t : Nat) (x : Tile) : (s.setTile t x).tick = s.tick := rfl
@[simp] theorem setTile_ss (t : Nat) (x : Tile) : (s.setTile t x).ss = s.ss := rfl
@[simp] theorem setTile_load (t : Nat) (x : Tile) : (s.setTile t x).load = s.load := rfl
@[simp] theorem setTile_image (t : Nat) (x : Tile) : (s.setTile t x).image = s.image := rfl
@[simp] theorem setTile_store (t : Nat) (x : Tile) : (s.setTile t x).store = s.store := rfl
@[simp] theorem setTile_dawn (t : Nat) (x : Tile) : (s.setTile t x).dawn = s.dawn := rfl
@[simp] theorem setTile_fabId (t : Nat) (x : Tile) : (s.setTile t x).fabId = s.fabId := rfl
@[simp] theorem setTile_fuses (t : Nat) (x : Tile) : (s.setTile t x).fuses = s.fuses := rfl
@[simp] theorem setTile_fusesIn (t : Nat) (x : Tile) : (s.setTile t x).fusesIn = s.fusesIn := rfl
@[simp] theorem setTile_devIn (t : Nat) (x : Tile) : (s.setTile t x).devIn = s.devIn := rfl
@[simp] theorem setTile_pm (t : Nat) (x : Tile) : (s.setTile t x).pm = s.pm := rfl
@[simp] theorem setTile_pkg (t : Nat) (x : Tile) : (s.setTile t x).pkg = s.pkg := rfl

/-! ### setPort -/

@[simp] theorem setPort_pending (p : Nat) (x : Port) : (s.setPort p x).pending = s.pending := rfl
@[simp] theorem setPort_free (p : Nat) (x : Port) : (s.setPort p x).free = s.free := rfl
@[simp] theorem setPort_steps (p : Nat) (x : Port) : (s.setPort p x).steps = s.steps := rfl
@[simp] theorem setPort_regs (p : Nat) (x : Port) : (s.setPort p x).regs = s.regs := rfl
@[simp] theorem setPort_bus (p : Nat) (x : Port) : (s.setPort p x).bus = s.bus := rfl
@[simp] theorem setPort_msix (p : Nat) (x : Port) : (s.setPort p x).msix = s.msix := rfl
@[simp] theorem setPort_evts (p : Nat) (x : Port) : (s.setPort p x).evts = s.evts := rfl
@[simp] theorem setPort_seq (p : Nat) (x : Port) : (s.setPort p x).seq = s.seq := rfl
@[simp] theorem setPort_clus (p : Nat) (x : Port) : (s.setPort p x).clus = s.clus := rfl
@[simp] theorem setPort_lanes (p : Nat) (x : Port) : (s.setPort p x).lanes = s.lanes := rfl
@[simp] theorem setPort_banks (p : Nat) (x : Port) : (s.setPort p x).banks = s.banks := rfl
@[simp] theorem setPort_spad (p : Nat) (x : Port) : (s.setPort p x).spad = s.spad := rfl
@[simp] theorem setPort_net (p : Nat) (x : Port) : (s.setPort p x).net = s.net := rfl
@[simp] theorem setPort_chanWait (p : Nat) (x : Port) : (s.setPort p x).chanWait = s.chanWait := rfl
@[simp] theorem setPort_epq (p : Nat) (x : Port) : (s.setPort p x).epq = s.epq := rfl
@[simp] theorem setPort_srv (p : Nat) (x : Port) : (s.setPort p x).srv = s.srv := rfl
@[simp] theorem setPort_masters (p : Nat) (x : Port) : (s.setPort p x).masters = s.masters := rfl
@[simp] theorem setPort_locks (p : Nat) (x : Port) : (s.setPort p x).locks = s.locks := rfl
@[simp] theorem setPort_ledger (p : Nat) (x : Port) : (s.setPort p x).ledger = s.ledger := rfl
@[simp] theorem setPort_us (p : Nat) (x : Port) : (s.setPort p x).us = s.us := rfl
@[simp] theorem setPort_dbg (p : Nat) (x : Port) : (s.setPort p x).dbg = s.dbg := rfl
@[simp] theorem setPort_tiles (p : Nat) (x : Port) : (s.setPort p x).tiles = s.tiles := rfl
@[simp] theorem setPort_overt (p : Nat) (x : Port) : (s.setPort p x).overt = s.overt := rfl
@[simp] theorem setPort_fab (p : Nat) (x : Port) : (s.setPort p x).fab = s.fab := rfl
@[simp] theorem setPort_dev (p : Nat) (x : Port) : (s.setPort p x).dev = s.dev := rfl
@[simp] theorem setPort_hbm (p : Nat) (x : Port) : (s.setPort p x).hbm = s.hbm := rfl
@[simp] theorem setPort_hbmBad (p : Nat) (x : Port) : (s.setPort p x).hbmBad = s.hbmBad := rfl
@[simp] theorem setPort_mcs (p : Nat) (x : Port) : (s.setPort p x).mcs = s.mcs := rfl
@[simp] theorem setPort_tt (p : Nat) (x : Port) : (s.setPort p x).tt = s.tt := rfl
@[simp] theorem setPort_tio (p : Nat) (x : Port) : (s.setPort p x).tio = s.tio := rfl
@[simp] theorem setPort_pwr (p : Nat) (x : Port) : (s.setPort p x).pwr = s.pwr := rfl
@[simp] theorem setPort_tick (p : Nat) (x : Port) : (s.setPort p x).tick = s.tick := rfl
@[simp] theorem setPort_ss (p : Nat) (x : Port) : (s.setPort p x).ss = s.ss := rfl
@[simp] theorem setPort_load (p : Nat) (x : Port) : (s.setPort p x).load = s.load := rfl
@[simp] theorem setPort_image (p : Nat) (x : Port) : (s.setPort p x).image = s.image := rfl
@[simp] theorem setPort_store (p : Nat) (x : Port) : (s.setPort p x).store = s.store := rfl
@[simp] theorem setPort_dawn (p : Nat) (x : Port) : (s.setPort p x).dawn = s.dawn := rfl
@[simp] theorem setPort_fabId (p : Nat) (x : Port) : (s.setPort p x).fabId = s.fabId := rfl
@[simp] theorem setPort_fuses (p : Nat) (x : Port) : (s.setPort p x).fuses = s.fuses := rfl
@[simp] theorem setPort_fusesIn (p : Nat) (x : Port) : (s.setPort p x).fusesIn = s.fusesIn := rfl
@[simp] theorem setPort_devIn (p : Nat) (x : Port) : (s.setPort p x).devIn = s.devIn := rfl
@[simp] theorem setPort_pm (p : Nat) (x : Port) : (s.setPort p x).pm = s.pm := rfl
@[simp] theorem setPort_pkg (p : Nat) (x : Port) : (s.setPort p x).pkg = s.pkg := rfl

/-! ### setMc -/

@[simp] theorem setMc_pending (m : Nat) (x : Mc) : (s.setMc m x).pending = s.pending := rfl
@[simp] theorem setMc_free (m : Nat) (x : Mc) : (s.setMc m x).free = s.free := rfl
@[simp] theorem setMc_steps (m : Nat) (x : Mc) : (s.setMc m x).steps = s.steps := rfl
@[simp] theorem setMc_regs (m : Nat) (x : Mc) : (s.setMc m x).regs = s.regs := rfl
@[simp] theorem setMc_bus (m : Nat) (x : Mc) : (s.setMc m x).bus = s.bus := rfl
@[simp] theorem setMc_msix (m : Nat) (x : Mc) : (s.setMc m x).msix = s.msix := rfl
@[simp] theorem setMc_evts (m : Nat) (x : Mc) : (s.setMc m x).evts = s.evts := rfl
@[simp] theorem setMc_seq (m : Nat) (x : Mc) : (s.setMc m x).seq = s.seq := rfl
@[simp] theorem setMc_clus (m : Nat) (x : Mc) : (s.setMc m x).clus = s.clus := rfl
@[simp] theorem setMc_lanes (m : Nat) (x : Mc) : (s.setMc m x).lanes = s.lanes := rfl
@[simp] theorem setMc_banks (m : Nat) (x : Mc) : (s.setMc m x).banks = s.banks := rfl
@[simp] theorem setMc_spad (m : Nat) (x : Mc) : (s.setMc m x).spad = s.spad := rfl
@[simp] theorem setMc_net (m : Nat) (x : Mc) : (s.setMc m x).net = s.net := rfl
@[simp] theorem setMc_chanWait (m : Nat) (x : Mc) : (s.setMc m x).chanWait = s.chanWait := rfl
@[simp] theorem setMc_epq (m : Nat) (x : Mc) : (s.setMc m x).epq = s.epq := rfl
@[simp] theorem setMc_srv (m : Nat) (x : Mc) : (s.setMc m x).srv = s.srv := rfl
@[simp] theorem setMc_masters (m : Nat) (x : Mc) : (s.setMc m x).masters = s.masters := rfl
@[simp] theorem setMc_locks (m : Nat) (x : Mc) : (s.setMc m x).locks = s.locks := rfl
@[simp] theorem setMc_ledger (m : Nat) (x : Mc) : (s.setMc m x).ledger = s.ledger := rfl
@[simp] theorem setMc_us (m : Nat) (x : Mc) : (s.setMc m x).us = s.us := rfl
@[simp] theorem setMc_dbg (m : Nat) (x : Mc) : (s.setMc m x).dbg = s.dbg := rfl
@[simp] theorem setMc_tiles (m : Nat) (x : Mc) : (s.setMc m x).tiles = s.tiles := rfl
@[simp] theorem setMc_overt (m : Nat) (x : Mc) : (s.setMc m x).overt = s.overt := rfl
@[simp] theorem setMc_ports (m : Nat) (x : Mc) : (s.setMc m x).ports = s.ports := rfl
@[simp] theorem setMc_fab (m : Nat) (x : Mc) : (s.setMc m x).fab = s.fab := rfl
@[simp] theorem setMc_dev (m : Nat) (x : Mc) : (s.setMc m x).dev = s.dev := rfl
@[simp] theorem setMc_hbm (m : Nat) (x : Mc) : (s.setMc m x).hbm = s.hbm := rfl
@[simp] theorem setMc_hbmBad (m : Nat) (x : Mc) : (s.setMc m x).hbmBad = s.hbmBad := rfl
@[simp] theorem setMc_tt (m : Nat) (x : Mc) : (s.setMc m x).tt = s.tt := rfl
@[simp] theorem setMc_tio (m : Nat) (x : Mc) : (s.setMc m x).tio = s.tio := rfl
@[simp] theorem setMc_pwr (m : Nat) (x : Mc) : (s.setMc m x).pwr = s.pwr := rfl
@[simp] theorem setMc_tick (m : Nat) (x : Mc) : (s.setMc m x).tick = s.tick := rfl
@[simp] theorem setMc_ss (m : Nat) (x : Mc) : (s.setMc m x).ss = s.ss := rfl
@[simp] theorem setMc_load (m : Nat) (x : Mc) : (s.setMc m x).load = s.load := rfl
@[simp] theorem setMc_image (m : Nat) (x : Mc) : (s.setMc m x).image = s.image := rfl
@[simp] theorem setMc_store (m : Nat) (x : Mc) : (s.setMc m x).store = s.store := rfl
@[simp] theorem setMc_dawn (m : Nat) (x : Mc) : (s.setMc m x).dawn = s.dawn := rfl
@[simp] theorem setMc_fabId (m : Nat) (x : Mc) : (s.setMc m x).fabId = s.fabId := rfl
@[simp] theorem setMc_fuses (m : Nat) (x : Mc) : (s.setMc m x).fuses = s.fuses := rfl
@[simp] theorem setMc_fusesIn (m : Nat) (x : Mc) : (s.setMc m x).fusesIn = s.fusesIn := rfl
@[simp] theorem setMc_devIn (m : Nat) (x : Mc) : (s.setMc m x).devIn = s.devIn := rfl
@[simp] theorem setMc_pm (m : Nat) (x : Mc) : (s.setMc m x).pm = s.pm := rfl
@[simp] theorem setMc_pkg (m : Nat) (x : Mc) : (s.setMc m x).pkg = s.pkg := rfl

/-! ### setPw -/

@[simp] theorem setPw_pending (k : Nat) (x : Pwr) : (s.setPw k x).pending = s.pending := rfl
@[simp] theorem setPw_free (k : Nat) (x : Pwr) : (s.setPw k x).free = s.free := rfl
@[simp] theorem setPw_steps (k : Nat) (x : Pwr) : (s.setPw k x).steps = s.steps := rfl
@[simp] theorem setPw_regs (k : Nat) (x : Pwr) : (s.setPw k x).regs = s.regs := rfl
@[simp] theorem setPw_bus (k : Nat) (x : Pwr) : (s.setPw k x).bus = s.bus := rfl
@[simp] theorem setPw_msix (k : Nat) (x : Pwr) : (s.setPw k x).msix = s.msix := rfl
@[simp] theorem setPw_evts (k : Nat) (x : Pwr) : (s.setPw k x).evts = s.evts := rfl
@[simp] theorem setPw_seq (k : Nat) (x : Pwr) : (s.setPw k x).seq = s.seq := rfl
@[simp] theorem setPw_clus (k : Nat) (x : Pwr) : (s.setPw k x).clus = s.clus := rfl
@[simp] theorem setPw_lanes (k : Nat) (x : Pwr) : (s.setPw k x).lanes = s.lanes := rfl
@[simp] theorem setPw_banks (k : Nat) (x : Pwr) : (s.setPw k x).banks = s.banks := rfl
@[simp] theorem setPw_spad (k : Nat) (x : Pwr) : (s.setPw k x).spad = s.spad := rfl
@[simp] theorem setPw_net (k : Nat) (x : Pwr) : (s.setPw k x).net = s.net := rfl
@[simp] theorem setPw_chanWait (k : Nat) (x : Pwr) : (s.setPw k x).chanWait = s.chanWait := rfl
@[simp] theorem setPw_epq (k : Nat) (x : Pwr) : (s.setPw k x).epq = s.epq := rfl
@[simp] theorem setPw_srv (k : Nat) (x : Pwr) : (s.setPw k x).srv = s.srv := rfl
@[simp] theorem setPw_masters (k : Nat) (x : Pwr) : (s.setPw k x).masters = s.masters := rfl
@[simp] theorem setPw_locks (k : Nat) (x : Pwr) : (s.setPw k x).locks = s.locks := rfl
@[simp] theorem setPw_ledger (k : Nat) (x : Pwr) : (s.setPw k x).ledger = s.ledger := rfl
@[simp] theorem setPw_us (k : Nat) (x : Pwr) : (s.setPw k x).us = s.us := rfl
@[simp] theorem setPw_dbg (k : Nat) (x : Pwr) : (s.setPw k x).dbg = s.dbg := rfl
@[simp] theorem setPw_tiles (k : Nat) (x : Pwr) : (s.setPw k x).tiles = s.tiles := rfl
@[simp] theorem setPw_overt (k : Nat) (x : Pwr) : (s.setPw k x).overt = s.overt := rfl
@[simp] theorem setPw_ports (k : Nat) (x : Pwr) : (s.setPw k x).ports = s.ports := rfl
@[simp] theorem setPw_fab (k : Nat) (x : Pwr) : (s.setPw k x).fab = s.fab := rfl
@[simp] theorem setPw_dev (k : Nat) (x : Pwr) : (s.setPw k x).dev = s.dev := rfl
@[simp] theorem setPw_hbm (k : Nat) (x : Pwr) : (s.setPw k x).hbm = s.hbm := rfl
@[simp] theorem setPw_hbmBad (k : Nat) (x : Pwr) : (s.setPw k x).hbmBad = s.hbmBad := rfl
@[simp] theorem setPw_mcs (k : Nat) (x : Pwr) : (s.setPw k x).mcs = s.mcs := rfl
@[simp] theorem setPw_tt (k : Nat) (x : Pwr) : (s.setPw k x).tt = s.tt := rfl
@[simp] theorem setPw_tio (k : Nat) (x : Pwr) : (s.setPw k x).tio = s.tio := rfl
@[simp] theorem setPw_tick (k : Nat) (x : Pwr) : (s.setPw k x).tick = s.tick := rfl
@[simp] theorem setPw_ss (k : Nat) (x : Pwr) : (s.setPw k x).ss = s.ss := rfl
@[simp] theorem setPw_load (k : Nat) (x : Pwr) : (s.setPw k x).load = s.load := rfl
@[simp] theorem setPw_image (k : Nat) (x : Pwr) : (s.setPw k x).image = s.image := rfl
@[simp] theorem setPw_store (k : Nat) (x : Pwr) : (s.setPw k x).store = s.store := rfl
@[simp] theorem setPw_dawn (k : Nat) (x : Pwr) : (s.setPw k x).dawn = s.dawn := rfl
@[simp] theorem setPw_fabId (k : Nat) (x : Pwr) : (s.setPw k x).fabId = s.fabId := rfl
@[simp] theorem setPw_fuses (k : Nat) (x : Pwr) : (s.setPw k x).fuses = s.fuses := rfl
@[simp] theorem setPw_fusesIn (k : Nat) (x : Pwr) : (s.setPw k x).fusesIn = s.fusesIn := rfl
@[simp] theorem setPw_devIn (k : Nat) (x : Pwr) : (s.setPw k x).devIn = s.devIn := rfl
@[simp] theorem setPw_pm (k : Nat) (x : Pwr) : (s.setPw k x).pm = s.pm := rfl
@[simp] theorem setPw_pkg (k : Nat) (x : Pwr) : (s.setPw k x).pkg = s.pkg := rfl

/-! ### setLock -/

@[simp] theorem setLock_pending (n : Nat) (l : Lock) : (s.setLock n l).pending = s.pending := rfl
@[simp] theorem setLock_free (n : Nat) (l : Lock) : (s.setLock n l).free = s.free := rfl
@[simp] theorem setLock_steps (n : Nat) (l : Lock) : (s.setLock n l).steps = s.steps := rfl
@[simp] theorem setLock_regs (n : Nat) (l : Lock) : (s.setLock n l).regs = s.regs := rfl
@[simp] theorem setLock_bus (n : Nat) (l : Lock) : (s.setLock n l).bus = s.bus := rfl
@[simp] theorem setLock_msix (n : Nat) (l : Lock) : (s.setLock n l).msix = s.msix := rfl
@[simp] theorem setLock_evts (n : Nat) (l : Lock) : (s.setLock n l).evts = s.evts := rfl
@[simp] theorem setLock_seq (n : Nat) (l : Lock) : (s.setLock n l).seq = s.seq := rfl
@[simp] theorem setLock_clus (n : Nat) (l : Lock) : (s.setLock n l).clus = s.clus := rfl
@[simp] theorem setLock_lanes (n : Nat) (l : Lock) : (s.setLock n l).lanes = s.lanes := rfl
@[simp] theorem setLock_banks (n : Nat) (l : Lock) : (s.setLock n l).banks = s.banks := rfl
@[simp] theorem setLock_spad (n : Nat) (l : Lock) : (s.setLock n l).spad = s.spad := rfl
@[simp] theorem setLock_net (n : Nat) (l : Lock) : (s.setLock n l).net = s.net := rfl
@[simp] theorem setLock_chanWait (n : Nat) (l : Lock) : (s.setLock n l).chanWait = s.chanWait := rfl
@[simp] theorem setLock_epq (n : Nat) (l : Lock) : (s.setLock n l).epq = s.epq := rfl
@[simp] theorem setLock_srv (n : Nat) (l : Lock) : (s.setLock n l).srv = s.srv := rfl
@[simp] theorem setLock_masters (n : Nat) (l : Lock) : (s.setLock n l).masters = s.masters := rfl
@[simp] theorem setLock_ledger (n : Nat) (l : Lock) : (s.setLock n l).ledger = s.ledger := rfl
@[simp] theorem setLock_us (n : Nat) (l : Lock) : (s.setLock n l).us = s.us := rfl
@[simp] theorem setLock_dbg (n : Nat) (l : Lock) : (s.setLock n l).dbg = s.dbg := rfl
@[simp] theorem setLock_tiles (n : Nat) (l : Lock) : (s.setLock n l).tiles = s.tiles := rfl
@[simp] theorem setLock_overt (n : Nat) (l : Lock) : (s.setLock n l).overt = s.overt := rfl
@[simp] theorem setLock_ports (n : Nat) (l : Lock) : (s.setLock n l).ports = s.ports := rfl
@[simp] theorem setLock_fab (n : Nat) (l : Lock) : (s.setLock n l).fab = s.fab := rfl
@[simp] theorem setLock_dev (n : Nat) (l : Lock) : (s.setLock n l).dev = s.dev := rfl
@[simp] theorem setLock_hbm (n : Nat) (l : Lock) : (s.setLock n l).hbm = s.hbm := rfl
@[simp] theorem setLock_hbmBad (n : Nat) (l : Lock) : (s.setLock n l).hbmBad = s.hbmBad := rfl
@[simp] theorem setLock_mcs (n : Nat) (l : Lock) : (s.setLock n l).mcs = s.mcs := rfl
@[simp] theorem setLock_tt (n : Nat) (l : Lock) : (s.setLock n l).tt = s.tt := rfl
@[simp] theorem setLock_tio (n : Nat) (l : Lock) : (s.setLock n l).tio = s.tio := rfl
@[simp] theorem setLock_pwr (n : Nat) (l : Lock) : (s.setLock n l).pwr = s.pwr := rfl
@[simp] theorem setLock_tick (n : Nat) (l : Lock) : (s.setLock n l).tick = s.tick := rfl
@[simp] theorem setLock_ss (n : Nat) (l : Lock) : (s.setLock n l).ss = s.ss := rfl
@[simp] theorem setLock_load (n : Nat) (l : Lock) : (s.setLock n l).load = s.load := rfl
@[simp] theorem setLock_image (n : Nat) (l : Lock) : (s.setLock n l).image = s.image := rfl
@[simp] theorem setLock_store (n : Nat) (l : Lock) : (s.setLock n l).store = s.store := rfl
@[simp] theorem setLock_dawn (n : Nat) (l : Lock) : (s.setLock n l).dawn = s.dawn := rfl
@[simp] theorem setLock_fabId (n : Nat) (l : Lock) : (s.setLock n l).fabId = s.fabId := rfl
@[simp] theorem setLock_fuses (n : Nat) (l : Lock) : (s.setLock n l).fuses = s.fuses := rfl
@[simp] theorem setLock_fusesIn (n : Nat) (l : Lock) : (s.setLock n l).fusesIn = s.fusesIn := rfl
@[simp] theorem setLock_devIn (n : Nat) (l : Lock) : (s.setLock n l).devIn = s.devIn := rfl
@[simp] theorem setLock_pm (n : Nat) (l : Lock) : (s.setLock n l).pm = s.pm := rfl
@[simp] theorem setLock_pkg (n : Nat) (l : Lock) : (s.setLock n l).pkg = s.pkg := rfl

/-! ### setQueueAt -/

@[simp] theorem setQueueAt_pending (n : Nat) (l : List Packet) : (s.setQueueAt n l).pending = s.pending := rfl
@[simp] theorem setQueueAt_free (n : Nat) (l : List Packet) : (s.setQueueAt n l).free = s.free := rfl
@[simp] theorem setQueueAt_steps (n : Nat) (l : List Packet) : (s.setQueueAt n l).steps = s.steps := rfl
@[simp] theorem setQueueAt_regs (n : Nat) (l : List Packet) : (s.setQueueAt n l).regs = s.regs := rfl
@[simp] theorem setQueueAt_bus (n : Nat) (l : List Packet) : (s.setQueueAt n l).bus = s.bus := rfl
@[simp] theorem setQueueAt_msix (n : Nat) (l : List Packet) : (s.setQueueAt n l).msix = s.msix := rfl
@[simp] theorem setQueueAt_evts (n : Nat) (l : List Packet) : (s.setQueueAt n l).evts = s.evts := rfl
@[simp] theorem setQueueAt_seq (n : Nat) (l : List Packet) : (s.setQueueAt n l).seq = s.seq := rfl
@[simp] theorem setQueueAt_clus (n : Nat) (l : List Packet) : (s.setQueueAt n l).clus = s.clus := rfl
@[simp] theorem setQueueAt_lanes (n : Nat) (l : List Packet) : (s.setQueueAt n l).lanes = s.lanes := rfl
@[simp] theorem setQueueAt_banks (n : Nat) (l : List Packet) : (s.setQueueAt n l).banks = s.banks := rfl
@[simp] theorem setQueueAt_spad (n : Nat) (l : List Packet) : (s.setQueueAt n l).spad = s.spad := rfl
@[simp] theorem setQueueAt_net (n : Nat) (l : List Packet) : (s.setQueueAt n l).net = s.net := rfl
@[simp] theorem setQueueAt_chanWait (n : Nat) (l : List Packet) : (s.setQueueAt n l).chanWait = s.chanWait := rfl
@[simp] theorem setQueueAt_srv (n : Nat) (l : List Packet) : (s.setQueueAt n l).srv = s.srv := rfl
@[simp] theorem setQueueAt_masters (n : Nat) (l : List Packet) : (s.setQueueAt n l).masters = s.masters := rfl
@[simp] theorem setQueueAt_locks (n : Nat) (l : List Packet) : (s.setQueueAt n l).locks = s.locks := rfl
@[simp] theorem setQueueAt_ledger (n : Nat) (l : List Packet) : (s.setQueueAt n l).ledger = s.ledger := rfl
@[simp] theorem setQueueAt_us (n : Nat) (l : List Packet) : (s.setQueueAt n l).us = s.us := rfl
@[simp] theorem setQueueAt_dbg (n : Nat) (l : List Packet) : (s.setQueueAt n l).dbg = s.dbg := rfl
@[simp] theorem setQueueAt_tiles (n : Nat) (l : List Packet) : (s.setQueueAt n l).tiles = s.tiles := rfl
@[simp] theorem setQueueAt_overt (n : Nat) (l : List Packet) : (s.setQueueAt n l).overt = s.overt := rfl
@[simp] theorem setQueueAt_ports (n : Nat) (l : List Packet) : (s.setQueueAt n l).ports = s.ports := rfl
@[simp] theorem setQueueAt_fab (n : Nat) (l : List Packet) : (s.setQueueAt n l).fab = s.fab := rfl
@[simp] theorem setQueueAt_dev (n : Nat) (l : List Packet) : (s.setQueueAt n l).dev = s.dev := rfl
@[simp] theorem setQueueAt_hbm (n : Nat) (l : List Packet) : (s.setQueueAt n l).hbm = s.hbm := rfl
@[simp] theorem setQueueAt_hbmBad (n : Nat) (l : List Packet) : (s.setQueueAt n l).hbmBad = s.hbmBad := rfl
@[simp] theorem setQueueAt_mcs (n : Nat) (l : List Packet) : (s.setQueueAt n l).mcs = s.mcs := rfl
@[simp] theorem setQueueAt_tt (n : Nat) (l : List Packet) : (s.setQueueAt n l).tt = s.tt := rfl
@[simp] theorem setQueueAt_tio (n : Nat) (l : List Packet) : (s.setQueueAt n l).tio = s.tio := rfl
@[simp] theorem setQueueAt_pwr (n : Nat) (l : List Packet) : (s.setQueueAt n l).pwr = s.pwr := rfl
@[simp] theorem setQueueAt_tick (n : Nat) (l : List Packet) : (s.setQueueAt n l).tick = s.tick := rfl
@[simp] theorem setQueueAt_ss (n : Nat) (l : List Packet) : (s.setQueueAt n l).ss = s.ss := rfl
@[simp] theorem setQueueAt_load (n : Nat) (l : List Packet) : (s.setQueueAt n l).load = s.load := rfl
@[simp] theorem setQueueAt_image (n : Nat) (l : List Packet) : (s.setQueueAt n l).image = s.image := rfl
@[simp] theorem setQueueAt_store (n : Nat) (l : List Packet) : (s.setQueueAt n l).store = s.store := rfl
@[simp] theorem setQueueAt_dawn (n : Nat) (l : List Packet) : (s.setQueueAt n l).dawn = s.dawn := rfl
@[simp] theorem setQueueAt_fabId (n : Nat) (l : List Packet) : (s.setQueueAt n l).fabId = s.fabId := rfl
@[simp] theorem setQueueAt_fuses (n : Nat) (l : List Packet) : (s.setQueueAt n l).fuses = s.fuses := rfl
@[simp] theorem setQueueAt_fusesIn (n : Nat) (l : List Packet) : (s.setQueueAt n l).fusesIn = s.fusesIn := rfl
@[simp] theorem setQueueAt_devIn (n : Nat) (l : List Packet) : (s.setQueueAt n l).devIn = s.devIn := rfl
@[simp] theorem setQueueAt_pm (n : Nat) (l : List Packet) : (s.setQueueAt n l).pm = s.pm := rfl
@[simp] theorem setQueueAt_pkg (n : Nat) (l : List Packet) : (s.setQueueAt n l).pkg = s.pkg := rfl

/-! ### setSrvAt -/

@[simp] theorem setSrvAt_pending (n : Nat) (l : List Packet) : (s.setSrvAt n l).pending = s.pending := rfl
@[simp] theorem setSrvAt_free (n : Nat) (l : List Packet) : (s.setSrvAt n l).free = s.free := rfl
@[simp] theorem setSrvAt_steps (n : Nat) (l : List Packet) : (s.setSrvAt n l).steps = s.steps := rfl
@[simp] theorem setSrvAt_regs (n : Nat) (l : List Packet) : (s.setSrvAt n l).regs = s.regs := rfl
@[simp] theorem setSrvAt_bus (n : Nat) (l : List Packet) : (s.setSrvAt n l).bus = s.bus := rfl
@[simp] theorem setSrvAt_msix (n : Nat) (l : List Packet) : (s.setSrvAt n l).msix = s.msix := rfl
@[simp] theorem setSrvAt_evts (n : Nat) (l : List Packet) : (s.setSrvAt n l).evts = s.evts := rfl
@[simp] theorem setSrvAt_seq (n : Nat) (l : List Packet) : (s.setSrvAt n l).seq = s.seq := rfl
@[simp] theorem setSrvAt_clus (n : Nat) (l : List Packet) : (s.setSrvAt n l).clus = s.clus := rfl
@[simp] theorem setSrvAt_lanes (n : Nat) (l : List Packet) : (s.setSrvAt n l).lanes = s.lanes := rfl
@[simp] theorem setSrvAt_banks (n : Nat) (l : List Packet) : (s.setSrvAt n l).banks = s.banks := rfl
@[simp] theorem setSrvAt_spad (n : Nat) (l : List Packet) : (s.setSrvAt n l).spad = s.spad := rfl
@[simp] theorem setSrvAt_net (n : Nat) (l : List Packet) : (s.setSrvAt n l).net = s.net := rfl
@[simp] theorem setSrvAt_chanWait (n : Nat) (l : List Packet) : (s.setSrvAt n l).chanWait = s.chanWait := rfl
@[simp] theorem setSrvAt_epq (n : Nat) (l : List Packet) : (s.setSrvAt n l).epq = s.epq := rfl
@[simp] theorem setSrvAt_masters (n : Nat) (l : List Packet) : (s.setSrvAt n l).masters = s.masters := rfl
@[simp] theorem setSrvAt_locks (n : Nat) (l : List Packet) : (s.setSrvAt n l).locks = s.locks := rfl
@[simp] theorem setSrvAt_ledger (n : Nat) (l : List Packet) : (s.setSrvAt n l).ledger = s.ledger := rfl
@[simp] theorem setSrvAt_us (n : Nat) (l : List Packet) : (s.setSrvAt n l).us = s.us := rfl
@[simp] theorem setSrvAt_dbg (n : Nat) (l : List Packet) : (s.setSrvAt n l).dbg = s.dbg := rfl
@[simp] theorem setSrvAt_tiles (n : Nat) (l : List Packet) : (s.setSrvAt n l).tiles = s.tiles := rfl
@[simp] theorem setSrvAt_overt (n : Nat) (l : List Packet) : (s.setSrvAt n l).overt = s.overt := rfl
@[simp] theorem setSrvAt_ports (n : Nat) (l : List Packet) : (s.setSrvAt n l).ports = s.ports := rfl
@[simp] theorem setSrvAt_fab (n : Nat) (l : List Packet) : (s.setSrvAt n l).fab = s.fab := rfl
@[simp] theorem setSrvAt_dev (n : Nat) (l : List Packet) : (s.setSrvAt n l).dev = s.dev := rfl
@[simp] theorem setSrvAt_hbm (n : Nat) (l : List Packet) : (s.setSrvAt n l).hbm = s.hbm := rfl
@[simp] theorem setSrvAt_hbmBad (n : Nat) (l : List Packet) : (s.setSrvAt n l).hbmBad = s.hbmBad := rfl
@[simp] theorem setSrvAt_mcs (n : Nat) (l : List Packet) : (s.setSrvAt n l).mcs = s.mcs := rfl
@[simp] theorem setSrvAt_tt (n : Nat) (l : List Packet) : (s.setSrvAt n l).tt = s.tt := rfl
@[simp] theorem setSrvAt_tio (n : Nat) (l : List Packet) : (s.setSrvAt n l).tio = s.tio := rfl
@[simp] theorem setSrvAt_pwr (n : Nat) (l : List Packet) : (s.setSrvAt n l).pwr = s.pwr := rfl
@[simp] theorem setSrvAt_tick (n : Nat) (l : List Packet) : (s.setSrvAt n l).tick = s.tick := rfl
@[simp] theorem setSrvAt_ss (n : Nat) (l : List Packet) : (s.setSrvAt n l).ss = s.ss := rfl
@[simp] theorem setSrvAt_load (n : Nat) (l : List Packet) : (s.setSrvAt n l).load = s.load := rfl
@[simp] theorem setSrvAt_image (n : Nat) (l : List Packet) : (s.setSrvAt n l).image = s.image := rfl
@[simp] theorem setSrvAt_store (n : Nat) (l : List Packet) : (s.setSrvAt n l).store = s.store := rfl
@[simp] theorem setSrvAt_dawn (n : Nat) (l : List Packet) : (s.setSrvAt n l).dawn = s.dawn := rfl
@[simp] theorem setSrvAt_fabId (n : Nat) (l : List Packet) : (s.setSrvAt n l).fabId = s.fabId := rfl
@[simp] theorem setSrvAt_fuses (n : Nat) (l : List Packet) : (s.setSrvAt n l).fuses = s.fuses := rfl
@[simp] theorem setSrvAt_fusesIn (n : Nat) (l : List Packet) : (s.setSrvAt n l).fusesIn = s.fusesIn := rfl
@[simp] theorem setSrvAt_devIn (n : Nat) (l : List Packet) : (s.setSrvAt n l).devIn = s.devIn := rfl
@[simp] theorem setSrvAt_pm (n : Nat) (l : List Packet) : (s.setSrvAt n l).pm = s.pm := rfl
@[simp] theorem setSrvAt_pkg (n : Nat) (l : List Packet) : (s.setSrvAt n l).pkg = s.pkg := rfl

/-! ### respond -/

@[simp] theorem respond_pending (n : Nat) (pk : Packet) (c : Nat) (d : List (BitVec 256)) : (s.respond n pk c d).pending = s.pending := rfl
@[simp] theorem respond_free (n : Nat) (pk : Packet) (c : Nat) (d : List (BitVec 256)) : (s.respond n pk c d).free = s.free := rfl
@[simp] theorem respond_steps (n : Nat) (pk : Packet) (c : Nat) (d : List (BitVec 256)) : (s.respond n pk c d).steps = s.steps := rfl
@[simp] theorem respond_regs (n : Nat) (pk : Packet) (c : Nat) (d : List (BitVec 256)) : (s.respond n pk c d).regs = s.regs := rfl
@[simp] theorem respond_bus (n : Nat) (pk : Packet) (c : Nat) (d : List (BitVec 256)) : (s.respond n pk c d).bus = s.bus := rfl
@[simp] theorem respond_msix (n : Nat) (pk : Packet) (c : Nat) (d : List (BitVec 256)) : (s.respond n pk c d).msix = s.msix := rfl
@[simp] theorem respond_evts (n : Nat) (pk : Packet) (c : Nat) (d : List (BitVec 256)) : (s.respond n pk c d).evts = s.evts := rfl
@[simp] theorem respond_seq (n : Nat) (pk : Packet) (c : Nat) (d : List (BitVec 256)) : (s.respond n pk c d).seq = s.seq := rfl
@[simp] theorem respond_clus (n : Nat) (pk : Packet) (c : Nat) (d : List (BitVec 256)) : (s.respond n pk c d).clus = s.clus := rfl
@[simp] theorem respond_lanes (n : Nat) (pk : Packet) (c : Nat) (d : List (BitVec 256)) : (s.respond n pk c d).lanes = s.lanes := rfl
@[simp] theorem respond_banks (n : Nat) (pk : Packet) (c : Nat) (d : List (BitVec 256)) : (s.respond n pk c d).banks = s.banks := rfl
@[simp] theorem respond_spad (n : Nat) (pk : Packet) (c : Nat) (d : List (BitVec 256)) : (s.respond n pk c d).spad = s.spad := rfl
@[simp] theorem respond_chanWait (n : Nat) (pk : Packet) (c : Nat) (d : List (BitVec 256)) : (s.respond n pk c d).chanWait = s.chanWait := rfl
@[simp] theorem respond_epq (n : Nat) (pk : Packet) (c : Nat) (d : List (BitVec 256)) : (s.respond n pk c d).epq = s.epq := rfl
@[simp] theorem respond_srv (n : Nat) (pk : Packet) (c : Nat) (d : List (BitVec 256)) : (s.respond n pk c d).srv = s.srv := rfl
@[simp] theorem respond_masters (n : Nat) (pk : Packet) (c : Nat) (d : List (BitVec 256)) : (s.respond n pk c d).masters = s.masters := rfl
@[simp] theorem respond_locks (n : Nat) (pk : Packet) (c : Nat) (d : List (BitVec 256)) : (s.respond n pk c d).locks = s.locks := rfl
@[simp] theorem respond_ledger (n : Nat) (pk : Packet) (c : Nat) (d : List (BitVec 256)) : (s.respond n pk c d).ledger = s.ledger := rfl
@[simp] theorem respond_us (n : Nat) (pk : Packet) (c : Nat) (d : List (BitVec 256)) : (s.respond n pk c d).us = s.us := rfl
@[simp] theorem respond_dbg (n : Nat) (pk : Packet) (c : Nat) (d : List (BitVec 256)) : (s.respond n pk c d).dbg = s.dbg := rfl
@[simp] theorem respond_tiles (n : Nat) (pk : Packet) (c : Nat) (d : List (BitVec 256)) : (s.respond n pk c d).tiles = s.tiles := rfl
@[simp] theorem respond_overt (n : Nat) (pk : Packet) (c : Nat) (d : List (BitVec 256)) : (s.respond n pk c d).overt = s.overt := rfl
@[simp] theorem respond_ports (n : Nat) (pk : Packet) (c : Nat) (d : List (BitVec 256)) : (s.respond n pk c d).ports = s.ports := rfl
@[simp] theorem respond_fab (n : Nat) (pk : Packet) (c : Nat) (d : List (BitVec 256)) : (s.respond n pk c d).fab = s.fab := rfl
@[simp] theorem respond_dev (n : Nat) (pk : Packet) (c : Nat) (d : List (BitVec 256)) : (s.respond n pk c d).dev = s.dev := rfl
@[simp] theorem respond_hbm (n : Nat) (pk : Packet) (c : Nat) (d : List (BitVec 256)) : (s.respond n pk c d).hbm = s.hbm := rfl
@[simp] theorem respond_hbmBad (n : Nat) (pk : Packet) (c : Nat) (d : List (BitVec 256)) : (s.respond n pk c d).hbmBad = s.hbmBad := rfl
@[simp] theorem respond_mcs (n : Nat) (pk : Packet) (c : Nat) (d : List (BitVec 256)) : (s.respond n pk c d).mcs = s.mcs := rfl
@[simp] theorem respond_tt (n : Nat) (pk : Packet) (c : Nat) (d : List (BitVec 256)) : (s.respond n pk c d).tt = s.tt := rfl
@[simp] theorem respond_tio (n : Nat) (pk : Packet) (c : Nat) (d : List (BitVec 256)) : (s.respond n pk c d).tio = s.tio := rfl
@[simp] theorem respond_pwr (n : Nat) (pk : Packet) (c : Nat) (d : List (BitVec 256)) : (s.respond n pk c d).pwr = s.pwr := rfl
@[simp] theorem respond_tick (n : Nat) (pk : Packet) (c : Nat) (d : List (BitVec 256)) : (s.respond n pk c d).tick = s.tick := rfl
@[simp] theorem respond_ss (n : Nat) (pk : Packet) (c : Nat) (d : List (BitVec 256)) : (s.respond n pk c d).ss = s.ss := rfl
@[simp] theorem respond_load (n : Nat) (pk : Packet) (c : Nat) (d : List (BitVec 256)) : (s.respond n pk c d).load = s.load := rfl
@[simp] theorem respond_image (n : Nat) (pk : Packet) (c : Nat) (d : List (BitVec 256)) : (s.respond n pk c d).image = s.image := rfl
@[simp] theorem respond_store (n : Nat) (pk : Packet) (c : Nat) (d : List (BitVec 256)) : (s.respond n pk c d).store = s.store := rfl
@[simp] theorem respond_dawn (n : Nat) (pk : Packet) (c : Nat) (d : List (BitVec 256)) : (s.respond n pk c d).dawn = s.dawn := rfl
@[simp] theorem respond_fabId (n : Nat) (pk : Packet) (c : Nat) (d : List (BitVec 256)) : (s.respond n pk c d).fabId = s.fabId := rfl
@[simp] theorem respond_fuses (n : Nat) (pk : Packet) (c : Nat) (d : List (BitVec 256)) : (s.respond n pk c d).fuses = s.fuses := rfl
@[simp] theorem respond_fusesIn (n : Nat) (pk : Packet) (c : Nat) (d : List (BitVec 256)) : (s.respond n pk c d).fusesIn = s.fusesIn := rfl
@[simp] theorem respond_devIn (n : Nat) (pk : Packet) (c : Nat) (d : List (BitVec 256)) : (s.respond n pk c d).devIn = s.devIn := rfl
@[simp] theorem respond_pm (n : Nat) (pk : Packet) (c : Nat) (d : List (BitVec 256)) : (s.respond n pk c d).pm = s.pm := rfl
@[simp] theorem respond_pkg (n : Nat) (pk : Packet) (c : Nat) (d : List (BitVec 256)) : (s.respond n pk c d).pkg = s.pkg := rfl

/-! ### setStream -/

@[simp] theorem setStream_pending (n : Nat) (x : TtStream) : (s.setStream n x).pending = s.pending := rfl
@[simp] theorem setStream_free (n : Nat) (x : TtStream) : (s.setStream n x).free = s.free := rfl
@[simp] theorem setStream_steps (n : Nat) (x : TtStream) : (s.setStream n x).steps = s.steps := rfl
@[simp] theorem setStream_regs (n : Nat) (x : TtStream) : (s.setStream n x).regs = s.regs := rfl
@[simp] theorem setStream_bus (n : Nat) (x : TtStream) : (s.setStream n x).bus = s.bus := rfl
@[simp] theorem setStream_msix (n : Nat) (x : TtStream) : (s.setStream n x).msix = s.msix := rfl
@[simp] theorem setStream_evts (n : Nat) (x : TtStream) : (s.setStream n x).evts = s.evts := rfl
@[simp] theorem setStream_seq (n : Nat) (x : TtStream) : (s.setStream n x).seq = s.seq := rfl
@[simp] theorem setStream_clus (n : Nat) (x : TtStream) : (s.setStream n x).clus = s.clus := rfl
@[simp] theorem setStream_lanes (n : Nat) (x : TtStream) : (s.setStream n x).lanes = s.lanes := rfl
@[simp] theorem setStream_banks (n : Nat) (x : TtStream) : (s.setStream n x).banks = s.banks := rfl
@[simp] theorem setStream_spad (n : Nat) (x : TtStream) : (s.setStream n x).spad = s.spad := rfl
@[simp] theorem setStream_net (n : Nat) (x : TtStream) : (s.setStream n x).net = s.net := rfl
@[simp] theorem setStream_chanWait (n : Nat) (x : TtStream) : (s.setStream n x).chanWait = s.chanWait := rfl
@[simp] theorem setStream_epq (n : Nat) (x : TtStream) : (s.setStream n x).epq = s.epq := rfl
@[simp] theorem setStream_srv (n : Nat) (x : TtStream) : (s.setStream n x).srv = s.srv := rfl
@[simp] theorem setStream_masters (n : Nat) (x : TtStream) : (s.setStream n x).masters = s.masters := rfl
@[simp] theorem setStream_locks (n : Nat) (x : TtStream) : (s.setStream n x).locks = s.locks := rfl
@[simp] theorem setStream_ledger (n : Nat) (x : TtStream) : (s.setStream n x).ledger = s.ledger := rfl
@[simp] theorem setStream_us (n : Nat) (x : TtStream) : (s.setStream n x).us = s.us := rfl
@[simp] theorem setStream_dbg (n : Nat) (x : TtStream) : (s.setStream n x).dbg = s.dbg := rfl
@[simp] theorem setStream_tiles (n : Nat) (x : TtStream) : (s.setStream n x).tiles = s.tiles := rfl
@[simp] theorem setStream_overt (n : Nat) (x : TtStream) : (s.setStream n x).overt = s.overt := rfl
@[simp] theorem setStream_ports (n : Nat) (x : TtStream) : (s.setStream n x).ports = s.ports := rfl
@[simp] theorem setStream_fab (n : Nat) (x : TtStream) : (s.setStream n x).fab = s.fab := rfl
@[simp] theorem setStream_dev (n : Nat) (x : TtStream) : (s.setStream n x).dev = s.dev := rfl
@[simp] theorem setStream_hbm (n : Nat) (x : TtStream) : (s.setStream n x).hbm = s.hbm := rfl
@[simp] theorem setStream_hbmBad (n : Nat) (x : TtStream) : (s.setStream n x).hbmBad = s.hbmBad := rfl
@[simp] theorem setStream_mcs (n : Nat) (x : TtStream) : (s.setStream n x).mcs = s.mcs := rfl
@[simp] theorem setStream_tio (n : Nat) (x : TtStream) : (s.setStream n x).tio = s.tio := rfl
@[simp] theorem setStream_pwr (n : Nat) (x : TtStream) : (s.setStream n x).pwr = s.pwr := rfl
@[simp] theorem setStream_tick (n : Nat) (x : TtStream) : (s.setStream n x).tick = s.tick := rfl
@[simp] theorem setStream_ss (n : Nat) (x : TtStream) : (s.setStream n x).ss = s.ss := rfl
@[simp] theorem setStream_load (n : Nat) (x : TtStream) : (s.setStream n x).load = s.load := rfl
@[simp] theorem setStream_image (n : Nat) (x : TtStream) : (s.setStream n x).image = s.image := rfl
@[simp] theorem setStream_store (n : Nat) (x : TtStream) : (s.setStream n x).store = s.store := rfl
@[simp] theorem setStream_dawn (n : Nat) (x : TtStream) : (s.setStream n x).dawn = s.dawn := rfl
@[simp] theorem setStream_fabId (n : Nat) (x : TtStream) : (s.setStream n x).fabId = s.fabId := rfl
@[simp] theorem setStream_fuses (n : Nat) (x : TtStream) : (s.setStream n x).fuses = s.fuses := rfl
@[simp] theorem setStream_fusesIn (n : Nat) (x : TtStream) : (s.setStream n x).fusesIn = s.fusesIn := rfl
@[simp] theorem setStream_devIn (n : Nat) (x : TtStream) : (s.setStream n x).devIn = s.devIn := rfl
@[simp] theorem setStream_pm (n : Nat) (x : TtStream) : (s.setStream n x).pm = s.pm := rfl
@[simp] theorem setStream_pkg (n : Nat) (x : TtStream) : (s.setStream n x).pkg = s.pkg := rfl

/-! ### stopRun -/

@[simp] theorem stopRun_pending : (s.stopRun).pending = s.pending := rfl
@[simp] theorem stopRun_free : (s.stopRun).free = s.free := rfl
@[simp] theorem stopRun_steps : (s.stopRun).steps = s.steps := rfl
@[simp] theorem stopRun_regs : (s.stopRun).regs = s.regs := rfl
@[simp] theorem stopRun_bus : (s.stopRun).bus = s.bus := rfl
@[simp] theorem stopRun_msix : (s.stopRun).msix = s.msix := rfl
@[simp] theorem stopRun_evts : (s.stopRun).evts = s.evts := rfl
@[simp] theorem stopRun_clus : (s.stopRun).clus = s.clus := rfl
@[simp] theorem stopRun_lanes : (s.stopRun).lanes = s.lanes := rfl
@[simp] theorem stopRun_banks : (s.stopRun).banks = s.banks := rfl
@[simp] theorem stopRun_spad : (s.stopRun).spad = s.spad := rfl
@[simp] theorem stopRun_net : (s.stopRun).net = s.net := rfl
@[simp] theorem stopRun_chanWait : (s.stopRun).chanWait = s.chanWait := rfl
@[simp] theorem stopRun_epq : (s.stopRun).epq = s.epq := rfl
@[simp] theorem stopRun_srv : (s.stopRun).srv = s.srv := rfl
@[simp] theorem stopRun_masters : (s.stopRun).masters = s.masters := rfl
@[simp] theorem stopRun_locks : (s.stopRun).locks = s.locks := rfl
@[simp] theorem stopRun_ledger : (s.stopRun).ledger = s.ledger := rfl
@[simp] theorem stopRun_us : (s.stopRun).us = s.us := rfl
@[simp] theorem stopRun_dbg : (s.stopRun).dbg = s.dbg := rfl
@[simp] theorem stopRun_tiles : (s.stopRun).tiles = s.tiles := rfl
@[simp] theorem stopRun_overt : (s.stopRun).overt = s.overt := rfl
@[simp] theorem stopRun_ports : (s.stopRun).ports = s.ports := rfl
@[simp] theorem stopRun_fab : (s.stopRun).fab = s.fab := rfl
@[simp] theorem stopRun_dev : (s.stopRun).dev = s.dev := rfl
@[simp] theorem stopRun_hbm : (s.stopRun).hbm = s.hbm := rfl
@[simp] theorem stopRun_hbmBad : (s.stopRun).hbmBad = s.hbmBad := rfl
@[simp] theorem stopRun_mcs : (s.stopRun).mcs = s.mcs := rfl
@[simp] theorem stopRun_tt : (s.stopRun).tt = s.tt := rfl
@[simp] theorem stopRun_tio : (s.stopRun).tio = s.tio := rfl
@[simp] theorem stopRun_pwr : (s.stopRun).pwr = s.pwr := rfl
@[simp] theorem stopRun_tick : (s.stopRun).tick = s.tick := rfl
@[simp] theorem stopRun_ss : (s.stopRun).ss = s.ss := rfl
@[simp] theorem stopRun_load : (s.stopRun).load = s.load := rfl
@[simp] theorem stopRun_image : (s.stopRun).image = s.image := rfl
@[simp] theorem stopRun_store : (s.stopRun).store = s.store := rfl
@[simp] theorem stopRun_dawn : (s.stopRun).dawn = s.dawn := rfl
@[simp] theorem stopRun_fabId : (s.stopRun).fabId = s.fabId := rfl
@[simp] theorem stopRun_fuses : (s.stopRun).fuses = s.fuses := rfl
@[simp] theorem stopRun_fusesIn : (s.stopRun).fusesIn = s.fusesIn := rfl
@[simp] theorem stopRun_devIn : (s.stopRun).devIn = s.devIn := rfl
@[simp] theorem stopRun_pm : (s.stopRun).pm = s.pm := rfl
@[simp] theorem stopRun_pkg : (s.stopRun).pkg = s.pkg := rfl

/-! ### ctrlSend -/

@[simp] theorem ctrlSend_pending (p : Nat) (r : BitVec 64) : (s.ctrlSend p r).pending = s.pending := rfl
@[simp] theorem ctrlSend_free (p : Nat) (r : BitVec 64) : (s.ctrlSend p r).free = s.free := rfl
@[simp] theorem ctrlSend_steps (p : Nat) (r : BitVec 64) : (s.ctrlSend p r).steps = s.steps := rfl
@[simp] theorem ctrlSend_regs (p : Nat) (r : BitVec 64) : (s.ctrlSend p r).regs = s.regs := rfl
@[simp] theorem ctrlSend_bus (p : Nat) (r : BitVec 64) : (s.ctrlSend p r).bus = s.bus := rfl
@[simp] theorem ctrlSend_msix (p : Nat) (r : BitVec 64) : (s.ctrlSend p r).msix = s.msix := rfl
@[simp] theorem ctrlSend_evts (p : Nat) (r : BitVec 64) : (s.ctrlSend p r).evts = s.evts := rfl
@[simp] theorem ctrlSend_seq (p : Nat) (r : BitVec 64) : (s.ctrlSend p r).seq = s.seq := rfl
@[simp] theorem ctrlSend_clus (p : Nat) (r : BitVec 64) : (s.ctrlSend p r).clus = s.clus := rfl
@[simp] theorem ctrlSend_lanes (p : Nat) (r : BitVec 64) : (s.ctrlSend p r).lanes = s.lanes := rfl
@[simp] theorem ctrlSend_banks (p : Nat) (r : BitVec 64) : (s.ctrlSend p r).banks = s.banks := rfl
@[simp] theorem ctrlSend_spad (p : Nat) (r : BitVec 64) : (s.ctrlSend p r).spad = s.spad := rfl
@[simp] theorem ctrlSend_net (p : Nat) (r : BitVec 64) : (s.ctrlSend p r).net = s.net := rfl
@[simp] theorem ctrlSend_chanWait (p : Nat) (r : BitVec 64) : (s.ctrlSend p r).chanWait = s.chanWait := rfl
@[simp] theorem ctrlSend_epq (p : Nat) (r : BitVec 64) : (s.ctrlSend p r).epq = s.epq := rfl
@[simp] theorem ctrlSend_srv (p : Nat) (r : BitVec 64) : (s.ctrlSend p r).srv = s.srv := rfl
@[simp] theorem ctrlSend_masters (p : Nat) (r : BitVec 64) : (s.ctrlSend p r).masters = s.masters := rfl
@[simp] theorem ctrlSend_locks (p : Nat) (r : BitVec 64) : (s.ctrlSend p r).locks = s.locks := rfl
@[simp] theorem ctrlSend_ledger (p : Nat) (r : BitVec 64) : (s.ctrlSend p r).ledger = s.ledger := rfl
@[simp] theorem ctrlSend_us (p : Nat) (r : BitVec 64) : (s.ctrlSend p r).us = s.us := rfl
@[simp] theorem ctrlSend_dbg (p : Nat) (r : BitVec 64) : (s.ctrlSend p r).dbg = s.dbg := rfl
@[simp] theorem ctrlSend_tiles (p : Nat) (r : BitVec 64) : (s.ctrlSend p r).tiles = s.tiles := rfl
@[simp] theorem ctrlSend_overt (p : Nat) (r : BitVec 64) : (s.ctrlSend p r).overt = s.overt := rfl
@[simp] theorem ctrlSend_fab (p : Nat) (r : BitVec 64) : (s.ctrlSend p r).fab = s.fab := rfl
@[simp] theorem ctrlSend_dev (p : Nat) (r : BitVec 64) : (s.ctrlSend p r).dev = s.dev := rfl
@[simp] theorem ctrlSend_hbm (p : Nat) (r : BitVec 64) : (s.ctrlSend p r).hbm = s.hbm := rfl
@[simp] theorem ctrlSend_hbmBad (p : Nat) (r : BitVec 64) : (s.ctrlSend p r).hbmBad = s.hbmBad := rfl
@[simp] theorem ctrlSend_mcs (p : Nat) (r : BitVec 64) : (s.ctrlSend p r).mcs = s.mcs := rfl
@[simp] theorem ctrlSend_tt (p : Nat) (r : BitVec 64) : (s.ctrlSend p r).tt = s.tt := rfl
@[simp] theorem ctrlSend_tio (p : Nat) (r : BitVec 64) : (s.ctrlSend p r).tio = s.tio := rfl
@[simp] theorem ctrlSend_pwr (p : Nat) (r : BitVec 64) : (s.ctrlSend p r).pwr = s.pwr := rfl
@[simp] theorem ctrlSend_tick (p : Nat) (r : BitVec 64) : (s.ctrlSend p r).tick = s.tick := rfl
@[simp] theorem ctrlSend_ss (p : Nat) (r : BitVec 64) : (s.ctrlSend p r).ss = s.ss := rfl
@[simp] theorem ctrlSend_load (p : Nat) (r : BitVec 64) : (s.ctrlSend p r).load = s.load := rfl
@[simp] theorem ctrlSend_image (p : Nat) (r : BitVec 64) : (s.ctrlSend p r).image = s.image := rfl
@[simp] theorem ctrlSend_store (p : Nat) (r : BitVec 64) : (s.ctrlSend p r).store = s.store := rfl
@[simp] theorem ctrlSend_dawn (p : Nat) (r : BitVec 64) : (s.ctrlSend p r).dawn = s.dawn := rfl
@[simp] theorem ctrlSend_fabId (p : Nat) (r : BitVec 64) : (s.ctrlSend p r).fabId = s.fabId := rfl
@[simp] theorem ctrlSend_fuses (p : Nat) (r : BitVec 64) : (s.ctrlSend p r).fuses = s.fuses := rfl
@[simp] theorem ctrlSend_fusesIn (p : Nat) (r : BitVec 64) : (s.ctrlSend p r).fusesIn = s.fusesIn := rfl
@[simp] theorem ctrlSend_devIn (p : Nat) (r : BitVec 64) : (s.ctrlSend p r).devIn = s.devIn := rfl
@[simp] theorem ctrlSend_pm (p : Nat) (r : BitVec 64) : (s.ctrlSend p r).pm = s.pm := rfl
@[simp] theorem ctrlSend_pkg (p : Nat) (r : BitVec 64) : (s.ctrlSend p r).pkg = s.pkg := rfl

/-! ### record -/

@[simp] theorem record_pending (v c d n e f g : Nat) : (s.record v c d n e f g).pending = s.pending := by unfold record; split <;> simp
@[simp] theorem record_free (v c d n e f g : Nat) : (s.record v c d n e f g).free = s.free := by unfold record; split <;> simp
@[simp] theorem record_steps (v c d n e f g : Nat) : (s.record v c d n e f g).steps = s.steps := by unfold record; split <;> simp
@[simp] theorem record_bus (v c d n e f g : Nat) : (s.record v c d n e f g).bus = s.bus := by unfold record; split <;> simp
@[simp] theorem record_msix (v c d n e f g : Nat) : (s.record v c d n e f g).msix = s.msix := by unfold record; split <;> simp
@[simp] theorem record_evts (v c d n e f g : Nat) : (s.record v c d n e f g).evts = s.evts := by unfold record; split <;> simp
@[simp] theorem record_seq (v c d n e f g : Nat) : (s.record v c d n e f g).seq = s.seq := by unfold record; split <;> simp
@[simp] theorem record_clus (v c d n e f g : Nat) : (s.record v c d n e f g).clus = s.clus := by unfold record; split <;> simp
@[simp] theorem record_lanes (v c d n e f g : Nat) : (s.record v c d n e f g).lanes = s.lanes := by unfold record; split <;> simp
@[simp] theorem record_banks (v c d n e f g : Nat) : (s.record v c d n e f g).banks = s.banks := by unfold record; split <;> simp
@[simp] theorem record_spad (v c d n e f g : Nat) : (s.record v c d n e f g).spad = s.spad := by unfold record; split <;> simp
@[simp] theorem record_chanWait (v c d n e f g : Nat) : (s.record v c d n e f g).chanWait = s.chanWait := by unfold record; split <;> simp
@[simp] theorem record_epq (v c d n e f g : Nat) : (s.record v c d n e f g).epq = s.epq := by unfold record; split <;> simp
@[simp] theorem record_srv (v c d n e f g : Nat) : (s.record v c d n e f g).srv = s.srv := by unfold record; split <;> simp
@[simp] theorem record_masters (v c d n e f g : Nat) : (s.record v c d n e f g).masters = s.masters := by unfold record; split <;> simp
@[simp] theorem record_locks (v c d n e f g : Nat) : (s.record v c d n e f g).locks = s.locks := by unfold record; split <;> simp
@[simp] theorem record_us (v c d n e f g : Nat) : (s.record v c d n e f g).us = s.us := by unfold record; split <;> simp
@[simp] theorem record_dbg (v c d n e f g : Nat) : (s.record v c d n e f g).dbg = s.dbg := by unfold record; split <;> simp
@[simp] theorem record_tiles (v c d n e f g : Nat) : (s.record v c d n e f g).tiles = s.tiles := by unfold record; split <;> simp
@[simp] theorem record_overt (v c d n e f g : Nat) : (s.record v c d n e f g).overt = s.overt := by unfold record; split <;> simp
@[simp] theorem record_ports (v c d n e f g : Nat) : (s.record v c d n e f g).ports = s.ports := by unfold record; split <;> simp
@[simp] theorem record_fab (v c d n e f g : Nat) : (s.record v c d n e f g).fab = s.fab := by unfold record; split <;> simp
@[simp] theorem record_dev (v c d n e f g : Nat) : (s.record v c d n e f g).dev = s.dev := by unfold record; split <;> simp
@[simp] theorem record_hbm (v c d n e f g : Nat) : (s.record v c d n e f g).hbm = s.hbm := by unfold record; split <;> simp
@[simp] theorem record_hbmBad (v c d n e f g : Nat) : (s.record v c d n e f g).hbmBad = s.hbmBad := by unfold record; split <;> simp
@[simp] theorem record_mcs (v c d n e f g : Nat) : (s.record v c d n e f g).mcs = s.mcs := by unfold record; split <;> simp
@[simp] theorem record_tt (v c d n e f g : Nat) : (s.record v c d n e f g).tt = s.tt := by unfold record; split <;> simp
@[simp] theorem record_tio (v c d n e f g : Nat) : (s.record v c d n e f g).tio = s.tio := by unfold record; split <;> simp
@[simp] theorem record_pwr (v c d n e f g : Nat) : (s.record v c d n e f g).pwr = s.pwr := by unfold record; split <;> simp
@[simp] theorem record_tick (v c d n e f g : Nat) : (s.record v c d n e f g).tick = s.tick := by unfold record; split <;> simp
@[simp] theorem record_ss (v c d n e f g : Nat) : (s.record v c d n e f g).ss = s.ss := by unfold record; split <;> simp
@[simp] theorem record_load (v c d n e f g : Nat) : (s.record v c d n e f g).load = s.load := by unfold record; split <;> simp
@[simp] theorem record_image (v c d n e f g : Nat) : (s.record v c d n e f g).image = s.image := by unfold record; split <;> simp
@[simp] theorem record_store (v c d n e f g : Nat) : (s.record v c d n e f g).store = s.store := by unfold record; split <;> simp
@[simp] theorem record_dawn (v c d n e f g : Nat) : (s.record v c d n e f g).dawn = s.dawn := by unfold record; split <;> simp
@[simp] theorem record_fabId (v c d n e f g : Nat) : (s.record v c d n e f g).fabId = s.fabId := by unfold record; split <;> simp
@[simp] theorem record_fuses (v c d n e f g : Nat) : (s.record v c d n e f g).fuses = s.fuses := by unfold record; split <;> simp
@[simp] theorem record_fusesIn (v c d n e f g : Nat) : (s.record v c d n e f g).fusesIn = s.fusesIn := by unfold record; split <;> simp
@[simp] theorem record_devIn (v c d n e f g : Nat) : (s.record v c d n e f g).devIn = s.devIn := by unfold record; split <;> simp
@[simp] theorem record_pm (v c d n e f g : Nat) : (s.record v c d n e f g).pm = s.pm := by unfold record; split <;> simp
@[simp] theorem record_pkg (v c d n e f g : Nat) : (s.record v c d n e f g).pkg = s.pkg := by unfold record; split <;> simp

/-! ### seqFaultBit -/

@[simp] theorem seqFaultBit_pending (b : Nat) : (s.seqFaultBit b).pending = s.pending := by simp [seqFaultBit]
@[simp] theorem seqFaultBit_free (b : Nat) : (s.seqFaultBit b).free = s.free := by simp [seqFaultBit]
@[simp] theorem seqFaultBit_steps (b : Nat) : (s.seqFaultBit b).steps = s.steps := by simp [seqFaultBit]
@[simp] theorem seqFaultBit_bus (b : Nat) : (s.seqFaultBit b).bus = s.bus := by simp [seqFaultBit]
@[simp] theorem seqFaultBit_msix (b : Nat) : (s.seqFaultBit b).msix = s.msix := by simp [seqFaultBit]
@[simp] theorem seqFaultBit_evts (b : Nat) : (s.seqFaultBit b).evts = s.evts := by simp [seqFaultBit]
@[simp] theorem seqFaultBit_seq (b : Nat) : (s.seqFaultBit b).seq = s.seq := by simp [seqFaultBit]
@[simp] theorem seqFaultBit_clus (b : Nat) : (s.seqFaultBit b).clus = s.clus := by simp [seqFaultBit]
@[simp] theorem seqFaultBit_lanes (b : Nat) : (s.seqFaultBit b).lanes = s.lanes := by simp [seqFaultBit]
@[simp] theorem seqFaultBit_banks (b : Nat) : (s.seqFaultBit b).banks = s.banks := by simp [seqFaultBit]
@[simp] theorem seqFaultBit_spad (b : Nat) : (s.seqFaultBit b).spad = s.spad := by simp [seqFaultBit]
@[simp] theorem seqFaultBit_chanWait (b : Nat) : (s.seqFaultBit b).chanWait = s.chanWait := by simp [seqFaultBit]
@[simp] theorem seqFaultBit_epq (b : Nat) : (s.seqFaultBit b).epq = s.epq := by simp [seqFaultBit]
@[simp] theorem seqFaultBit_srv (b : Nat) : (s.seqFaultBit b).srv = s.srv := by simp [seqFaultBit]
@[simp] theorem seqFaultBit_masters (b : Nat) : (s.seqFaultBit b).masters = s.masters := by simp [seqFaultBit]
@[simp] theorem seqFaultBit_locks (b : Nat) : (s.seqFaultBit b).locks = s.locks := by simp [seqFaultBit]
@[simp] theorem seqFaultBit_ledger (b : Nat) : (s.seqFaultBit b).ledger = s.ledger := by simp [seqFaultBit]
@[simp] theorem seqFaultBit_us (b : Nat) : (s.seqFaultBit b).us = s.us := by simp [seqFaultBit]
@[simp] theorem seqFaultBit_dbg (b : Nat) : (s.seqFaultBit b).dbg = s.dbg := by simp [seqFaultBit]
@[simp] theorem seqFaultBit_tiles (b : Nat) : (s.seqFaultBit b).tiles = s.tiles := by simp [seqFaultBit]
@[simp] theorem seqFaultBit_overt (b : Nat) : (s.seqFaultBit b).overt = s.overt := by simp [seqFaultBit]
@[simp] theorem seqFaultBit_ports (b : Nat) : (s.seqFaultBit b).ports = s.ports := by simp [seqFaultBit]
@[simp] theorem seqFaultBit_fab (b : Nat) : (s.seqFaultBit b).fab = s.fab := by simp [seqFaultBit]
@[simp] theorem seqFaultBit_dev (b : Nat) : (s.seqFaultBit b).dev = s.dev := by simp [seqFaultBit]
@[simp] theorem seqFaultBit_hbm (b : Nat) : (s.seqFaultBit b).hbm = s.hbm := by simp [seqFaultBit]
@[simp] theorem seqFaultBit_hbmBad (b : Nat) : (s.seqFaultBit b).hbmBad = s.hbmBad := by simp [seqFaultBit]
@[simp] theorem seqFaultBit_mcs (b : Nat) : (s.seqFaultBit b).mcs = s.mcs := by simp [seqFaultBit]
@[simp] theorem seqFaultBit_tt (b : Nat) : (s.seqFaultBit b).tt = s.tt := by simp [seqFaultBit]
@[simp] theorem seqFaultBit_tio (b : Nat) : (s.seqFaultBit b).tio = s.tio := by simp [seqFaultBit]
@[simp] theorem seqFaultBit_pwr (b : Nat) : (s.seqFaultBit b).pwr = s.pwr := by simp [seqFaultBit]
@[simp] theorem seqFaultBit_tick (b : Nat) : (s.seqFaultBit b).tick = s.tick := by simp [seqFaultBit]
@[simp] theorem seqFaultBit_ss (b : Nat) : (s.seqFaultBit b).ss = s.ss := by simp [seqFaultBit]
@[simp] theorem seqFaultBit_load (b : Nat) : (s.seqFaultBit b).load = s.load := by simp [seqFaultBit]
@[simp] theorem seqFaultBit_image (b : Nat) : (s.seqFaultBit b).image = s.image := by simp [seqFaultBit]
@[simp] theorem seqFaultBit_store (b : Nat) : (s.seqFaultBit b).store = s.store := by simp [seqFaultBit]
@[simp] theorem seqFaultBit_dawn (b : Nat) : (s.seqFaultBit b).dawn = s.dawn := by simp [seqFaultBit]
@[simp] theorem seqFaultBit_fabId (b : Nat) : (s.seqFaultBit b).fabId = s.fabId := by simp [seqFaultBit]
@[simp] theorem seqFaultBit_fuses (b : Nat) : (s.seqFaultBit b).fuses = s.fuses := by simp [seqFaultBit]
@[simp] theorem seqFaultBit_fusesIn (b : Nat) : (s.seqFaultBit b).fusesIn = s.fusesIn := by simp [seqFaultBit]
@[simp] theorem seqFaultBit_devIn (b : Nat) : (s.seqFaultBit b).devIn = s.devIn := by simp [seqFaultBit]
@[simp] theorem seqFaultBit_pm (b : Nat) : (s.seqFaultBit b).pm = s.pm := by simp [seqFaultBit]
@[simp] theorem seqFaultBit_pkg (b : Nat) : (s.seqFaultBit b).pkg = s.pkg := by simp [seqFaultBit]

/-! ### nameTile -/

@[simp] theorem nameTile_pending (t : Option (Nat × Nat)) (b : Bool) : (s.nameTile t b).pending = s.pending := by unfold nameTile; split <;> (try split) <;> rfl
@[simp] theorem nameTile_free (t : Option (Nat × Nat)) (b : Bool) : (s.nameTile t b).free = s.free := by unfold nameTile; split <;> (try split) <;> rfl
@[simp] theorem nameTile_steps (t : Option (Nat × Nat)) (b : Bool) : (s.nameTile t b).steps = s.steps := by unfold nameTile; split <;> (try split) <;> rfl
@[simp] theorem nameTile_bus (t : Option (Nat × Nat)) (b : Bool) : (s.nameTile t b).bus = s.bus := by unfold nameTile; split <;> (try split) <;> rfl
@[simp] theorem nameTile_msix (t : Option (Nat × Nat)) (b : Bool) : (s.nameTile t b).msix = s.msix := by unfold nameTile; split <;> (try split) <;> rfl
@[simp] theorem nameTile_evts (t : Option (Nat × Nat)) (b : Bool) : (s.nameTile t b).evts = s.evts := by unfold nameTile; split <;> (try split) <;> rfl
@[simp] theorem nameTile_seq (t : Option (Nat × Nat)) (b : Bool) : (s.nameTile t b).seq = s.seq := by unfold nameTile; split <;> (try split) <;> rfl
@[simp] theorem nameTile_clus (t : Option (Nat × Nat)) (b : Bool) : (s.nameTile t b).clus = s.clus := by unfold nameTile; split <;> (try split) <;> rfl
@[simp] theorem nameTile_lanes (t : Option (Nat × Nat)) (b : Bool) : (s.nameTile t b).lanes = s.lanes := by unfold nameTile; split <;> (try split) <;> rfl
@[simp] theorem nameTile_banks (t : Option (Nat × Nat)) (b : Bool) : (s.nameTile t b).banks = s.banks := by unfold nameTile; split <;> (try split) <;> rfl
@[simp] theorem nameTile_spad (t : Option (Nat × Nat)) (b : Bool) : (s.nameTile t b).spad = s.spad := by unfold nameTile; split <;> (try split) <;> rfl
@[simp] theorem nameTile_net (t : Option (Nat × Nat)) (b : Bool) : (s.nameTile t b).net = s.net := by unfold nameTile; split <;> (try split) <;> rfl
@[simp] theorem nameTile_chanWait (t : Option (Nat × Nat)) (b : Bool) : (s.nameTile t b).chanWait = s.chanWait := by unfold nameTile; split <;> (try split) <;> rfl
@[simp] theorem nameTile_epq (t : Option (Nat × Nat)) (b : Bool) : (s.nameTile t b).epq = s.epq := by unfold nameTile; split <;> (try split) <;> rfl
@[simp] theorem nameTile_srv (t : Option (Nat × Nat)) (b : Bool) : (s.nameTile t b).srv = s.srv := by unfold nameTile; split <;> (try split) <;> rfl
@[simp] theorem nameTile_masters (t : Option (Nat × Nat)) (b : Bool) : (s.nameTile t b).masters = s.masters := by unfold nameTile; split <;> (try split) <;> rfl
@[simp] theorem nameTile_locks (t : Option (Nat × Nat)) (b : Bool) : (s.nameTile t b).locks = s.locks := by unfold nameTile; split <;> (try split) <;> rfl
@[simp] theorem nameTile_ledger (t : Option (Nat × Nat)) (b : Bool) : (s.nameTile t b).ledger = s.ledger := by unfold nameTile; split <;> (try split) <;> rfl
@[simp] theorem nameTile_us (t : Option (Nat × Nat)) (b : Bool) : (s.nameTile t b).us = s.us := by unfold nameTile; split <;> (try split) <;> rfl
@[simp] theorem nameTile_dbg (t : Option (Nat × Nat)) (b : Bool) : (s.nameTile t b).dbg = s.dbg := by unfold nameTile; split <;> (try split) <;> rfl
@[simp] theorem nameTile_tiles (t : Option (Nat × Nat)) (b : Bool) : (s.nameTile t b).tiles = s.tiles := by unfold nameTile; split <;> (try split) <;> rfl
@[simp] theorem nameTile_overt (t : Option (Nat × Nat)) (b : Bool) : (s.nameTile t b).overt = s.overt := by unfold nameTile; split <;> (try split) <;> rfl
@[simp] theorem nameTile_ports (t : Option (Nat × Nat)) (b : Bool) : (s.nameTile t b).ports = s.ports := by unfold nameTile; split <;> (try split) <;> rfl
@[simp] theorem nameTile_fab (t : Option (Nat × Nat)) (b : Bool) : (s.nameTile t b).fab = s.fab := by unfold nameTile; split <;> (try split) <;> rfl
@[simp] theorem nameTile_dev (t : Option (Nat × Nat)) (b : Bool) : (s.nameTile t b).dev = s.dev := by unfold nameTile; split <;> (try split) <;> rfl
@[simp] theorem nameTile_hbm (t : Option (Nat × Nat)) (b : Bool) : (s.nameTile t b).hbm = s.hbm := by unfold nameTile; split <;> (try split) <;> rfl
@[simp] theorem nameTile_hbmBad (t : Option (Nat × Nat)) (b : Bool) : (s.nameTile t b).hbmBad = s.hbmBad := by unfold nameTile; split <;> (try split) <;> rfl
@[simp] theorem nameTile_mcs (t : Option (Nat × Nat)) (b : Bool) : (s.nameTile t b).mcs = s.mcs := by unfold nameTile; split <;> (try split) <;> rfl
@[simp] theorem nameTile_tt (t : Option (Nat × Nat)) (b : Bool) : (s.nameTile t b).tt = s.tt := by unfold nameTile; split <;> (try split) <;> rfl
@[simp] theorem nameTile_tio (t : Option (Nat × Nat)) (b : Bool) : (s.nameTile t b).tio = s.tio := by unfold nameTile; split <;> (try split) <;> rfl
@[simp] theorem nameTile_pwr (t : Option (Nat × Nat)) (b : Bool) : (s.nameTile t b).pwr = s.pwr := by unfold nameTile; split <;> (try split) <;> rfl
@[simp] theorem nameTile_tick (t : Option (Nat × Nat)) (b : Bool) : (s.nameTile t b).tick = s.tick := by unfold nameTile; split <;> (try split) <;> rfl
@[simp] theorem nameTile_ss (t : Option (Nat × Nat)) (b : Bool) : (s.nameTile t b).ss = s.ss := by unfold nameTile; split <;> (try split) <;> rfl
@[simp] theorem nameTile_load (t : Option (Nat × Nat)) (b : Bool) : (s.nameTile t b).load = s.load := by unfold nameTile; split <;> (try split) <;> rfl
@[simp] theorem nameTile_image (t : Option (Nat × Nat)) (b : Bool) : (s.nameTile t b).image = s.image := by unfold nameTile; split <;> (try split) <;> rfl
@[simp] theorem nameTile_store (t : Option (Nat × Nat)) (b : Bool) : (s.nameTile t b).store = s.store := by unfold nameTile; split <;> (try split) <;> rfl
@[simp] theorem nameTile_dawn (t : Option (Nat × Nat)) (b : Bool) : (s.nameTile t b).dawn = s.dawn := by unfold nameTile; split <;> (try split) <;> rfl
@[simp] theorem nameTile_fabId (t : Option (Nat × Nat)) (b : Bool) : (s.nameTile t b).fabId = s.fabId := by unfold nameTile; split <;> (try split) <;> rfl
@[simp] theorem nameTile_fuses (t : Option (Nat × Nat)) (b : Bool) : (s.nameTile t b).fuses = s.fuses := by unfold nameTile; split <;> (try split) <;> rfl
@[simp] theorem nameTile_fusesIn (t : Option (Nat × Nat)) (b : Bool) : (s.nameTile t b).fusesIn = s.fusesIn := by unfold nameTile; split <;> (try split) <;> rfl
@[simp] theorem nameTile_devIn (t : Option (Nat × Nat)) (b : Bool) : (s.nameTile t b).devIn = s.devIn := by unfold nameTile; split <;> (try split) <;> rfl
@[simp] theorem nameTile_pm (t : Option (Nat × Nat)) (b : Bool) : (s.nameTile t b).pm = s.pm := by unfold nameTile; split <;> (try split) <;> rfl
@[simp] theorem nameTile_pkg (t : Option (Nat × Nat)) (b : Bool) : (s.nameTile t b).pkg = s.pkg := by unfold nameTile; split <;> (try split) <;> rfl

/-! ### seqReport -/

@[simp] theorem seqReport_pending (b c n : Nat) (t : Option (Nat × Nat)) (x y z : Nat) : (s.seqReport b c n t x y z).pending = s.pending := by simp [seqReport]
@[simp] theorem seqReport_free (b c n : Nat) (t : Option (Nat × Nat)) (x y z : Nat) : (s.seqReport b c n t x y z).free = s.free := by simp [seqReport]
@[simp] theorem seqReport_steps (b c n : Nat) (t : Option (Nat × Nat)) (x y z : Nat) : (s.seqReport b c n t x y z).steps = s.steps := by simp [seqReport]
@[simp] theorem seqReport_bus (b c n : Nat) (t : Option (Nat × Nat)) (x y z : Nat) : (s.seqReport b c n t x y z).bus = s.bus := by simp [seqReport]
@[simp] theorem seqReport_msix (b c n : Nat) (t : Option (Nat × Nat)) (x y z : Nat) : (s.seqReport b c n t x y z).msix = s.msix := by simp [seqReport]
@[simp] theorem seqReport_evts (b c n : Nat) (t : Option (Nat × Nat)) (x y z : Nat) : (s.seqReport b c n t x y z).evts = s.evts := by simp [seqReport]
@[simp] theorem seqReport_seq (b c n : Nat) (t : Option (Nat × Nat)) (x y z : Nat) : (s.seqReport b c n t x y z).seq = s.seq := by simp [seqReport]
@[simp] theorem seqReport_clus (b c n : Nat) (t : Option (Nat × Nat)) (x y z : Nat) : (s.seqReport b c n t x y z).clus = s.clus := by simp [seqReport]
@[simp] theorem seqReport_lanes (b c n : Nat) (t : Option (Nat × Nat)) (x y z : Nat) : (s.seqReport b c n t x y z).lanes = s.lanes := by simp [seqReport]
@[simp] theorem seqReport_banks (b c n : Nat) (t : Option (Nat × Nat)) (x y z : Nat) : (s.seqReport b c n t x y z).banks = s.banks := by simp [seqReport]
@[simp] theorem seqReport_spad (b c n : Nat) (t : Option (Nat × Nat)) (x y z : Nat) : (s.seqReport b c n t x y z).spad = s.spad := by simp [seqReport]
@[simp] theorem seqReport_chanWait (b c n : Nat) (t : Option (Nat × Nat)) (x y z : Nat) : (s.seqReport b c n t x y z).chanWait = s.chanWait := by simp [seqReport]
@[simp] theorem seqReport_epq (b c n : Nat) (t : Option (Nat × Nat)) (x y z : Nat) : (s.seqReport b c n t x y z).epq = s.epq := by simp [seqReport]
@[simp] theorem seqReport_srv (b c n : Nat) (t : Option (Nat × Nat)) (x y z : Nat) : (s.seqReport b c n t x y z).srv = s.srv := by simp [seqReport]
@[simp] theorem seqReport_masters (b c n : Nat) (t : Option (Nat × Nat)) (x y z : Nat) : (s.seqReport b c n t x y z).masters = s.masters := by simp [seqReport]
@[simp] theorem seqReport_locks (b c n : Nat) (t : Option (Nat × Nat)) (x y z : Nat) : (s.seqReport b c n t x y z).locks = s.locks := by simp [seqReport]
@[simp] theorem seqReport_us (b c n : Nat) (t : Option (Nat × Nat)) (x y z : Nat) : (s.seqReport b c n t x y z).us = s.us := by simp [seqReport]
@[simp] theorem seqReport_dbg (b c n : Nat) (t : Option (Nat × Nat)) (x y z : Nat) : (s.seqReport b c n t x y z).dbg = s.dbg := by simp [seqReport]
@[simp] theorem seqReport_tiles (b c n : Nat) (t : Option (Nat × Nat)) (x y z : Nat) : (s.seqReport b c n t x y z).tiles = s.tiles := by simp [seqReport]
@[simp] theorem seqReport_overt (b c n : Nat) (t : Option (Nat × Nat)) (x y z : Nat) : (s.seqReport b c n t x y z).overt = s.overt := by simp [seqReport]
@[simp] theorem seqReport_ports (b c n : Nat) (t : Option (Nat × Nat)) (x y z : Nat) : (s.seqReport b c n t x y z).ports = s.ports := by simp [seqReport]
@[simp] theorem seqReport_fab (b c n : Nat) (t : Option (Nat × Nat)) (x y z : Nat) : (s.seqReport b c n t x y z).fab = s.fab := by simp [seqReport]
@[simp] theorem seqReport_dev (b c n : Nat) (t : Option (Nat × Nat)) (x y z : Nat) : (s.seqReport b c n t x y z).dev = s.dev := by simp [seqReport]
@[simp] theorem seqReport_hbm (b c n : Nat) (t : Option (Nat × Nat)) (x y z : Nat) : (s.seqReport b c n t x y z).hbm = s.hbm := by simp [seqReport]
@[simp] theorem seqReport_hbmBad (b c n : Nat) (t : Option (Nat × Nat)) (x y z : Nat) : (s.seqReport b c n t x y z).hbmBad = s.hbmBad := by simp [seqReport]
@[simp] theorem seqReport_mcs (b c n : Nat) (t : Option (Nat × Nat)) (x y z : Nat) : (s.seqReport b c n t x y z).mcs = s.mcs := by simp [seqReport]
@[simp] theorem seqReport_tt (b c n : Nat) (t : Option (Nat × Nat)) (x y z : Nat) : (s.seqReport b c n t x y z).tt = s.tt := by simp [seqReport]
@[simp] theorem seqReport_tio (b c n : Nat) (t : Option (Nat × Nat)) (x y z : Nat) : (s.seqReport b c n t x y z).tio = s.tio := by simp [seqReport]
@[simp] theorem seqReport_pwr (b c n : Nat) (t : Option (Nat × Nat)) (x y z : Nat) : (s.seqReport b c n t x y z).pwr = s.pwr := by simp [seqReport]
@[simp] theorem seqReport_tick (b c n : Nat) (t : Option (Nat × Nat)) (x y z : Nat) : (s.seqReport b c n t x y z).tick = s.tick := by simp [seqReport]
@[simp] theorem seqReport_ss (b c n : Nat) (t : Option (Nat × Nat)) (x y z : Nat) : (s.seqReport b c n t x y z).ss = s.ss := by simp [seqReport]
@[simp] theorem seqReport_load (b c n : Nat) (t : Option (Nat × Nat)) (x y z : Nat) : (s.seqReport b c n t x y z).load = s.load := by simp [seqReport]
@[simp] theorem seqReport_image (b c n : Nat) (t : Option (Nat × Nat)) (x y z : Nat) : (s.seqReport b c n t x y z).image = s.image := by simp [seqReport]
@[simp] theorem seqReport_store (b c n : Nat) (t : Option (Nat × Nat)) (x y z : Nat) : (s.seqReport b c n t x y z).store = s.store := by simp [seqReport]
@[simp] theorem seqReport_dawn (b c n : Nat) (t : Option (Nat × Nat)) (x y z : Nat) : (s.seqReport b c n t x y z).dawn = s.dawn := by simp [seqReport]
@[simp] theorem seqReport_fabId (b c n : Nat) (t : Option (Nat × Nat)) (x y z : Nat) : (s.seqReport b c n t x y z).fabId = s.fabId := by simp [seqReport]
@[simp] theorem seqReport_fuses (b c n : Nat) (t : Option (Nat × Nat)) (x y z : Nat) : (s.seqReport b c n t x y z).fuses = s.fuses := by simp [seqReport]
@[simp] theorem seqReport_fusesIn (b c n : Nat) (t : Option (Nat × Nat)) (x y z : Nat) : (s.seqReport b c n t x y z).fusesIn = s.fusesIn := by simp [seqReport]
@[simp] theorem seqReport_devIn (b c n : Nat) (t : Option (Nat × Nat)) (x y z : Nat) : (s.seqReport b c n t x y z).devIn = s.devIn := by simp [seqReport]
@[simp] theorem seqReport_pm (b c n : Nat) (t : Option (Nat × Nat)) (x y z : Nat) : (s.seqReport b c n t x y z).pm = s.pm := by simp [seqReport]
@[simp] theorem seqReport_pkg (b c n : Nat) (t : Option (Nat × Nat)) (x y z : Nat) : (s.seqReport b c n t x y z).pkg = s.pkg := by simp [seqReport]

/-! ### Objects after their own update -/

@[simp] theorem clu_setClu (t c : Nat) (x : Cluster) : (s.setClu t c x).clu t c = x := tget_tput_same _ _ _ _
theorem clu_setClu_other (t c : Nat) (x : Cluster) (t' c' : Nat) (h : 72 * t' + c' ≠ 72 * t + c) : (s.setClu t c x).clu t' c' = s.clu t' c' :=
  tget_tput_other _ h _ _
@[simp] theorem bank_setBank (t c : Nat) (x : Bank) : (s.setBank t c x).bank t c = x := tget_tput_same _ _ _ _
theorem bank_setBank_other (t c : Nat) (x : Bank) (t' c' : Nat) (h : 16 * t' + c' ≠ 16 * t + c) : (s.setBank t c x).bank t' c' = s.bank t' c' :=
  tget_tput_other _ h _ _
@[simp] theorem master_setMaster (t c : Nat) (x : Master) : (s.setMaster t c x).master t c = x := tget_tput_same _ _ _ _
theorem master_setMaster_other (t c : Nat) (x : Master) (t' c' : Nat) (h : 1024 * t' + c' ≠ 1024 * t + c) : (s.setMaster t c x).master t' c' = s.master t' c' :=
  tget_tput_other _ h _ _
@[simp] theorem tile_setTile (t : Nat) (x : Tile) : (s.setTile t x).tile t = x := tget_tput_same _ _ _ _
theorem tile_setTile_other (t : Nat) (x : Tile) (t' : Nat) (h : t' ≠ t) : (s.setTile t x).tile t' = s.tile t' :=
  tget_tput_other _ h _ _
@[simp] theorem port_setPort (t : Nat) (x : Port) : (s.setPort t x).port t = x := tget_tput_same _ _ _ _
theorem port_setPort_other (t : Nat) (x : Port) (t' : Nat) (h : t' ≠ t) : (s.setPort t x).port t' = s.port t' :=
  tget_tput_other _ h _ _
@[simp] theorem mc_setMc (t : Nat) (x : Mc) : (s.setMc t x).mc t = x := tget_tput_same _ _ _ _
theorem mc_setMc_other (t : Nat) (x : Mc) (t' : Nat) (h : t' ≠ t) : (s.setMc t x).mc t' = s.mc t' :=
  tget_tput_other _ h _ _
@[simp] theorem pw_setPw (t : Nat) (x : Pwr) : (s.setPw t x).pw t = x := tget_tput_same _ _ _ _
theorem pw_setPw_other (t : Nat) (x : Pwr) (t' : Nat) (h : t' ≠ t) : (s.setPw t x).pw t' = s.pw t' :=
  tget_tput_other _ h _ _
@[simp] theorem lock_setLock (t : Nat) (x : Lock) : (s.setLock t x).lock t = x := tget_tput_same _ _ _ _
theorem lock_setLock_other (t : Nat) (x : Lock) (t' : Nat) (h : t' ≠ t) : (s.setLock t x).lock t' = s.lock t' :=
  tget_tput_other _ h _ _
@[simp] theorem queueAt_setQueueAt (t : Nat) (x : List Packet) : (s.setQueueAt t x).queueAt t = x := tget_tput_same _ _ _ _
theorem queueAt_setQueueAt_other (t : Nat) (x : List Packet) (t' : Nat) (h : t' ≠ t) : (s.setQueueAt t x).queueAt t' = s.queueAt t' :=
  tget_tput_other _ h _ _
@[simp] theorem srvAt_setSrvAt (t : Nat) (x : List Packet) : (s.setSrvAt t x).srvAt t = x := tget_tput_same _ _ _ _
theorem srvAt_setSrvAt_other (t : Nat) (x : List Packet) (t' : Nat) (h : t' ≠ t) : (s.setSrvAt t x).srvAt t' = s.srvAt t' :=
  tget_tput_other _ h _ _
@[simp] theorem lane_setLane (l : LaneId) (x : Lane) : (s.setLane l x).lane l = x := tget_tput_same _ _ _ _
theorem lane_setLane_other (l l' : LaneId) (x : Lane) (h : laneKey l' ≠ laneKey l) : (s.setLane l x).lane l' = s.lane l' :=
  tget_tput_other _ h _ _

@[simp] theorem irq_reg (v : Nat) (k0 : Nat) : (s.irq v).reg k0 = s.reg k0 := by simp [reg]
@[simp] theorem irqIf_reg (b : Bool) (v : Nat) (k0 : Nat) : (s.irqIf b v).reg k0 = s.reg k0 := by simp [reg]
@[simp] theorem answer_reg (v : BitVec 32) (k0 : Nat) : (s.answer v).reg k0 = s.reg k0 := by simp [reg]
@[simp] theorem setClu_reg (t c : Nat) (x : Cluster) (k0 : Nat) : (s.setClu t c x).reg k0 = s.reg k0 := by simp [reg]
@[simp] theorem setLane_reg (l : LaneId) (x : Lane) (k0 : Nat) : (s.setLane l x).reg k0 = s.reg k0 := by simp [reg]
@[simp] theorem setBank_reg (t b : Nat) (x : Bank) (k0 : Nat) : (s.setBank t b x).reg k0 = s.reg k0 := by simp [reg]
@[simp] theorem setSpWord_reg (t b w : Nat) (m : BitVec 8) (v : BitVec 64) (k0 : Nat) : (s.setSpWord t b w m v).reg k0 = s.reg k0 := by simp [reg]
@[simp] theorem setMaster_reg (n mid : Nat) (m : Master) (k0 : Nat) : (s.setMaster n mid m).reg k0 = s.reg k0 := by simp [reg]
@[simp] theorem setTile_reg (t : Nat) (x : Tile) (k0 : Nat) : (s.setTile t x).reg k0 = s.reg k0 := by simp [reg]
@[simp] theorem setPort_reg (p : Nat) (x : Port) (k0 : Nat) : (s.setPort p x).reg k0 = s.reg k0 := by simp [reg]
@[simp] theorem setMc_reg (m : Nat) (x : Mc) (k0 : Nat) : (s.setMc m x).reg k0 = s.reg k0 := by simp [reg]
@[simp] theorem setPw_reg (k : Nat) (x : Pwr) (k0 : Nat) : (s.setPw k x).reg k0 = s.reg k0 := by simp [reg]
@[simp] theorem setLock_reg (n : Nat) (l : Lock) (k0 : Nat) : (s.setLock n l).reg k0 = s.reg k0 := by simp [reg]
@[simp] theorem setQueueAt_reg (n : Nat) (l : List Packet) (k0 : Nat) : (s.setQueueAt n l).reg k0 = s.reg k0 := by simp [reg]
@[simp] theorem setSrvAt_reg (n : Nat) (l : List Packet) (k0 : Nat) : (s.setSrvAt n l).reg k0 = s.reg k0 := by simp [reg]
@[simp] theorem respond_reg (n : Nat) (pk : Packet) (c : Nat) (d : List (BitVec 256)) (k0 : Nat) : (s.respond n pk c d).reg k0 = s.reg k0 := by simp [reg]
@[simp] theorem setStream_reg (n : Nat) (x : TtStream) (k0 : Nat) : (s.setStream n x).reg k0 = s.reg k0 := by simp [reg]
@[simp] theorem stopRun_reg (k0 : Nat) : (s.stopRun).reg k0 = s.reg k0 := by simp [reg]
@[simp] theorem ctrlSend_reg (p : Nat) (r : BitVec 64) (k0 : Nat) : (s.ctrlSend p r).reg k0 = s.reg k0 := by simp [reg]

theorem irqIf_frame (b : Bool) (v : Nat) : s.irqIf b v = { s with net := (s.irqIf b v).net } := by cases b <;> rfl

/-- What a record can do: it writes the ledger and its registers, and may raise one vector. -/
theorem record_frame (v c d n e f g : Nat) : ∃ r x l, s.record v c d n e f g = { s with regs := r, net := x, ledger := l } := by
  unfold record
  split
  · exact ⟨_, _, _, irqIf_frame _ _ _⟩
  · exact ⟨_, s.net, s.ledger, rfl⟩

/-- The registers that a record writes. -/
theorem record_reg (v c d n e f g k : Nat) (h : k ≠ Reg.sprLgWr) (h' : k ≠ Reg.sprLgLost) :
    (s.record v c d n e f g).reg k = s.reg k := by
  unfold record
  by_cases hr : s.ledgerRoom
  · rw [if_pos hr]
    refine (irqIf_reg _ _ _ _).trans ((reg_setReg_other _ h _).trans ?_)
    unfold reg
    exact Eq.refl _
  · rw [if_neg hr]; exact s.reg_count_other h' _ _ _

/-- The reset state's memories list nothing. -/
theorem reset_memory : Memory.wf State.reset.spad = true ∧ Memory.wf State.reset.hbm = true := ⟨rfl, rfl⟩

theorem setSpWord_wf (t b w : Nat) (m : BitVec 8) (v : BitVec 64) (h : Memory.wf s.spad) :
    Memory.wf (s.setSpWord t b w m v).spad := Memory.wf_putMask _ _ _ _ _ h

/-- A write of the user HBM space keeps the canonical form. -/
theorem hbmPut_wf (a : Nat) (l : List (BitVec 8)) (h : Memory.wf s.hbm) : Memory.wf (s.hbmPut a l).hbm := by
  unfold hbmPut
  split
  · exact Memory.wf_putN _ _ _ (Memory.wf_putN _ _ _ h)
  · exact Memory.wf_putN _ _ _ h

/-- A write of the user HBM space touches nothing else than the content and the marks of bad check bits. -/
theorem hbmPut_frame (a : Nat) (l : List (BitVec 8)) : ∃ h b, s.hbmPut a l = { s with hbm := h, hbmBad := b } := by
  simp only [hbmPut]
  split <;> exact ⟨_, _, rfl⟩

end Sys2Proof.Machine.State
end

