-- ==== Sys2Proof/Tests/Slice0.lean ====
section
/-! SUPPORT. Tests of one command each on small states, with results taken from the spec's words; the WellFormed smoke; and, for
each statement that has hypotheses, a witness: a state and operands that meet the hypotheses of each of its clauses, at a
boundary of their range where they have one. -/

namespace Sys2Proof.Tests

open Sys2Proof Sys2Proof.Machine Sys2Proof.Machine.State

set_option Elab.async false

/-- The state right after reset. -/
def W : State := State.reset

/-- The state a command leaves. -/
def after (c : Instr) (s : State) : State :=
  match exec c s with
  | .next t => t
  | _ => s

/-- A running device: tile 0 is ACTIVE, its cluster 0 takes part, L = 64, no load under way. -/
def U : State :=
  { (((W.setFld Reg.seqCtrl 12 8 1).setFld (Reg.rgnStat 0) 31 30 1).setFlag (Reg.cluId 0 0) 13 true) with
    load := none, seq := { Seq.reset with run := true } }

/-- The state with cluster 0 of tile 0 as given. -/
def withClu (s : State) (f : Cluster → Cluster) : State := s.setClu 0 0 (f (s.clu 0 0))

/-- A packet of node 0 to node 0. -/
def pk0 : Packet :=
  { dx := 0, dy := 0, sx := 0, sy := 0, mid := 0, ctx := 0, cmd := 0, cls := 0, len := 1, slot := 0, gen := 0, addr := 0,
    resp := 0, peek := false, q := false, be := 0, data := [] }

/-- Every controller READY. -/
def ready (s : State) : State := (List.range 6).foldl (fun (s : State) m => s.setFld (Reg.mcStat m) 2 0 2) s

/-! ### WellFormed -/

/-- Every command of the list is refused by Instr.wf: one ill-formed term for each check. -/
theorem test_wf_refuses : (([
    .turnToStep 64 0 0 [], .turnToStep 0 9 0 [], .turnToStep 0 0 8 [], .clusterStep 0 0 0 [⟨16, 0, 0, 0, true⟩],
    .clusterStep 0 0 0 [⟨0, 68, 0, 0, true⟩], .clusterStep 0 0 0 [⟨0, 0, 1024, 0, true⟩], .laneByteArrival 0 0 0 4 0,
    .laneStagePass ⟨5, 0, 0, 0, 0, 0⟩ 0 0, .laneStagePass ⟨0, 0, 0, 0, 16, 0⟩ 0 0, .laneStagePass ⟨0, 0, 0, 0, 0, 256⟩ 0 0,
    .laneStagePass ⟨0, 0, 0, 0, 0, 0⟩ 20 0, .rcFieldRead (100 * 0x100000) false, .rcFieldRead 2 false,
    .registerWrite (.engine 16) 0 0, .wuAccessStart .host 0 0 0 5 0, .bankGrant 0 16 .ok, .portSideDeliver 8 0,
    .portSideDeliver 0 128, .hbmCommandSelect 6 0 0, .hbmCommandSelect 0 64 0, .pageIdleExpiry 0 0 64,
    .nocRequestSend 100 0 none, .nocRequestSend 0 1024 none, .nocRequestSend 0 0 (some { pk0 with cmd := 16 }),
    .slotReuseTimeout 0 0 64, .domainOn 81, .laneLossOfLock 0 18, .storePatrolRead 7 0 false, .storePatrolRead 0 6144 false,
    .storePatrolRead 2 64 false, .storePatrolRead 4 2 false, .storePatrolRead 6 3 false, .weltEmit 0 144, .taskEnd 16, .stimulusDelivery ⟨32, []⟩, .ringWriteRepeat 8,
    .awlWrite (List.replicate 139 0) 0 ⟨[], none⟩, .storeOperationDone true ⟨[31915], [], []⟩,
    .cobblerPassDone [] ⟨[], [31744], []⟩, .cobblerPassDone [] ⟨[], [], [⟨0, 64, 0, 0, true⟩]⟩, .cobblerPassDone [] ⟨[], [], [⟨0, 0, 0, 16384, true⟩]⟩, .undervoltage 6, .overTemperature 70 0, .smbVcoreVoltage 4 0, .inputEdge 640 true 0,
    .vaonRise 4] : List Instr).all fun c => !c.wf) = true := by decide +kernel

/-- The commands next to them, at the last value of each range, are well formed. -/
theorem test_wf_accepts : (([
    .turnToStep 63 8 7 [], .clusterStep 0 0 0 [⟨15, 67, 1023, 0, true⟩], .laneByteArrival 0 0 0 3 0,
    .laneStagePass ⟨4, 63, 8, 7, 15, 255⟩ 19 0, .rcFieldRead (99 * 0x100000 + 0xFFFFC) false, .registerWrite (.engine 15) 0 0,
    .wuAccessStart .host 0 0 0 4 0, .bankGrant 0 15 .ok, .portSideDeliver 7 127, .pageIdleExpiry 5 63 63,
    .nocRequestSend 99 1023 (some pk0), .slotReuseTimeout 0 0 63, .domainOn 80, .laneLossOfLock 0 17, .storePatrolRead 1 6143 false,
    .storePatrolRead 3 63 false, .storePatrolRead 6 2 false, .weltEmit 0 143, .taskEnd 15, .stimulusDelivery ⟨31, []⟩, .ringWriteRepeat 7,
    .awlWrite (List.replicate 138 0) 0 ⟨[], none⟩, .storeOperationDone true ⟨[31914], [], []⟩,
    .cobblerPassDone [] ⟨[], [31743], [⟨5, 63, 63, 16383, true⟩]⟩, .undervoltage 5, .overTemperature 69 0, .smbVcoreVoltage 3 0, .inputEdge 639 true 0,
    .vaonRise 3] : List Instr).all fun c => c.wf) = true := by decide +kernel

/-! ### The block and its queue -/

/-- StepRunsTheFrontCommand: a queue of two commands; the empty queue. -/
theorem wit_StepRunsTheFrontCommand :
    ({ W with pending := [.loadCleanDone, .perst] } : State).pending = .loadCleanDone :: [.perst] ∧ W.pending = [] := by
  decide +kernel

/-- A step takes the command in front and leaves the one behind it (log 1). -/
theorem test_step_order : (match step { W with pending := [.cadenceRelock, .perst] } with
    | .next t => t.flag Reg.tioCadStat 31 && decide (t.pending = [.perst])
    | _ => false) = true := by decide +kernel

/-- NoCommandTouchesTheQueue, EveryStepKeepsTheCanonicalForm: a step from a canonical state with a command in front. -/
theorem wit_EveryStepKeepsTheCanonicalForm :
    W.Canonical ∧ step { W with pending := [.perst] } = .next (after .perst W) :=
  ⟨by unfold State.Canonical; decide +kernel, rfl⟩


/-! ### Sequencer -/

/-- U with cluster 0 done, and U at its midnight with the sample instant past. -/
def Udone : State := withClu U fun x => { x with done := true }
def Umid : State := { Udone with seq := { Udone.seq with midnight := true }, tio := { Udone.tio with instant := true } }

/-- MidnightStandsAndReleases: both clauses; the release at the last count, which wraps (R33). -/
theorem wit_MidnightStandsAndReleases :
    (Udone.seq.faulted = false ∧ Udone.seq.stalled = false ∧ Udone.seq.run = true ∧ Udone.seq.midnight = false ∧
      Udone.tilesDone = true) ∧
    (let s := { Umid with seq := { Umid.seq with cycle := BitVec.ofNat 48 (2 ^ 48 - 1) } }
     s.seq.faulted = false ∧ s.seq.stalled = false ∧ s.seq.midnight = true ∧ s.seqHold = 0) := by decide +kernel

/-- R33: the count wraps and the parity alternates. -/
theorem test_release_wraps :
    (let t := after (.midnightRelease 0) { Umid with seq := { Umid.seq with cycle := BitVec.ofNat 48 (2 ^ 48 - 1) } }
     t.seq.cycle = 0 ∧ t.par = false ∧ t.seq.midnight = false ∧ (t.clu 0 0).done = false) := by decide +kernel

/-- R27: a cluster that is not done keeps the device from its midnight. -/
theorem test_midnight_waits : (after .localMidnight U).seq.midnight = false ∧ (after .localMidnight Udone).seq.midnight = true := by
  decide +kernel

/-- R36: 2,048 steps in 1,024 µs are a rate of 2; a rate beyond the field reads 65,535. -/
theorem test_rate : (after (.seqRateWindow true) { U with steps := [(0, 2048)] }).reg Reg.seqRate = 2 ∧
    (after (.seqRateWindow true) { U with steps := [(0, 2 ^ 40)] }).reg Reg.seqRate = 65535 := by decide +kernel

/-- SequencerRegisterCommands: the accesses are made at once; tile 0 is the slowest, and the only, tile that takes part. -/
theorem wit_SequencerRegisterCommands :
    U.regNow .host Reg.seqFault true false 0x3F#32 = true ∧ U.regNow .host Reg.seqCycleLo false true 0 = true ∧
    U.regNow .host Reg.seqCycleLo false false 0 = true ∧
    (U.tileActive 0 = true ∧ ∀ j, j < 64 → U.tileActive j = true → U.stepsOf 0 ≤ U.stepsOf j) ∧
    (∀ k, k < 64 → { W with load := none }.tileActive k = false) := by decide +kernel

/-! ### Clusters -/

/-- A BP word with its parity set (R56): table, operands, CAP, FF, MUXC, OUTB, OUTE. -/
def bpW (tt a b c d cap ff mx ob oe : Nat) : BitVec 80 :=
  let w := BitVec.ofNat 80 (tt * 2 ^ 64 + a * 2 ^ 52 + b * 2 ^ 40 + c * 2 ^ 28 + d * 2 ^ 16 + cap * 2 ^ 9 + ff * 2 ^ 8 + mx * 2 ^ 7 +
    ob * 2 ^ 2 + oe * 2)
  setBit w 0 (ones w % 2 == 0)

/-- R57, R56: A xor B xor C is the table 9696h; the word with constants 1, 1, 0 as operands. -/
def Uxor (sel : Nat × Nat × Nat) : State :=
  withClu U fun x => x.setIns 5 0 (bpW 0x9696 sel.1 sel.2.1 sel.2.2 3072 0 1 0 0 0)

/-- ClusterTurnsToItsStep: the turn of a good word, and of a lane-table entry of even parity, at the last slot. -/
theorem wit_ClusterTurnsToItsStep :
    (let x := U.clu 0 0
     U.inWave 0 0 x = true ∧ x.turned = false ∧ U.runHeld 0 0 x = false ∧ oddOk (x.laneAt x.step) = true ∧
      wuParityFault x [] = none ∧ headFault (x.turnedTo []) (stepTag U.seq.cycle x.step) = none ∧ (x.wu 0).sp = none) ∧
    (let s := withClu U fun x => { (x.setLane 63 0) with step := 63 }
     let x := s.clu 0 0
     s.inWave 0 0 x = true ∧ x.turned = false ∧ s.runHeld 0 0 x = false ∧ oddOk (x.laneAt x.step) = false ∧
      sramReported [] 6 0 x.step = false) ∧
    (let x := U.clu 0 0
     let ue : List SramErr := [⟨0, 0, 0, 1, false⟩]
     oddOk (x.laneAt 0) = true ∧ wuParityFault x ue = some (0, 0)) ∧
    (let s := withClu U fun x => (x.setLane 0 0x100000#24).setQueue 0 [mkLaneByte 1 0]
     let x := s.clu 0 0
     s.inWave 0 0 x = true ∧ x.turned = false ∧ s.runHeld 0 0 x = false ∧ oddOk (x.laneAt 0) = true ∧ wuParityFault x [] = none ∧
      (headFault (x.turnedTo []) (stepTag s.seq.cycle 0)).isSome = true) := by
  decide +kernel

/-- U with cluster 0 turned to step 0. -/
def Uturned : State := after (.turnToStep 0 0 0 []) (Uxor (3073, 3073, 3073))

/-- The same cluster turned to its last step, with a lane-byte left in queue 3: of the next cycle, or of this one. -/
def Ulast (cp : Nat) : State :=
  after (.turnToStep 0 0 0 []) (withClu U fun x => { (x.setQueue 3 [mkLaneByte (8 * cp) 0]) with step := 63 })

/-- ClusterStepAndCommit: a step other than the last, the last one with and without an orphan, a wrong BP word, a cluster that has
not turned, one that is done. -/
theorem wit_ClusterStepAndCommit :
    (([Uturned, Ulast 0, Ulast 1] : List State).all fun s =>
      let x := s.clu 0 0
      s.mayStep 0 0 x && (headFault x (stepTag s.seq.cycle x.step)).isNone && !(s.stepCmps 0 0 x.step).runHeld 0 0 x &&
      decide (x.step < 1024) && (bpParityFault x (s.bpEnv 0 0 x [])).isNone && !x.compared) = true ∧
    (Uturned.clu 0 0).step + 1 ≠ Uturned.len ∧ ((Ulast 0).clu 0 0).step + 1 = (Ulast 0).len ∧
    (((Ulast 0).clu 0 0).queue 3).any (fun b => b.getLsbD 11 == (Ulast 0).par) = true ∧
    (((Ulast 1).clu 0 0).queue 3).any (fun b => b.getLsbD 11 == (Ulast 1).par) = false ∧
    (let s := withClu Uturned fun x => x.setIns 67 0 0
     s.mayStep 0 0 (s.clu 0 0) = true ∧ bpParityFault (s.clu 0 0) (s.bpEnv 0 0 (s.clu 0 0) []) = some 67) ∧
    U.inWave 0 0 (U.clu 0 0) = true ∧ U.mayStep 0 0 (U.clu 0 0) = false ∧ (U.clu 0 0).turned = false ∧
    Udone.inWave 0 0 (Udone.clu 0 0) = false := by decide +kernel

/-- R57: 1 xor 1 xor 1 is 1, 1 xor 1 xor 0 is 0; with FF = 1 the latch has the result (R68). -/
theorem test_step_xor :
    (let t := after (.clusterStep 0 0 0 []) Uturned
     (t.clu 0 0).step = 1 ∧ (rowOf (t.clu 0 0).res 5).getLsbD 0 = true ∧ (rowOf (t.clu 0 0).latch 5).getLsbD 0 = true) ∧
    (let t := after (.clusterStep 0 0 0 []) (after (.turnToStep 0 0 0 []) (Uxor (3073, 3073, 3072)))
     (rowOf (t.clu 0 0).res 5).getLsbD 0 = false ∧ (rowOf (t.clu 0 0).resW 5).getLsbD 0 = true) := by decide +kernel

/-- R82: a BP word of even parity stops the cluster before its step: CLU_FAULT.IPAR, the run is FAULTED. -/
theorem test_ipar :
    (let s := withClu Uturned fun x => x.setIns 67 0 0
     let t := after (.clusterStep 0 0 0 []) s
     (t.clu 0 0).faulted = true ∧ t.flag (Reg.cluFault 0 0) 29 = true ∧ t.seqState = 4 ∧ (t.clu 0 0).step = 0) := by
  decide +kernel

/-- R53: a skipped BP writes its result into its result store alone. -/
theorem test_skipped_bp :
    (let s := withClu U fun x => x.setIns 64 0 (bpW 0xFFFF 3072 3072 3072 3072 0 1 0 0 0)
     let t := after (.clusterStep 0 0 0 []) (after (.turnToStep 0 0 0 []) s)
     (rowOf (t.clu 0 0).res 64).getLsbD 0 = true ∧ (rowOf (t.clu 0 0).latch 64).getLsbD 0 = false) := by decide +kernel

/-- BpResultIsTheTableBit: a word outside MUXC mode. -/
theorem wit_BpResultIsTheTableBit :
    (let x := (Uxor (3073, 3073, 3073)).clu 0 0
     (bpWord x (U.bpEnv 0 0 x []) 5).getLsbD 7 = false) := by decide +kernel

/-- The commit's clause: the last BP, the greatest length. -/
theorem wit_ClusterCommit : (67 : Nat) < 68 ∧ (1024 : Nat) ≤ 1024 ∧ (1023 : Nat) < 1024 := by decide

/-! ### Lanes -/

/-- A lane-byte of data 5Ah, CP 1, ST 7, odd parity. -/
def lb : LaneByte := mkLaneByte 15 0x5A

/-- A state with a lane-byte in place i of a lane. -/
def onLane (s : State) (l : LaneId) (i : Nat) (h : Held) : State := s.setLane l ((s.lane l).setPlace i (some h))

/-- R145, R146: ST goes from 7 to 0, CP and data stay, parity is odd. -/
theorem test_advance : advance lb = mkLaneByte 8 0x5A ∧ ones (advance lb) % 2 = 1 ∧ ones lb % 2 = 1 := by decide +kernel

/-- StagePassesALaneByte: a counted stage (a router output that its entry gives three counted eyelets), a byte of even
parity, an uncounted eyelet. -/
theorem wit_StagePassesALaneByte :
    (let l := routerLane 63 8 7 5 3
     WellFormed.laneIdOk l = true ∧
     ∀ e ∈ [(0, lb, 3), (0, lb ^^^ 1, 3), (0, lb, 0)],
       let h : Held := { b := e.2.1, eye := e.2.2, waited := false }
       let s := onLane U l e.1 h
       (s.lane l).place e.1 = some h ∧ e.1 + 1 < s.chainLen l ∧ (s.lane l).place (e.1 + 1) = none ∧
       (s.lane l).closedAt (e.1 + 1) = false) ∧
    (¬ (1 < eyelets (routerLane 63 8 7 5 3) ∧ 3 ≤ 1) ∧ oddOk lb = true ∧ oddOk (lb ^^^ 1) = false ∧
      (1 < eyelets (routerLane 63 8 7 5 3) ∧ 0 ≤ 1)) ∧
    (let h : Held := { b := lb, eye := 3, waited := false }
     let l := gatewayLane 0 11 3
     let s := onLane (onLane U l 0 h) l 1 h
     WellFormed.laneIdOk l = true ∧ (s.lane l).place 0 = some h ∧ (s.lane l).place 1 ≠ none) := by decide +kernel

/-- LanesTakeFromTheirInputs, the merge: output 5 of a corner router takes its cluster's outbound lane 3. -/
def Umerge : State :=
  let l := routerLane 0 0 0 5 0
  (onLane U (outLane 0 0 3) 0 { b := lb, eye := 0, waited := false }).setLane l
    { (U.lane l) with n := 1, ent := [(0, let e := BitVec.ofNat 16 (3 * 2 ^ 5 + 2 * 2); setBit e 0 (ones e % 2 == 0))] }

theorem wit_LanesTakeFromTheirInputs :
    (let l := routerLane 0 0 0 5 0
     let u := outLane 0 0 3
     let x := Umerge.lane l
     let e := x.entry x.idx
     0 < x.n ∧ x.place 0 = none ∧ x.closedAt 0 = false ∧ oddOk e = true ∧
      Umerge.sourceOf l (bits e 15 12) (bits e 11 5) = some (u, none) ∧ laneKey u ≠ laneKey l ∧
      (Umerge.lane u).place (Umerge.chainLen u - 1) = some { b := lb, eye := 0, waited := false } ∧
      Umerge.weltOpen l (bits e 15 12) = true ∧ oddOk lb = true ∧ oddOk (lb ^^^ 1) = false ∧ bits e 4 1 % 4 ≠ 0 ∧ oddOk (e ^^^ 1) = false) ∧
    (let h : Held := { b := lb, eye := 0, waited := false }
     let s := onLane (withClu U fun x => x.setQueue 2 (List.replicate 7 lb)) (inLane 0 0 2) 3 h
     let f := onLane (withClu U fun x => x.setQueue 2 (List.replicate 8 lb)) (inLane 0 0 2) 3 h
     (s.lane (inLane 0 0 2)).place 3 = some h ∧ ((s.clu 0 0).queue 2).length < 8 ∧ (s.clu 0 0).turned = false ∧
     (f.lane (inLane 0 0 2)).place 3 = some h ∧ 8 ≤ ((f.clu 0 0).queue 2).length) ∧
    (let s := U.setPort 7 { Port.empty with rx := [(127, [lb])] }
     tget (fun _ => []) (s.port 7).rx 127 = lb :: [] ∧ (s.lane (portInLane (portTile 7) 127)).place 0 = none) ∧
    (let s := after (.turnToStep 0 0 0 []) (withClu U fun x => x.setLane 0 0x100000#24)
     let x := s.clu 0 0
     x.turned = true ∧ s.runHeld 0 0 x = false ∧ x.queue 0 = [] ∧
     headFault (x.setQueue 0 [mkLaneByte 0 0]) (stepTag s.seq.cycle x.step) = none ∧
     headFault (x.setQueue 0 [lb]) (stepTag s.seq.cycle x.step) ≠ none) := by
  decide +kernel

/-- R150, R155: the take empties the cluster's lane and advances the byte by its counted first eyelet. -/
theorem test_merge_take :
    (let t := after (.mergeTake (routerLane 0 0 0 5 0) 0 0) Umerge
     (t.lane (outLane 0 0 3)).place 0 = none ∧
     ((t.lane (routerLane 0 0 0 5 0)).place 0).map (fun h => (h.b, h.eye)) = some (mkLaneByte 8 0x5A, 2)) := by decide +kernel

/-! ### Accesses -/

/-- ClusterStoreAccesses: a start in IDLE; a refused one while one is under way; the completion of a write and of a read. -/
theorem wit_ClusterStoreAccesses :
    (let w : BitVec 32 := setBit 0x40000000#32 31 true
     let s := { W with load := none }
     s.regNow .host (Reg.cluAccCtrl 63 71) true false w = true ∧ (s.clu 63 71).acc = none ∧ s.cluAccessOk 63 w = true ∧
      s.regNow (.engine 15) (Reg.cluAccCtrl 63 71) true false (setBit 0x38000000#32 31 true) = true ∧
      s.cluAccessOk 63 (setBit 0x38000000#32 31 true) = false) ∧
    (([0x40000000#32, 0#32].all fun c =>
      decide (((withClu U fun x => { x with acc := some ⟨c, .host, 1⟩ }).clu 0 0).acc = some ⟨c, .host, 1⟩)) = true) ∧
    (0x40000000#32).getLsbD 30 = true ∧ (0#32).getLsbD 30 = false := by decide +kernel

/-- R95, R96: a word written through CLU_ACC into slot 3 of BP 1 is read back there. -/
theorem test_clu_access :
    (let s := { W with load := none }
     let cmd := BitVec.ofNat 32 (2 ^ 30 + 1 * 2 ^ 20 + 3)
     let s := (s.setReg (Reg.cluAccD0 0 0) 0x12345679#32).setReg (Reg.cluAccD2 0 0) 0xABCD#32
     let t := after (.cluAccessComplete 0 0 0) (after (.cluAccessStart .host 0 0 0 cmd) s)
     (t.clu 0 0).insAt 1 3 = 0xABCD0000000012345679#80 ∧ t.flag (Reg.cluAccStat 0 0) 0 = false ∧
     (t.clu 0 0).insAt 1 4 = 1 ∧ (t.clu 0 0).insAt 0 3 = 1) := by decide +kernel

/-- WuStoreAccesses: as above, for the last WU. -/
theorem wit_WuStoreAccesses :
    (let s := { W with load := none }
     let w : BitVec 32 := setBit 0x40000000#32 31 true
     s.regNow .debug (Reg.cluWaccCtrl 0 0 4) true false w = true ∧ ((s.clu 0 0).wu 4).acc = none ∧ s.wuAccessOk 0 w = true ∧
      s.regNow .debug (Reg.cluWaccCtrl 0 0 4) true false (setBit 0x38000000#32 31 true) = true ∧
      s.wuAccessOk 0 (setBit 0x38000000#32 31 true) = false) ∧
    ([0x40000000#32, 0#32].all fun c => decide
      (((withClu U fun x => x.setWu 4 { (x.wu 4) with acc := some ⟨c, .host, 1⟩ }).clu 0 0 |>.wu 4).acc =
        some ⟨c, .host, 1⟩)) = true := by
  decide +kernel

/-- MergeStoreAccesses: entry 1023 and the length of a gateway output lane; a completion of each kind. -/
theorem wit_MergeStoreAccesses :
    (let s := { W with load := none }
     ([BitVec.ofNat 32 (2 ^ 30 + 2 ^ 29 + 6 * 2 ^ 18 + 127 * 2 ^ 11 + 1023),
       BitVec.ofNat 32 (2 ^ 29 + 15 * 2 ^ 18 + 35 * 2 ^ 11 + 0x7FF)].all fun v => decide (
      s.regNow .host (Reg.tileRaccCtrl 63) true false (setBit v 31 true) = true ∧ v.getLsbD 29 = true ∧ (s.tile 63).racc = none ∧ (raccLane 63 (setBit v 31 true)).isSome = true ∧
      (bits v 10 0 < 1024 ∨ bits v 10 0 = 0x7FF) ∧
      (v.getLsbD 30 = true → s.codeWritable 63 = true ∧ ¬ (bits v 10 0 = 0x7FF ∧ 1024 < bits (s.reg (Reg.tileRaccData 63)) 10 0)))) = true) ∧
    ([BitVec.ofNat 32 (2 ^ 30 + 2 ^ 29 + 6 * 2 ^ 18 + 1023), BitVec.ofNat 32 (2 ^ 30 + 2 ^ 29 + 6 * 2 ^ 18 + 0x7FF),
        BitVec.ofNat 32 (2 ^ 29 + 6 * 2 ^ 18 + 5)].all fun v =>
      let a : StoreAcc := ⟨v, .host, 9⟩
      let s := W.setTile 63 { W.tile 63 with racc := some a }
      decide ((s.tile 63).racc = some a ∧ raccLane 63 a.cmd = some (gatewayLane 63 6 0))) = true := by decide +kernel

/-! ### The packet network -/

/-- An address of the packet map: space, PH = 1, X, Y and an offset (R269). -/
def phys (sp node o : Nat) : BitVec 48 :=
  BitVec.ofNat 48 (sp * 2 ^ 46 + (node % 10) * 2 ^ 42 + (node / 10) * 2 ^ 38 + 2 ^ 37 + o)

/-- A read of one flit of registers of node 9 from its offset 0, and of an HBM word. -/
def rdCe : Packet := { pk0 with addr := phys 0 9 0x40000 }
def rdHbm : Packet := { pk0 with cmd := 2, len := 0, addr := BitVec.ofNat 48 (2 * 2 ^ 46 + (hbmTop - 8)) }

/-- RequestsAreCheckedAndSent: a register read by the debug master and by the host, the last HBM word, an EVT, a request that waits, a
command that no space takes, an HBM word beyond the user space. -/
theorem wit_RequestsAreCheckedAndSent :
    (([rdCe, rdHbm].all fun p =>
      let pk : Packet := { p with sx := dmNode % 10, sy := dmNode / 10, mid := 0, ctx := W.ctxOf dmNode 0 p.ctx, cls := 2, resp := 0 }
      W.mastersOn dmNode && !(W.master dmNode 0).frozen && State.serviceClass dmNode && State.formatCause pk == 0 &&
        W.contextCause pk == 0 && !(aSpace pk.addr == 2 && decide (hbmTop ≤ (State.hbmSpan pk).2)) &&
        (W.destOf pk.addr).isSome && pk.cmd != 8 && (W.freeSlot dmNode 0).isSome && decide (W.hostMap dmNode 0 p = some p) &&
        (W.master dmNode 0).want.isEmpty) = true) ∧
    W.hostMap hpNode 0 { rdCe with addr := BitVec.ofNat 48 Reg.seqCtrl } = some rdCe ∧
    (let pk : Packet := { pk0 with cmd := 8, sy := 9, cls := 2, len := 0, addr := phys 0 0 255 }
     State.formatCause pk = 0 ∧ W.contextCause pk = 0 ∧ (W.destOf pk.addr).isSome = true) ∧
    (let s := W.setMaster dmNode 0 { Master.empty with want := [rdCe] }
     (s.master dmNode 0).want.head? = some rdCe ∧ (s.freeSlot dmNode 0).isSome = true) ∧
    (let s := W.setMaster dmNode 0 { Master.empty with slots := (List.range 64).map fun k => (k, { gen := 1, req := some rdCe, late := false }) }
     s.freeSlot dmNode 0 = none ∧ (s.master dmNode 0).frozen = false) ∧
    (W.setMaster dmNode 0 { Master.empty with frozen := true }).mastersOn dmNode = true ∧
    State.formatCause { rdCe with cmd := 15, sy := 9 } ≠ 0 ∧ State.neverFreezes dmNode 0 = false ∧ State.neverFreezes ceNode 0 = true ∧
    (let pk : Packet := { rdHbm with sx := 9, cls := 0, addr := BitVec.ofNat 48 (2 * 2 ^ 46 + hbmTop) }
     State.formatCause pk = 0 ∧ W.contextCause pk = 0 ∧ hbmTop ≤ (State.hbmSpan pk).2 ∧ nodeKind ceNode = .ce) := by decide +kernel

/-- R281: the request leaves under generation 1 of its slot; R282, R283: a bad one freezes the interface, with a record. -/
theorem test_request :
    (let t := after (.nocRequestSend dmNode 0 (some rdCe)) W
     t.net.map (fun f => (f.pk.dx, f.pk.dy, f.pk.gen, f.pos)) = [(9, 0, 1, 90)]) ∧
    (let t := after (.nocRequestSend dmNode 0 (some { rdCe with cmd := 15 })) W
     (t.master dmNode 0).frozen = true ∧ t.net = [] ∧ t.flag Reg.nocVrec0 31 = true ∧ t.fld Reg.nocVrec0 6 3 = 4) := by
  decide +kernel

/-- A state with one packet in the network. -/
def withNet (s : State) (p : Packet) (pos : Nat) : State := { s with net := [{ pk := p, pos := pos }] }

/-- RoutersForward: a packet on its way, an EVT at HP, a request, a response and a second packet of a stream at CE; a request that its
node accepts, holds, or answers BUSY, FENCED or ERROR. -/
theorem wit_RoutersForward :
    (let s := withNet W { rdCe with dx := 9 } 90
     s.net[0]? = some { pk := { rdCe with dx := 9 }, pos := 90 } ∧ (90 : Nat) ≠ 10 * 0 + 9 ∧
       s.channelNext (State.outOf { pk := { rdCe with dx := 9 }, pos := 90 }) 0 = true) ∧
    (let s := withNet W { pk0 with cmd := 8, addr := 255 } 0
     s.net[0]? = some { pk := { pk0 with cmd := 8, addr := 255 }, pos := 0 } ∧ (0 : Nat) = 10 * 0 + 0 ∧
       s.channelNext (State.outOf { pk := { pk0 with cmd := 8, addr := 255 }, pos := 0 }) 0 = true) ∧
    (([0, 7].all fun c =>
      let p : Packet := { rdCe with dx := 9, cmd := c }
      (withNet W p 9).channelNext (State.outOf { pk := p, pos := 9 }) 0 && W.admission 9 p == 0) = true) ∧
    (let p : Packet := { rdCe with dx := 9 }
     let s := { W with net := [{ pk := p, pos := 9 }, { pk := { p with cls := 2 }, pos := 9 }] }
     s.channelNext (State.outOf { pk := p, pos := 9 }) 0 = false) ∧
    (let q : Packet := { pk0 with dx := 9, dy := 9, addr := phys 0 99 0 }
     let port : Packet := { pk0 with dx := 2, addr := phys 0 2 0x80000 }
     (W.setLock 9 { Lock.empty with isOpen := true, node := 90, mid := 3 }).admission 9 { rdCe with dx := 9 } = 1 ∧
     (W.setDomState 78 6).admission 99 q = 3 ∧ (W.setDomState 70 0).admission 2 port = 2) := by
  decide +kernel

/-- R265: X before Y, from the corner of DM to CE. -/
theorem test_forward : (after (.routerForward 0 .ok) (withNet W { rdCe with dx := 9 } 90)).net.map (fun f => f.pos) = [91] := by
  decide +kernel

/-- The CE's master with an outstanding request in its last slot, generation 5. -/
def Wout : State := W.setMaster ceNode 0 { Master.empty with slots := [(63, { gen := 5, req := some rdHbm, late := false })] }

def rspCe : Packet := { pk0 with dx := 9, cmd := 7, slot := 63, gen := 5 }

/-- ResponsesAndTimeouts: node CE, which is no tile, port or trace engine. -/
theorem wit_ResponsesAndTimeouts :
    nodeKind ceNode = .ce ∧
    (let s := withNet Wout rspCe 9
     (s.master ceNode 0).frozen = false ∧ (tget (fun _ => Slot.empty) (s.master ceNode 0).slots 63).req = some rdHbm ∧
     s.net[0]? = some { pk := rspCe, pos := 9 } ∧ rspCe.cmd = 7 ∧ 10 * rspCe.dy + rspCe.dx = ceNode ∧
     s.channelNext (State.outOf { pk := rspCe, pos := 9 }) 0 = true ∧ rspCe.gen = (tget (fun _ => Slot.empty) (s.master ceNode 0).slots 63).gen ∧ rspCe.resp < 8 ∧
     s.mastersGone ceNode = false) ∧
    (let s := Wout.setMaster ceNode 0 { (Wout.master ceNode 0) with frozen := true, held := [{ req := rdHbm, expired := false }] }
     (s.master ceNode 0).held[0]? = some { req := rdHbm, expired := false } ∧ (s.master ceNode 0).frozen = true) ∧
    nodeKind ttNode = .tt := by decide +kernel

/-- R280: an expired timer ends the request with TIMEOUT (code 4), and the slot is late. -/
theorem test_timeout :
    (let t := after (.nocRequestTimeout ceNode 0 63) Wout
     ((t.master ceNode 0).last.map fun r => r.resp) = some 4 ∧
     (tget (fun _ => Slot.empty) (t.master ceNode 0).slots 63).late = true) := by decide +kernel

/-- A WU with a read outstanding at the head of its queue 1, and the response on its way. -/
def Uhbm : State :=
  let s := withClu U fun x => x.setWu 4 { (x.wu 4) with q1 := [⟨1, false, 0, some 0, none⟩] }
  let s := s.setMaster 11 4 { Master.empty with slots := [(0, { gen := 1, req := some rdHbm, late := false })] }
  withNet s { pk0 with dx := 1, dy := 1, mid := 4, cmd := 7, slot := 0, gen := 1, q := true, data := [0x1234] } 11

/-- HbmResponseReachesTheQueue. -/
theorem wit_HbmResponseReachesTheQueue :
    (let s := Uhbm
     let x := tget (fun _ => Slot.empty) (s.master 11 4).slots 0
     s.channelNext (State.outOf (s.net.getD 0 ⟨pk0, 0⟩)) 0 = true ∧ s.mastersGone 11 = false ∧ (s.master 11 4).frozen = false ∧ x.req.isSome = true ∧ x.gen = 1 ∧
     ((s.clu 0 0).wu 4).queue 1 = ⟨1, false, 0, some 0, none⟩ :: []) ∧
    (let t := after (.hbmResponseArrival 0) Uhbm
     ((t.clu 0 0).wu 4).queue 1 = [⟨2, false, 0x1234, none, none⟩] ∨
     ((t.clu 0 0).wu 4).q1.map (fun e => (e.state, e.data)) = [(2, 0x1234)]) := by decide +kernel

/-- A frozen interface of DM with its offending request ended by VIOL. -/
def Wfrozen : State := W.setMaster dmNode 0 { Master.empty with frozen := true, bad := some { rdCe with resp := 6 } }

/-- UnfreezingLocksAndEvents: each clause; the last vector. -/
theorem wit_UnfreezingLocksAndEvents :
    (let v := BitVec.ofNat 32 (0 * 2 ^ 27 + 9 * 2 ^ 23)
     Wfrozen.regNow .host Reg.nocUnfreeze true false (setBit (setBit v 12 false) 31 true) = true ∧
     Wfrozen.regNow .host Reg.nocUnfreeze true false (setBit v 12 true) = true ∧ bits v 26 23 ≤ 9 ∧ bits v 30 27 ≤ 9 ∧
     Wfrozen.regNow .host Reg.dbgCtrl true false (setBit v 31 true) = true ∧ (Wfrozen.master dmNode 0).viols = [] ∧
     10 * bits v 26 23 + bits v 30 27 = dmNode ∧ bits v 22 13 = 0 ∧ nodeKind dmNode = .dm ∧
     (Wfrozen.master dmNode 0).frozen = true ∧ (Wfrozen.master dmNode 0).held = [] ∧
     (Wfrozen.master dmNode 0).collected = [] ∧ (Wfrozen.master dmNode 0).bad = some { rdCe with resp := 6 } ∧
     (tget (fun _ => Slot.empty) (Wfrozen.master dmNode 0).slots 0).req = none) ∧
    (let s := W.setMaster dmNode 0 { Master.empty with frozen := true }
     (∀ e ∈ s.masters, e.2.frozen = true → e.2.held = [] ∧ e.2.collected = [] ∧ e.2.viols = [] ∧ e.2.bad = none) ∧ s.masters ≠ [] ∧
     (s.master dmNode 0).frozen = true ∧ (s.master dmNode 0).held = [] ∧ (s.master dmNode 0).collected = [] ∧
     (s.master dmNode 0).bad = none) ∧
    (let s := W.setLock 99 { Lock.empty with isOpen := true }
     s.queueAt 99 = [] ∧ (s.lock 99).isOpen = true) ∧
    (let s := { W with evts := [255] }
     s.evts[0]? = some 255) := by decide +kernel

/-- R284: the write ends the freeze and delivers the VIOL; R291: an EVT of vector 255 raises it. -/
theorem test_unfreeze_evt :
    (let t := after (.nocUnfreezeMaster (BitVec.ofNat 32 (9 * 2 ^ 23))) Wfrozen
     (t.master dmNode 0).frozen = false ∧ ((t.master dmNode 0).last.map fun r => r.resp) = some 6) ∧
    (after (.evt 0) { W with evts := [255] }).msix = BitVec.ofNat 256 (2 ^ 255) := by decide +kernel

/-- Requests at node CE of a source of HP, by command. -/
def atCe (cmd : Nat) (peek : Bool) (data : List (BitVec 256)) : State :=
  W.setSrvAt ceNode [{ rdCe with cmd := cmd, peek := peek, be := 1, data := data }]

/-- NodesServeRegisterRequests: each command, at a request nothing holds up. -/
theorem wit_NodesServeRegisterRequests :
    nodeKind ceNode = .ce ∧
    (([(0, true), (1, false), (4, true), (5, false), (6, false)].all fun c =>
      let s := atCe c.1 c.2 [7]
      let pk : Packet := { rdCe with cmd := c.1, peek := c.2, be := 1, data := [7] }
      decide ((s.srvAt ceNode)[0]? = some pk) && aSpace pk.addr == 0 && !State.isRemote ceNode pk && !s.servedAfter ceNode 0 pk &&
        State.mayLock pk && s.admission ceNode pk == 0 && !(s.lock ceNode).isOpen && !s.findsBroken ceNode pk) = true) ∧
    (let s := (atCe 6 false []).setLock ceNode { Lock.empty with isOpen := true }
     let pk : Packet := { rdCe with cmd := 6, be := 1 }
     (s.srvAt ceNode)[0]? = some pk ∧ s.admission ceNode pk = 0 ∧ (s.lock ceNode).isOpen = true ∧ s.holdsLock ceNode pk = true ∧
       s.findsBroken ceNode pk = false ∧ s.queueAt ceNode = [] ∧ (atCe 6 false []).holdsLock ceNode pk = false) ∧
    (let s := (atCe 6 false []).setLock ceNode { Lock.empty with broken := [(0, 0)] }
     s.findsBroken ceNode { rdCe with cmd := 6, be := 1 } = true ∧ s.servedAfter ceNode 0 { rdCe with cmd := 6, be := 1 } = false) := by
  decide +kernel

/-- R273, R274: the read is answered OK (0) by a RESP of one flit whose register 1 is SEQ_STAT. -/
theorem test_rd :
    (let t := after (.rd ceNode 0 []) (atCe 0 true [])
     t.net.map (fun f => (f.pk.cmd, f.pk.resp, f.pk.len, flitReg (f.pk.data.getD 0 0) 1)) = [(7, 0, 1, W.view Reg.seqStat)]) ∧
    (after (.lwr ceNode 0 []) (atCe 5 false [0])).lock ceNode =
      { Lock.empty with isOpen := true, node := 0, mid := 0, count := 1 } := by decide +kernel

/-! ### The scratchpad banks -/

/-- The last words of bank 15 of tile 0 in the map (R205), owned by the host. -/
def spAt (cmd : Nat) : Packet :=
  { pk0 with cmd := cmd, addr := phys 1 11 (15 * 2 ^ 18 + 32764 * 8), be := 15, data := [BitVec.ofNat 256 (2 ^ 255 + 9)] }

def Wbank (cmd : Nat) : State := (W.setFld (Reg.bnkOwner 0 15) 2 0 2).setSrvAt 11 [spAt cmd]

/-- BankServesTheNetwork: a read and a write of the last four words of a bank. -/
theorem wit_BankServesTheNetwork :
    (([0, 1, 4, 5].all fun c =>
      let s := Wbank c
      let pk := spAt c
      !s.servedAfter 11 0 pk && !(s.lock 11).isOpen && State.mayLock pk && !s.findsBroken 11 pk && decide ((s.srvAt (tileNode 0))[0]? = some pk) && aSpace pk.addr == 1 && s.admission (tileNode 0) pk == 0 &&
        s.nocOwns 0 (aBank pk.addr) pk && (List.range 8).all fun r => !s.flag (Reg.dbgRuCtrl 0 r) 31) = true) ∧
    (spAt 1).be.extractLsb' 0 4 = 0xF := by decide +kernel

/-- R208: the write stores its four words at the end of the bank. -/
theorem test_bank_write :
    (let t := after (.scratchpadNocAccess 11 0 []) (Wbank 1)
     t.spWord 0 15 32764 = 9 ∧ t.spWord 0 15 32767 = BitVec.ofNat 64 (2 ^ 63) ∧ t.spWord 0 15 32763 = 0) := by decide +kernel

/-- Cluster 0 at step 0 with a request of WU 0 at bank 15, which the WU group owns with it as a user (R213). -/
def Usp (wr : Bool) : State :=
  let s := (U.setFld (Reg.bnkOwner 0 15) 2 0 1).setFlag (Reg.bnkUsersLo 0 15) 0 true
  withClu s fun x => { (x.setWu 0 { (x.wu 0) with sp := some ⟨15, 32767, wr, 0x81, 0x1122334455667788, false, false, 0⟩ }) with turned := true }

/-- BankGrantsInWuOrder: a load and a store at the last word. -/
theorem wit_BankGrantsInWuOrder :
    (([false, true].all fun w =>
      let s := Usp w
      decide (s.bankFirst 0 15 = some (0, 0, 0, 0, 0)) && (((s.clu 0 0).wu 0).sp.map fun r => r.wr) == some w &&
        s.wuMayUse 0 15 0 && s.usersReached 0 15 0 && !(s.setFld (Reg.bnkOwner 0 15) 2 0 2).wuMayUse 0 15 0 &&
        !((s.setFlag (Reg.bnkUsersLo 0 15) 1 true).setFlag (Reg.cluId 0 1) 13 true).usersReached 0 15 0) = true) ∧
    U.bankFirst 0 15 = none := by decide +kernel

/-- R121: ST stores bytes 0 and 7, which its mask names. -/
theorem test_bank_grant : (after (.bankGrant 0 15 .ok) (Usp true)).spWord 0 15 32767 = 0x1100000000000088 := by decide +kernel

/-- BankHandover: host to service engine at once; a wait for the midnight; drained; cleared. -/
theorem wit_BankHandover :
    (let s := W.setFld (Reg.bnkOwner 0 15) 2 0 2
     let v := BitVec.ofNat 32 (3 * 2 ^ 16)
     s.regNow .host (Reg.bnkOwner 0 15) true false (setBit v 31 true) = true ∧ s.bankH 0 15 = 0 ∧ (1 ≤ bits v 18 16 ∧ bits v 18 16 ≤ 4) ∧ s.flag (Reg.bnkCtrl 0) 0 = false ∧ s.bankOwn 0 15 ≠ 1 ∧
       bits v 18 16 ≠ 1 ∧ bits v 18 16 ≠ s.bankOwn 0 15) ∧
    (let s := (W.setFld (Reg.bnkStat 0 15) 29 28 1).setBank 0 15 { Bank.empty with new := 4 }
     s.bankH 0 15 = 1 ∧ s.handoverReady 0 15 = true ∧ s.sameOwner 0 15 = false) ∧
    (let s := ((U.setFld (Reg.bnkStat 0 15) 29 28 1).setFld (Reg.bnkOwner 0 15) 2 0 1).setBank 0 15 { Bank.empty with new := 1, clr := true }
     let t := { s with seq := { s.seq with midnight := true } }
     s.bankH 0 15 = 1 ∧ s.handoverReady 0 15 = false ∧ t.handoverReady 0 15 = true ∧ t.sameOwner 0 15 = true) ∧
    (let s := (W.setFld (Reg.bnkStat 63 15) 29 28 2).setBank 63 15 { Bank.empty with new := 2, clr := true }
     s.bankH 63 15 = 2 ∧ s.bankInfl 63 15 = 0 ∧ (s.bank 63 15).clr = true) ∧
    (let s := (W.setFld (Reg.bnkStat 63 15) 29 28 3).setBank 63 15 { Bank.empty with new := 4, eng := 15 }
     s.bankH 63 15 = 3 ∧ (s.bank 63 15).new < 8 ∧ (s.bank 63 15).eng < 16) := by decide +kernel

/-- ScrubsMoveOn: the last position of a bank; the last block of the last pseudo-channel of a ready controller. -/
theorem wit_ScrubsMoveOn :
    (let s := (W.setFld (Reg.bnkCtrl 0) 15 8 1).setBank 0 0 { Bank.empty with scrub := 32767 }
     s.fld (Reg.bnkCtrl 0) 15 8 ≠ 0 ∧ s.bankFirst 0 0 = none ∧ s.bankInfl 0 0 = 0 ∧ (after (.bankScrubRead 0 0 .ok) s).bank 0 0 = Bank.empty) ∧
    (let s := ((W.setFld (Reg.mcStat 5) 2 0 2).setFlag (Reg.mcCtrl 5) 1 true).setFld (Reg.mcScrub 5) 15 0 1
     s.mcState 5 = 2 ∧ s.flag (Reg.mcCtrl 5) 1 = true ∧ s.fld (Reg.mcScrub 5) 15 0 ≠ 0 ∧ (s.mc 5).mig = none ∧
      s.hbmBankWaits 5 (s.pcOf 5 61) (bankOfOff (256 * tget (fun _ => 0) (s.mc 5).scrub 61)) = false ∧
      s.nbrWaits 5 (s.pcOf 5 61) (bankOfOff (256 * tget (fun _ => 0) (s.mc 5).scrub 61)) = false ∧ s.hbmBad = [] ∧ W.mcState 5 ≠ 2) := by
  decide +kernel

/-! ### HBM controllers -/

/-- Controller m READY, FENCED or FAILED by its state code (R257). -/
def mcIn (m st : Nat) : State := W.setFld (Reg.mcStat m) 2 0 st

/-- A read of the last 32 bytes of the first block, at controller 0. -/
def pkHbm : Packet := { pk0 with addr := BitVec.ofNat 48 (2 * 2 ^ 46 + 224) }

def mcReq (m st : Nat) : State := (mcIn m st).setSrvAt (mcNode m) [pkHbm]

/-- One request in the queue of pseudo-channel 0 of a READY controller, its bank open at a row or closed. -/
def mcQ (row : Option Nat) : State :=
  let s := (mcIn 0 2).setMcQueue 0 0 [⟨pkHbm, 0, 224, 0, 0, 0⟩]
  match row with
  | some r => s.setRow 0 0 0 (r + 1)
  | none => s

/-- HbmRequestsArriveAndAreChosen: arrival by state; the hit of an open row, the late request of a closed one; a repeat and the
end after three. -/
theorem wit_HbmRequestsArriveAndAreChosen :
    (([2, 3, 5].all fun st =>
      let s := mcReq 0 st
      decide ((s.srvAt (mcNode 0))[0]? = some pkHbm) && aSpace pkHbm.addr == 2 && !s.lockWaits (mcNode 0) pkHbm &&
        s.mcState 0 == st && decide ((State.hbmSpan pkHbm).2 < hbmTop) && State.extentOk pkHbm.cmd pkHbm.len pkHbm.addr) = true) ∧
    ((mcIn 0 2).setSrvAt (mcNode 0) [pkHbm, pkHbm]).srvAt (mcNode 0) = [pkHbm] ++ [pkHbm] ∧ State.sameSource pkHbm pkHbm = true ∧
    hbmTop ≤ (State.hbmSpan { pkHbm with addr := BitVec.ofNat 48 (2 * 2 ^ 46 + hbmTop) }).2 ∧
    State.extentOk 0 8 (BitVec.ofNat 48 (2 * 2 ^ 46 + 224)) = false ∧
    (([some 0, none].all fun row =>
      let s := mcQ row
      let u := s.ageReqs 0 0 65535
      s.mcState 0 == 2 && ((s.mc 0).nbr.find? fun e => e.1 / 64 == 0).isNone &&
        decide (u.firstReq 0 0 (fun r => decide (max 100 (s.fld (Reg.mcSched 0) 15 0) ≤ r.age)) = some 0) &&
        (u.mcQueue 0 0)[0]?.isSome && decide (s.openRow 0 0 0 = row)) = true) ∧
    (let s := mcQ (some 0)
     let u := s.ageReqs 0 0 0
     u.firstReq 0 0 (fun r => decide (max 100 (s.fld (Reg.mcSched 0) 15 0) ≤ r.age)) = none ∧
     u.firstReq 0 0 (fun r => s.openRow 0 0 (bankOfOff r.off) == some (rowOfOff r.off)) = some 0) ∧
    (([2, 3].all fun n =>
      (W.mc 5).ready[0]?.isNone && decide (((W.setMc 5 { Mc.empty with ready := [⟨pkHbm, 0, 224, 0, 0, n⟩] }).mc 5).ready[0]? = some ⟨pkHbm, 0, 224, 0, 0, n⟩)) = true) := by
  decide +kernel

/-- No refresh is owed in these states, whatever the controller may postpone. -/
theorem wit_HbmNothingOwed (row : Option Nat) : (mcQ row).owedBank 0 0 Config.refreshPostpone = none := by
  unfold State.owedBank
  rw [List.find?_eq_none]
  intro k _
  have h : ((mcQ row).mc 0).owed = [] := by cases row <;> rfl
  simp [h]

/-- R254, R258: a fenced controller answers FENCED (2), a failed one ERROR (1). -/
theorem test_mc_states :
    (after (.hbmRequestArrival 0 ⟨0, 0⟩) (mcReq 0 3)).net.map (fun f => f.pk.resp) = [2] ∧
    (after (.hbmRequestArrival 0 ⟨0, 0⟩) (mcReq 0 5)).net.map (fun f => f.pk.resp) = [1] ∧
    ((after (.hbmRequestArrival 0 ⟨0, 0⟩) (mcReq 0 2)).mcQueue 0 0).map (fun r => r.off) = [224] := by decide +kernel

/-- HbmPagesAndRefresh: the last bank; a READY controller. -/
theorem wit_HbmPagesAndRefresh : (47 : Nat) < 48 ∧ (mcIn 5 2).mcState 5 = 2 := by decide +kernel

/-- R246: a refresh due is one owed, and the rate shows. -/
theorem test_refresh :
    (let t := after (.perBankRefreshDue 5 61 47 2) (mcIn 5 2)
     tget (fun _ => 0) (t.mc 5).owed (bankKey 61 47) = 1 ∧ t.fld (Reg.mcStat 5) 7 6 = 2) := by decide +kernel

/-- A word request whose column access has been issued, at controller 5. -/
def mcReady (cmd : Nat) : State :=
  let pk : Packet := { pk0 with cmd := cmd, len := 0, addr := BitVec.ofNat 48 (2 * 2 ^ 46 + 8), be := 0x0F, data := [0xAABBCCDDEEFF0011] }
  { (mcIn 0 2).setMc 0 { Mc.empty with ready := [⟨pk, 0, 8, 0, 0, 0⟩] } with hbm := [(8, 1), (12, 2)] }

/-- ControllersServeWords: a read and a write. -/
theorem wit_ControllersServeWords :
    (([2, 3].all fun c => ((mcReady c).mc 0).ready[0]?.map (fun r => r.pk.cmd) == some c && (mcReady c).mcState 0 == 2) = true) := by
  decide +kernel

/-- R245: WRW stores the four bytes that BE names; RDW answers the word. -/
theorem test_wrw :
    (let t := after (.wrw (mcNode 0) 0 []) (mcReady 3)
     Memory.word t.hbm 8 = 0x00000002EEFF0011 ∧ Memory.wf t.hbm = true) ∧
    (after (.rdw (mcNode 0) 0 []) (mcReady 2)).net.map (fun f => (f.pk.resp, f.pk.data)) = [(0, [0x0000000200000001])] := by
  decide +kernel

/-- Migrations: a start with the last spare, refused starts, an abort, a copy of the first and of the last block. -/
theorem wit_Migrations :
    (let v := BitVec.ofNat 32 (61 + 63 * 2 ^ 6)
     W.regNow .host (Reg.mcMigrate 5) true false (setBit v 31 true) = true ∧
     W.regNow .host (Reg.mcMigrate 5) true false (setBit v 30 true) = true ∧ v.getLsbD 31 = false ∧
     v.getLsbD 30 = false ∧ (W.mc 5).mig = none ∧ bits v 5 0 < 62 ∧
      ((List.range 62).any fun k => W.pcOf 5 k == bits v 11 6) = false ∧ 62 ≤ bits (BitVec.ofNat 32 62) 5 0) ∧
    (let s := W.setMc 5 { Mc.empty with mig := some ⟨0, 62, 3⟩ }
     (s.mc 5).mig = some ⟨0, 62, 3⟩) ∧
    (([0, pcBlocks - 1].all fun n =>
      let s := (mcIn 0 2).setMc 0 { Mc.empty with mig := some ⟨61, 62, n⟩ }
      decide (n < pcBlocks) && decide ((s.mc 0).mig = some ⟨61, 62, n⟩) && s.mcState 0 == 2 && !s.pcWaits 0 (s.pcOf 0 61) &&
        !s.pcWaits 0 62 && !s.nbrWaits 0 (s.pcOf 0 61) (bankOfOff (256 * n)) && !s.nbrWaits 0 62 (bankOfOff (256 * n))) = true) := by
  decide +kernel

/-- R240: the last block switches the pseudo-channel to its spare. -/
theorem test_mig_switch :
    (let t := after (.migrationBlockCopy 0 []) ((mcIn 0 2).setMc 0 { Mc.empty with mig := some ⟨61, 62, pcBlocks - 1⟩ })
     t.pcOf 0 61 = 62 ∧ (t.mc 0).mig = none ∧ t.flag (Reg.mcMigstat 0) 31 = true) := by decide +kernel

/-- Domain k in a state. -/
def domIn (k st : Nat) : State := W.setFld (Reg.pwrDom k) 26 24 st

/-- ControllersWakeAndFail: initialisation with the fitted geometry; wake after OFF; READY; the timeout; self-refresh. -/
theorem wit_ControllersWakeAndFail :
    (mcIn 5 1).mcState 5 = 1 ∧ State.fittedGeom &&& 0x00FFFFFF#32 = State.fittedGeom ∧
    (let s := (domIn 69 0).setPw 69 { Pwr.empty with wake := true }
     s.domState 69 = 0 ∧ (s.pw 69).wake = true) ∧
    ((domIn 69 1).domState 69 = 1 ∧ (domIn 69 1).queueAt (mcNode 5) = [] ∧ (domIn 69 1).mcState 5 ≠ 5) ∧
    (let s := ((domIn 69 5).setPw 69 { Pwr.empty with acked := true }).setFld (Reg.mcStat 5) 2 0 3
     s.domState 69 = 5 ∧ (s.pw 69).acked = true ∧ s.mcState 5 = 3) := by decide +kernel

/-- R257: lost rails leave the controller FAILED and its stack's bytes lost, another stack's kept. -/
theorem test_rail_loss :
    (let s := { mcIn 0 2 with hbm := [(5, 7), (2 ^ 36 + 5, 8)] }
     let t := after (.stackRailLoss 0) s
     t.mcState 0 = 5 ∧ t.hbm = [(2 ^ 36 + 5, 8)]) := by decide +kernel

/-! ### Power domains -/

/-- DomainsPowerDownAndUp: every clause, of a tile's domain and of a controller's. -/
theorem wit_DomainsPowerDownAndUp :
    (let s := { W with load := none }
     s.regNow .host (Reg.pwrDom 80) true false (setBits 0 31 30 3) = true ∧ s.regNow .debug (Reg.pwrDom 0) true false (setBits 0 31 30 2) = true ∧
     s.downRefused .host 63 = false ∧ s.downRefused .host 64 = false ∧ State.privileged 64 = true ∧
     (domIn 0 0).downRefused .host 0 = true ∧ W.flag Reg.pwrCtrl 0 = false ∧ State.privileged 63 = false ∧ W.comingOn 63 = true ∧ (domIn 63 1).comingOn 63 = true ∧
     (domIn 79 1).pm.owed = none) ∧
    (([3, 4, 1].all fun st => (domIn 63 st).domState 63 == st && decide ((domIn 63 st).queueAt (domainNode 63) = [])) = true) ∧
    (let s := (domIn 63 0).setPw 63 { Pwr.empty with wake := true }
     s.domState 63 = 0 ∧ (s.pw 63).wake = true) ∧
    (let pk : Packet := { pk0 with addr := phys 0 88 0x80000 }
     let s := (domIn 63 0).setQueueAt (domainNode 63) [pk]
     s.domState 63 = 0 ∧ (s.pw 63).wake = false ∧ s.domainWanted 63 = true ∧
     (let u := (domIn 63 1).setQueueAt (domainNode 63) [pk]
      u.domState 63 = 1 ∧ u.queueAt (domainNode 63) = [pk] ∧ u.needsDomain (domainNode 63) pk = some 63 ∧
      u.regionWaits (domainNode 63) pk = false ∧ u.lockWaits (domainNode 63) pk = false)) := by decide +kernel

/-- R287: a tile that went OFF lost its clusters, not its bank; R299: a request in PDOWN cancels it. -/
theorem test_domain_off :
    (let s := { withClu (domIn 0 4) (fun x => x.setIns 0 0 3) with spad := [(9, 1)] }
     let t := after (.domainOff 0) s
     t.domState 0 = 0 ∧ t.clu 0 0 = Cluster.empty ∧ t.spad = [(9, 1)]) ∧
    (after (.pwrOnRequest .host 80 0) (domIn 80 3)).domState 80 = 2 := by decide +kernel

/-- DuskHandshake: the fence, the drain and the end, of a controller and of a port. -/
theorem wit_DuskHandshake :
    (let s := (domIn 64 5).setFld (Reg.mcStat 0) 2 0 2
     s.domState 64 = 5 ∧ (s.pw 64).fence = false ∧ s.mcState 0 = 2 ∧ (s.mc 0).mig = none ∧
       ((s.setMc 0 { Mc.empty with mig := some ⟨0, 62, 3⟩ }).mc 0).mig ≠ none) ∧
    (([64, 77].all fun k =>
      let s := (domIn k 5).setPw k { Pwr.empty with fence := true }
      s.domState k == 5 && (s.pw k).fence && !s.mcBusy 0 && !s.portBusy 7) = true) ∧
    (([64, 77].all fun k =>
      let s := (domIn k 5).setPw k { Pwr.empty with acked := true, sref := true }
      s.domState k == 5 && (s.pw k).acked && (s.pw k).sref) = true) := by decide +kernel

/-! ### The fabric -/

/-- Port p in a link state (R332). -/
def lnkIn (p st : Nat) : State := W.setFld (Reg.lnkStat p) 31 29 st

/-- PortStates: each clause at port 7; exactly 16 and only 15 lanes pass. -/
theorem wit_PortStates :
    (let s := (lnkIn 7 0).setFlag (Reg.lnkCtrl 7) 30 true
     s.lnkState 7 = 0 ∧ s.flag (Reg.lnkCtrl 7) 30 = true ∧ s.domState 77 = 2) ∧
    ((lnkIn 7 1).lnkState 7 = 1 ∧ (lnkIn 7 3).lnkState 7 = 3 ∧ 16 ≤ ones 0x3FFFC#18 ∧ ones 0x3FFF8#18 < 16) ∧
    (let s := (lnkIn 7 2).setFld (Reg.lnkStat 7) 17 0 0x3FFFC
     s.lnkState 7 = 2 ∧ s.flag (Reg.lnkStat 7) 17 = true) ∧
    (let v := BitVec.ofNat 32 (2 ^ 30)
     (lnkIn 7 4).regNow .host (Reg.lnkCtrl 7) true false (setBit v 31 true) = true ∧
     (lnkIn 7 5).regNow .host (Reg.lnkCtrl 7) true false (setBit 0 31 true) = true ∧
     (if W.flag (Reg.lnkCtrl 7) 0 then W.flag (Reg.lnkCtrl 7) 30 else v.getLsbD 30) = true ∧ (lnkIn 7 4).lnkState 7 = 4) ∧
    (let f : FabPkt := { dest := 9, src := 5, e := false, hops := 30, bulk := false, port := 3, pk := pk0, late := false }
     let r := BitVec.ofNat 32 (2 ^ 31 + 7)
     let s := ((lnkIn 7 2).setReg (Reg.fabRt0 9) r).setPort 7 { Port.empty with svcQ := [f] }
     let u := ((lnkIn 7 1).setReg (Reg.fabRt0 9) r).setPort 6 { Port.empty with heldPk := [f] }
     (s.port 7).svcQ = [f] ∧ bits (s.route f.e f.dest) 2 0 = 7 ∧ (s.route f.e f.dest).getLsbD 30 = false ∧
     (u.port 6).heldPk = [f] ∧ (∀ j, j < 8 → j ≠ 6 → (u.port j).heldPk = []) ∧ State.hopsOut f ≤ 31 ∧
     (u.route f.e f.dest).getLsbD 31 = true) := by
  decide +kernel

/-- R303, R332: with every lane passing, the lowest 16 carry the link. -/
theorem test_port_up :
    (let t := after (.portTrainComplete 7 0x3FFFF#18) (lnkIn 7 1)
     t.lnkState 7 = 2 ∧ t.fld (Reg.lnkStat 7) 17 0 = 0xFFFF) ∧
    (after (.portTrainTimeout 7 0x3FFFF#18) (lnkIn 7 1)).lnkState 7 = 4 := by decide +kernel

/-- A flit of the 992 bits before its CRC, with a word in the place of that; and the right CRC. -/
def flitOf (hi : Nat) (c : BitVec 32) : Flit := BitVec.ofNat 1024 (hi * 2 ^ 32 + c.toNat)
def crcOf (hi : Nat) : BitVec 32 := crc32Bits (bitsDown hi 992)

theorem crcOf_eq (hi : Nat) : crc32Bits (bitsDown hi 992) = crcOf hi := rfl

theorem lt_pow {hi k n m r : Nat} (h : hi < 2 ^ n) (hk : k < 2 ^ m) (hr : n + m = r) : hi * 2 ^ m + k < 2 ^ r := by
  subst hr
  calc hi * 2 ^ m + k < hi * 2 ^ m + 2 ^ m := Nat.add_lt_add_left hk _
    _ = (hi + 1) * 2 ^ m := by rw [Nat.add_mul, Nat.one_mul]
    _ ≤ 2 ^ n * 2 ^ m := Nat.mul_le_mul_right _ h
    _ = 2 ^ (n + m) := (Nat.pow_add ..).symm

theorem flitOf_toNat {hi : Nat} (h : hi < 2 ^ 992) (c : BitVec 32) : (flitOf hi c).toNat = hi * 2 ^ 32 + c.toNat := by
  unfold flitOf
  rw [BitVec.toNat_ofNat, Nat.mod_eq_of_lt]
  exact lt_pow (n := 992) (m := 32) (r := 1024) h c.isLt rfl

theorem bits_toNat {n : Nat} (w : BitVec n) (hi lo : Nat) : bits w hi lo = (w.toNat >>> lo) % 2 ^ (hi + 1 - lo) := by
  unfold bits; exact BitVec.extractLsb'_toNat ..

theorem split32 (hi k : Nat) (h : k < 2 ^ 32) : (hi * 2 ^ 32 + k) / 2 ^ 32 = hi ∧ (hi * 2 ^ 32 + k) % 2 ^ 32 = k := by omega

theorem flitOf_parts {hi : Nat} (h : hi < 2 ^ 992) (c : BitVec 32) :
    bits (flitOf hi c) 31 0 = c.toNat ∧ (flitOf hi c).toNat / 2 ^ 32 = hi := by
  rw [bits_toNat, flitOf_toNat h]
  exact ⟨(split32 _ _ c.isLt).2, (split32 _ _ c.isLt).1⟩

theorem flitOf_bits {hi : Nat} (h : hi < 2 ^ 992) (c : BitVec 32) (a b : Nat) :
    bits (flitOf hi c) (32 + a) (32 + b) = (hi >>> b) % 2 ^ (32 + a + 1 - (32 + b)) := by
  rw [bits_toNat, Nat.shiftRight_add, Nat.shiftRight_eq_div_pow _ 32, (flitOf_parts h c).2]

theorem flitOf_bit {hi : Nat} (h : hi < 2 ^ 992) (c : BitVec 32) (k : Nat) : (flitOf hi c).getLsbD (32 + k) = hi.testBit k := by
  rw [← BitVec.testBit_toNat, Nat.testBit, Nat.shiftRight_add, Nat.shiftRight_eq_div_pow _ 32, (flitOf_parts h c).2, Nat.testBit]

/-- Before the CRC: a SERVICE flit of SEQ 0 with no word in it, a slice with data 5Ah of tag 1 for lane 127, an IDLE that acknowledges
SEQ 4095. -/
def svcHi : Nat := 2 * 2 ^ 988
def sliceHi : Nat := 2 ^ 988 + (((1 * 16 + 7) * 2 ^ 16 + 2 ^ 15) * 2 ^ 8 + 0x5A) * 2 ^ 928
def ackHi : Nat := 4095 * 2 ^ 964 + 2 ^ 963

theorem svcHi_lt : svcHi < 2 ^ 992 := by decide +kernel
theorem sliceHi_lt : sliceHi < 2 ^ 992 := by decide +kernel
theorem ackHi_lt : ackHi < 2 ^ 992 := by decide +kernel

/-- The CRC clauses of FlitsOnTheLink: a right and a wrong one. -/
theorem wit_FlitCrc {hi : Nat} (h : hi < 2 ^ 992) :
    (let f := flitOf hi (crcOf hi)
     bits f 31 0 = (crc32Bits (bitsDown (f.toNat / 2 ^ 32) 992)).toNat) ∧
    (let f := flitOf hi (~~~ crcOf hi)
     bits f 31 0 ≠ (crc32Bits (bitsDown (f.toNat / 2 ^ 32) 992)).toNat) := by
  constructor
  · show bits (flitOf hi (crcOf hi)) 31 0 = _
    rw [(flitOf_parts h _).1, (flitOf_parts h _).2, crcOf_eq]
  · show bits (flitOf hi (~~~ crcOf hi)) 31 0 ≠ _
    rw [(flitOf_parts h _).1, (flitOf_parts h _).2, crcOf_eq, BitVec.toNat_not]
    omega

/-- The other fields of the three flits, whatever stands in the CRC's place. -/
theorem wit_FlitFields (c : BitVec 32) :
    ((flitOf svcHi c).getLsbD 995 = false ∧ State.flitType (flitOf svcHi c) = 2 ∧ bits (flitOf svcHi c) 1019 1008 = 0) ∧
    ((flitOf sliceHi c).getLsbD 995 = false ∧ State.flitType (flitOf sliceHi c) = 1 ∧ bits (flitOf sliceHi c) 1019 1008 = 0 ∧
      bits (flitOf sliceHi c) 991 32 = (((1 * 16 + 127 / 16) * 2 ^ 16 + 2 ^ (127 % 16)) * 2 ^ 8 + 0x5A) * 2 ^ 928) ∧
    ((flitOf ackHi c).getLsbD 995 = true ∧ State.flitType (flitOf ackHi c) = 0 ∧ bits (flitOf ackHi c) 1007 996 = 4095) := by
  have b := fun {hi : Nat} (h : hi < 2 ^ 992) => flitOf_bits h c
  have t := fun {hi : Nat} (h : hi < 2 ^ 992) => flitOf_bit h c 963
  unfold State.flitType
  refine ⟨⟨(t svcHi_lt).trans (by decide +kernel), (b svcHi_lt 991 988).trans (by decide +kernel),
      (b svcHi_lt 987 976).trans (by decide +kernel)⟩,
    ⟨(t sliceHi_lt).trans (by decide +kernel), (b sliceHi_lt 991 988).trans (by decide +kernel),
      (b sliceHi_lt 987 976).trans (by decide +kernel), (b sliceHi_lt 959 0).trans (by decide +kernel)⟩,
    ⟨(t ackHi_lt).trans (by decide +kernel), (b ackHi_lt 991 988).trans (by decide +kernel),
      (b ackHi_lt 975 964).trans (by decide +kernel)⟩⟩

/-- FlitsOnTheLink: what the port holds for each clause: nothing, flits to acknowledge, an episode, CTRL words to send, a full buffer, a
closed port, a replay under way. -/
theorem wit_FlitsOnTheLink :
    (let s := lnkIn 7 2
     s.lnkState 7 = 2 ∧ (s.port 7).expSeq = 0 ∧ (s.port 7).episode = false ∧ (s.port 7).schedIn = ⟨0, 0⟩ ∧ (s.port 7).closed = false ∧
      s.nextClass 7 = 0 ∧ (s.port 7).replay = [] ∧
      (let u := s.setReg (Reg.lnkChrx 7 127) 0xA0000000#32
       (u.reg (Reg.lnkChrx 7 127)).getLsbD 31 = true ∧ bits (u.reg (Reg.lnkChrx 7 127)) 30 29 = 1)) ∧
    (let x : Port := { Port.empty with replay := [0, 0], nextSeq := 1 }
     (4095 + 1 + 4096 - x.nextSeq + x.replay.length) % 4096 ≤ x.replay.length) ∧
    (({ Port.empty with episode := true, expSeq := 5 } : Port).episode = true ∧ (0 : Nat) ≠ 5) ∧
    (let s := (lnkIn 7 2).setPort 7 { Port.empty with ctrlOut := [creditRecord 0 3 1], nextSeq := 4095 }
     (s.port 7).replay[(s.port 7).resend]? = none ∧ (s.port 7).replay.length < 1024 ∧ s.nextClass 7 = 4 ∧ (s.port 7).nextSeq < 4096) ∧
    (let s := (lnkIn 7 2).setPort 7 { Port.empty with replay := [0], resend := 0 }
     (s.port 7).replay[(s.port 7).resend]? = some 0 ∧ (s.port 7).replay ≠ [] ∧ State.flitType 0 ≠ 1) ∧
    (let x : Port := { Port.empty with replay := List.replicate 1024 0, resend := 1024 }
     x.replay[x.resend]? = none ∧ 1024 ≤ x.replay.length) := by
  refine ⟨by decide +kernel, by decide +kernel, by decide, by decide +kernel, by decide +kernel, by decide +kernel⟩

/-- R305: SEQ wraps from 4095 to 0; the flit stays in the replay buffer until it is acknowledged. -/
theorem test_flit_send :
    (let t := after (.flitSend 7) ((lnkIn 7 2).setPort 7 { Port.empty with ctrlOut := [creditRecord 0 3 1], nextSeq := 4095 })
     (t.port 7).nextSeq = 0 ∧ (t.port 7).replay.map State.flitType = [4] ∧ (t.port 7).ctrlOut = []) := by decide +kernel

/-- Port 7 UP with a CTRL record received and words of fill behind it; the device has address 5. -/
def ctrlAt (w : BitVec 64) (rest : List (BitVec 64)) : State :=
  ((lnkIn 7 2).setFld Reg.fabCtrl 11 0 0x805).setPort 7 { Port.empty with ctrlIn := w :: rest }

/-- A record of a kind with its other bits (R323). -/
def rcd (kind v : Nat) : BitVec 64 := BitVec.ofNat 64 (kind * 2 ^ 56 + v)

/-- ControlRecordsAct: each kind; the token to this device of the present and the next cycle, to another device with and without
a route; a flood seen and not seen before. -/
theorem wit_ControlRecordsAct :
    (([rcd 4 (127 * 2 ^ 47 + 65535), rcd 5 (4095 * 2 ^ 44), rcd 6 0].all fun w =>
      decide (((ctrlAt w [0]).port 7).ctrlIn = w :: [0]) && (([0] : List (BitVec 64)).dropWhile fun z => State.recKind z == 0).isEmpty &&
        (State.recKind w == 4 || State.recKind w == 5 || State.recKind w == 6)) = true) ∧
    ((ctrlAt (rcd 6 0) []).fld Reg.ceStat 31 29 ≠ 5 ∧ ((ctrlAt (rcd 6 0) []).setFld Reg.ceStat 31 29 5).fld Reg.ceStat 31 29 = 5) ∧
    (let s := { (ctrlAt (rcd 3 0) []).setFlag Reg.dbgStat 31 true with seq := { Seq.reset with run := true } }
     State.recKind (rcd 3 0) = 3 ∧ s.seqState = 3 ∧ s.flag Reg.dbgStat 31 = true ∧ s.fab.seenSeq ≠ some 0) ∧
    (let x := { Port.empty with replay := [0], nextSeq := 0 }
     (bits (rcd 5 (4095 * 2 ^ 44)) 55 44 + 8192 - x.nextSeq + x.replay.length) % 4096 < x.replay.length ∧
      x.replay.length ≤ (bits (rcd 5 0) 55 44 + 8192 - x.nextSeq + x.replay.length) % 4096 ∧ x.epis.length < W.fld (Reg.lnkCtrl 7) 15 8) ∧
    (let w := rcd 1 (5 * 2 ^ 44 + 2047 * 2 ^ 33 + 1)
     let s := { ctrlAt w [] with seq := { Seq.reset with neigh := [2047] } }
     s.fabOwn (bits w 54 44) = true ∧ s.seq.neigh.contains (bits w 43 33) = true ∧
      s.seq.tok.contains ⟨bits w 43 33, w.setWidth 32⟩ = false ∧ (w.setWidth 32 : BitVec 32) = s.seq.cycle.setWidth 32 + 1) ∧
    (let w := rcd 1 (2047 * 2 ^ 44)
     let s := (ctrlAt w []).setReg (Reg.fabRt0 2047) (BitVec.ofNat 32 (2 ^ 31 + 7))
     s.fabOwn (bits w 54 44) = false ∧ (s.route (w.getLsbD 55) (bits w 54 44)).getLsbD 31 = true ∧
      s.routePort (s.route (w.getLsbD 55) (bits w 54 44)) = some 7 ∧
      ((ctrlAt w []).route (w.getLsbD 55) (bits w 54 44)).getLsbD 31 = false) ∧
    (let w := rcd 2 (255 * 2 ^ 48)
     let s := { ctrlAt w [] with fab := { Fab.empty with seenSeq := some 255 } }
     s.fab.seenSeq = some (bits w 55 48) ∧ (ctrlAt w []).fab.seenSeq ≠ some (bits w 55 48) ∧
      State.cycBefore (w.setWidth 48) (ctrlAt w []).seq.cycle = false ∧ (ctrlAt w []).flag Reg.dbgStat 31 = false ∧ (ctrlAt w []).dbg.reached = none) := by decide +kernel

/-- R338: a token of the next cycle from a neighbour is recorded; one two cycles on is discarded. -/
theorem test_token :
    (let s := fun (k : Nat) => { ctrlAt (rcd 1 (5 * 2 ^ 44 + 3 * 2 ^ 33 + k)) [] with seq := { Seq.reset with neigh := [3] } }
     (after (.token 7) (s 1)).seq.tok = [⟨3, 1⟩] ∧ (after (.token 7) (s 2)).seq.tok = [] ∧
     (after (.token 7) (s 2)).flag Reg.fabTok 30 = true) := by decide +kernel

/-- DiscoveryRecordsAct: a PREPLY that agrees and one that does not; a report here and on the way; a claim, an exploration and an
unclaim. -/
theorem wit_DiscoveryRecordsAct :
    (let w := rcd 7 (2 ^ 55 + 9 * 2 ^ 44)
     let s := ctrlAt w [0x55]
     (s.port 7).ctrlIn = w :: 0x55 :: [] ∧ s.lnkState 7 = 2 ∧ (rcd 7 0).getLsbD 55 = false ∧
      tget (fun _ => none) { s with fab := { s.fab with peers := [(7, some 9)] } }.fab.peers 7 = some (bits w 54 44) ∧
      { s with fab := { s.fab with probing := some 7 } }.fab.probing = some 7 ∧ s.fabAddr ≠ 0 ∧ State.recKind w = 7 ∧ w.getLsbD 55 = true ∧ s.fab.probing ≠ some 7 ∧
      tget (fun _ => none) s.fab.peers 7 = none ∧
      tget (fun _ => none) { s with fab := { s.fab with peers := [(7, some 8)] } }.fab.peers 7 = some 8 ∧ (8 : Nat) ≠ bits w 54 44) ∧
    (let w := rcd 10 (2047 * 2 ^ 45 + 6 * 2 ^ 42 + 1 * 2 ^ 40)
     let s := { (ctrlAt w [0x55]).setFld Reg.fabCtrl 11 0 0x800 with fab := { Fab.empty with now := some 2047, next := 2047 } }
     State.recKind w = 10 ∧ (ctrlAt w [0x55]).fabOwn 0 = false ∧ s.fabOwn 0 = true ∧ s.fab.now = some (bits w 55 45) ∧
      bits (rcd 10 0) 41 40 = 0 ∧ bits (rcd 10 (2 * 2 ^ 40)) 41 40 = 2 ∧ bits (rcd 10 (3 * 2 ^ 40)) 41 40 = 3 ∧
      { s with fab := { s.fab with now := some 1 } }.fab.now ≠ some (bits w 55 45) ∧ bits w 41 40 = 1 ∧ s.fab.next ≤ 2047 ∧ bits w 44 42 < 7 ∧ (s.fab.topo.any fun y => y.2.id == 0x55) = false) ∧
    (let s := (ctrlAt (rcd 8 0) []).setFld Reg.fabCtrl 11 0 0
     State.recKind (rcd 8 0) = 8 ∧ s.fabAv = false ∧ (ctrlAt (rcd 8 0) []).fabAv = true) ∧
    (let w := rcd 9 (5 * 2 ^ 45)
     State.recKind w = 9 ∧ (ctrlAt w []).fabOwn (bits w 55 45) = true ∧
      ((ctrlAt w []).setFld (Reg.lnkStat 0) 31 29 2).lnkState 0 = 2 ∧ (ctrlAt (rcd 9 0) []).fabOwn (bits (rcd 9 0) 55 45) = false) ∧
    (let w := rcd 11 0
     State.recKind w = 11 ∧ (ctrlAt w []).fab.seenSeq ≠ some (bits w 55 48) ∧
      { ctrlAt w [] with fab := { Fab.empty with seenSeq := some 0 } }.fab.seenSeq = some (bits w 55 48)) := by decide +kernel

/-- R347: a far end other than the one the image names closes the port. -/
theorem test_preply_closes :
    (let s := ctrlAt (rcd 7 (2 ^ 55 + 9 * 2 ^ 44)) [0x55]
     let t := after (.preply 7) { s with fab := { s.fab with peers := [(7, some 8)] } }
     (t.port 7).closed = true ∧ t.flag Reg.seqFault 4 = true ∧ t.reg (Reg.lnkPeer 7) = BitVec.ofNat 32 (2 ^ 31 + 9 * 2 ^ 16)) := by
  decide +kernel

/-- DiscoveryStartsAndEpochsSwitch: the last port and one before; discovery with and without a channel loaded. -/
theorem wit_DiscoveryStartsAndEpochsSwitch :
    (let s := { lnkIn 7 2 with fab := { Fab.empty with probing := some 6 } }
     s.fab.probing = some 6 ∧ s.lnkState (6 + 1) = 2 ∧ { s with fab := { Fab.empty with probing := some 7 } }.fab.probing = some 7) ∧
    (let v := BitVec.ofNat 32 (2 ^ 30)
     W.regNow .host Reg.fabCtrl true false (setBit v 31 true) = true ∧ W.regNow .host Reg.fabCtrl true false (setBit 0 31 true) = true ∧
      W.regNow .host Reg.fabRtCtrl true false (setBit 0 31 true) = true ∧
     (if W.flag Reg.fabCtrl 29 then W.flag Reg.fabCtrl 30 else v.getLsbD 30) = true ∧ W.channelLoaded = false ∧
      (W.setFlag (Reg.lnkChrx 7 127) 31 true).channelLoaded = true) := by decide +kernel

/-- A remote packet for an address, from this device or from a link. -/
def rp (dest port cmd hops : Nat) : FabPkt :=
  { dest := dest, src := 5, e := false, hops := hops, bulk := false, port := port, pk := { pk0 with cmd := cmd }, late := false }

def arrivedAt (f : FabPkt) : State := ((lnkIn 7 2).setFld Reg.fabCtrl 11 0 0x805).setPort 7 { Port.empty with arrived := [f] }

/-- RemotePackets: a response here; a packet passed on at 30 hops; held; without a route; a NACK; windows; a request here. -/
theorem wit_RemotePackets :
    (let s := arrivedAt (rp 5 3 7 0)
     (s.port 7).arrived[0]? = some (rp 5 3 7 0) ∧ s.fabOwn 5 = true) ∧
    (let s := (arrivedAt (rp 9 3 0 30)).setReg (Reg.fabRt0 9) (BitVec.ofNat 32 (2 ^ 31 + 7))
     s.fabOwn 9 = false ∧ (rp 9 3 0 30).e = s.epoch ∧ (s.route false 9).getLsbD 31 = true ∧
      s.routePort (s.route false 9) = some 7 ∧ State.hopsOut (rp 9 3 0 30) ≤ 31 ∧ 31 < State.hopsOut (rp 9 3 0 31)) ∧
    (let f : FabPkt := { rp 9 3 0 0 with e := true }
     let s := ((arrivedAt f).setReg (Reg.fabRt1 9) (BitVec.ofNat 32 (2 ^ 31 + 7))).setPort 7
       { Port.empty with arrived := [f], heldPk := [{ f with late := true }] }
     s.fabOwn 9 = false ∧ f.e ≠ s.epoch ∧ s.routePort (s.route true 9) = some 7 ∧
      ((s.port 7).heldPk.any fun g => State.sameFlow f g && g.late) = true) ∧
    (arrivedAt (rp 9 3 0 0)).route false 9 = 0 ∧
    (let s := W.setPort 7 { Port.empty with arrived := [rp 9 3 0 0, rp 9 3 0 0] }
     ((s.port 7).arrived.take 1).any (State.sameFlow (rp 9 3 0 0)) = true) ∧
    (let s := (arrivedAt (rp 9 8 0 0)).setReg (Reg.fabRt0 9) (BitVec.ofNat 32 (2 ^ 31 + 6))
     s.routePort (s.route false 9) = none ∧ ((arrivedAt (rp 9 8 0 0)).route false 9).getLsbD 31 = false) ∧
    (let s := W.setPort 7 { Port.empty with heldPk := [rp 9 8 0 0] }
     (s.port 7).heldPk[0]? = some (rp 9 8 0 0) ∧ ((W.setPort 7 { Port.empty with heldPk := [rp 9 3 0 0] }).port 7).heldPk[0]? = some (rp 9 3 0 0)) ∧
    (let pk : Packet := { pk0 with addr := phys 0 (portNode 7) 0x80000 }
     let s := W.setSrvAt (portNode 7) [pk]
     (s.srvAt (portNode 7))[0]? = some pk ∧ aSpace pk.addr = 0 ∧ 0x80000 ≤ aOff pk.addr ∧ aOff pk.addr < 0xC0000 ∧
      s.lockWaits (portNode 7) pk = false ∧ (s.reg (Reg.fabRwinHi 7 0)).getLsbD 31 = false ∧
      ((s.setFlag (Reg.fabRwinHi 7 0) 31 true).reg (Reg.fabRwinHi 7 0)).getLsbD 31 = true) ∧
    (let f : FabPkt := { rp 5 3 0 0 with pk := rdCe }
     let s := arrivedAt f
     let node := portNode 7
     let pk : Packet := { f.pk with sx := node % 10, sy := node / 10, mid := 0, ctx := s.ctxOf node 0 f.pk.ctx, slot := 0, cls := 0, resp := 0 }
     ((s.port 7).arrived.findIdx? fun f => s.fabOwn f.dest && f.pk.cmd != 7) = some 0 ∧ s.freeSlot node 0 = some 0 ∧
      (s.master node 0).frozen = false ∧ State.formatCause pk = 0 ∧ s.contextCause pk = 0 ∧ (s.destOf pk.addr).isSome = true ∧
      pk.cmd ≠ 8) := by decide +kernel

/-- DiscoveryStartsAndEpochsSwitch, the switch: a packet held for the epoch that begins, and one of the epoch that ends. -/
theorem wit_EpochSwitch :
    (let s := fun (e : Bool) => (W.setReg (Reg.fabRt1 9) (BitVec.ofNat 32 (2 ^ 31 + 7))).setFld (Reg.lnkStat 7) 31 29 2 |>.setPort 3
       { Port.empty with heldPk := [{ rp 9 8 0 0 with late := true, e := e }] }
     let f : FabPkt := { rp 9 8 0 0 with late := true, e := true }
     ((s true).port 3).heldPk = [f] ∧ f.late = true ∧ (∀ q, q < 8 → q ≠ 3 → ((s true).port q).heldPk = []) ∧ f.e ≠ (s true).epoch ∧
      ((s true).route f.e f.dest).getLsbD 31 = true ∧ (s true).routePort ((s true).route f.e f.dest) = some 7 ∧ State.hopsOut f ≤ 31 ∧
      ({ f with e := false } : FabPkt).e = (s false).epoch) := by decide +kernel

/-- R329: a packet passed on counts one hop more; at 31 hops it is not passed on. -/
theorem test_hops :
    (let s := fun h => (arrivedAt (rp 9 3 0 h)).setReg (Reg.fabRt0 9) (BitVec.ofNat 32 (2 ^ 31 + 7))
     (((after (.fabricPacketRoute 7 0) (s 30)).port 7).svcQ = [rp 9 3 0 30] ∧ State.hopsOut (rp 9 3 0 30) = 31) ∧
     ((after (.fabricPacketRoute 7 0) (s 31)).port 7).svcQ = []) := by decide +kernel

/-! ### Loading, the configuration store, the dawn, regions -/

/-! #### The cryptographic functions, on published vectors -/

/-- FIPS 180-4: SHA-384 of "abc". -/
theorem test_sha384 : sha384 [0x61, 0x62, 0x63] =
    0xcb00753f45a35e8bb5a03d699ac65007272c32ab0eded1631a8b605a43ff5bed8086072ba1e7cc2358baeca134c825a7#384 := by decide +kernel

/-- RFC 4231 case 1: HMAC-SHA-384 of "Hi There" under twenty bytes 0Bh, which zeros extend. -/
theorem test_hmac : hmacSha384 0x0b0b0b0b0b0b0b0b0b0b0b0b0b0b0b0b0b0b0b0b000000000000000000000000#256
    [0x48, 0x69, 0x20, 0x54, 0x68, 0x65, 0x72, 0x65] =
    0xafd03944d84895626b0825f4ab46907f15f9dadbe4101ec682aa034c7cebc59cfaea9ea9076ede7f4af152e8b2fa9cb6#384 := by decide +kernel

/-- FIPS 197, appendix C.3: AES-256 of one block. -/
theorem test_aes : aesEncrypt (aesKeys 0x000102030405060708090a0b0c0d0e0f101112131415161718191a1b1c1d1e1f#256)
    0x00112233445566778899aabbccddeeff = 0x8ea2b7ca516745bfeafc49904b496089 := by decide +kernel

/-- The GCM specification, case 14: sixteen zero bytes. -/
theorem test_gcm : aesGcmOpen 0 0 [] (beBytes 16 0xcea7403d4d606b6e074ec5d3baf39d18) 0xd0d1c8a799996bf0265b98b5d48ab919#128 =
    some (List.replicate 16 0) := by decide +kernel

/-- The public key of RFC 6979, A.2.6. -/
def rfcKey : BitVec 768 :=
  0xEC3A4E415B4E19A4568618029F427FA5DA9A8BC4AE92E02E06AAE5286B300C64DEF8F0EA9055866064A254515480BC138015D9B72D7D57244EA8EF9AC0C621896708A59367F9DFB9F54CA84B3F1C9DB1288B231C3AE0D4FE7344FD2533264720#768

/-- RFC 6979, A.2.6: the signature of "sample" with SHA-384 holds. -/
theorem test_ecdsa : ecdsaOk rfcKey (sha384 [0x73, 0x61, 0x6d, 0x70, 0x6c, 0x65])
    0x94EDBB92A5ECB8AAD4736E56C691916B3F88140666CE9FA73D64C4EA95AD133C81A648152E44ACF96E36DD1E80FABE4699EF4AEB15F178CEA1FE40DB2603138F130E740A19624526203B6351D0A3A94FA329C145786E679E7B82C71A38628AC8#768 = true := by
  decide +kernel

/-! #### Loads -/

/-- A load in a state of CE_STAT (R394). -/
def loadIn (ld : Option Load) (st : Nat) : State := { (W.setFld Reg.ceStat 31 29 st) with load := ld }

/-- The region load of tile 0 from slot B, with its job. -/
def regionIn : State :=
  (loadIn (some (Load.start (some 0) 2 0)) 4).setTile 0 { Tile.empty with job := some ⟨7, 3, 0, 3, true, 0⟩ }

/-- LoadsStartAndAbort: no load, one that has gone on, with and without an abort; an abort in LOADING and RETRY, of a region load, of
no load and of a VERIFY. -/
theorem wit_LoadsStartAndAbort :
    ((loadIn none 0).regNow .host Reg.ceCtrl true false (setBit 0#32 31 true) = true ∧ (0#32).getLsbD 28 = false ∧
     (loadIn none 0).fullLoading = false ∧ (loadIn none 0).load = none ∧ (loadIn none 0).store.op = none) ∧
    ((loadIn (some (Load.start none 1 0)) 1).regNow .host Reg.ceCtrl true false (setBit 0#32 31 true) = true ∧
     (loadIn (some (Load.start none 1 0)) 1).fullLoading = true) ∧
    ((0x80000000#32).getLsbD 31 = true ∧ (0#32).getLsbD 31 = false ∧
     ([1, 2].all fun st =>
        let s := loadIn (some (Load.start none 5 0)) st
        s.regNow .host Reg.ceCtrl true false (setBit 0#32 28 true) && decide (s.store.op = none) &&
          decide (s.load = some (Load.start none 5 0)) && s.fld Reg.ceStat 31 29 == st) = true) ∧
    (regionIn.regNow .host Reg.ceCtrl true false (setBit 0#32 28 true) = true ∧ regionIn.store.op = none ∧
     regionIn.load = some (Load.start (some 0) 2 0) ∧ (regionIn.tile 0).job = some ⟨7, 3, 0, 3, true, 0⟩) ∧
    (let s := { loadIn none 0 with store := { Store.factory with op := some ⟨3, 1, 0, 0, 0⟩ } }
     s.regNow .host Reg.ceCtrl true false (setBit 0#32 28 true) = true ∧ s.store.op = some ⟨3, 1, 0, 0, 0⟩ ∧ s.load = none) := by
  decide +kernel

/-- R378, R376: an abort of a user load records 0Eh and turns to the golden image. -/
theorem test_load_abort :
    (let t := after (.loadAbort 0) (loadIn (some (Load.start none 2 0)) 1)
     t.fld Reg.ceLerr 7 0 = 0x0E ∧ t.load = some (Load.start none 3 0) ∧ t.fld Reg.ceStat 31 29 = 3) := by decide +kernel

/-- The configuration store with a slot WRITTEN, frame n of which holds 4,092 bytes sealed with their CRC. -/
def storeOf (slot n : Nat) (body : List (BitVec 8)) : Store :=
  { Store.factory with dir := { Directory.empty with slot := [(slot, 2)] },
                       pages := [(1024 * homeBlock slot (n / 1024) + n % 1024, some (pageOf (sealedFrame body)))] }

/-- A load of a slot at frame n, which stands in the store as given. -/
def loadAt (ld : Load) (body : List (BitVec 8)) : State := { loadIn (some ld) 1 with store := storeOf (ld.src - 1) ld.frame body }

/-- A load of a slot reads the frame that stands there. -/
theorem storeOf_readFrame (s : State) (ld : Load) (body : List (BitVec 8)) (hs : s.store = storeOf (ld.src - 1) ld.frame body)
    (h : body.length = 4092) (h5 : ld.src ≠ 5) :
    s.readFrame ld [] = (s.countRead (homeBlock (ld.src - 1) (ld.frame / 1024)), some (sealedFrame body)) := by
  unfold State.readFrame
  rw [if_neg h5]
  have e : s.page (ld.src - 1) ld.frame = some (pageOf (sealedFrame body)) := by
    simp [State.page, State.blockOf, hs, storeOf, tget, Directory.empty]
  rw [e, Option.map_some, pageBytes_pageOf _ (sealedFrame_length body h)]

theorem loadAt_readFrame (ld : Load) (body : List (BitVec 8)) (h : body.length = 4092) (h5 : ld.src ≠ 5) :
    (loadAt ld body).readFrame ld [] =
      ((loadAt ld body).countRead (homeBlock (ld.src - 1) (ld.frame / 1024)), some (sealedFrame body)) :=
  storeOf_readFrame _ _ _ rfl h h5

/-- 4,092 zero bytes: no header, since its MAGIC is wrong. -/
def zeros : List (BitVec 8) := List.replicate 4092 0

/-- The first 320 bytes of a header of a user image: assumed latencies of both kinds, XDL-64, one tile, two frames, key slots 1, the
wrapped key of RFC 3394, the public key of RFC 6979, and a signature made with its private key (R355, R363, R364). -/
def hdrHead : List (BitVec 8) := beBytes 320
  0x58444c49000101010101010300000101000000020000000000000000000000000000000028c9f404c4b810f4cbccb35cfb87f8263f5786e2d80ed326cbc7f0e71a99f43bfb988b9b7a02dd2100000000000000000000000000000000000000000000000000000000000000000000000000000000000000000000000004ec3a4e415b4e19a4568618029f427fa5da9a8bc4ae92e02e06aae5286b300c64def8f0ea9055866064a254515480bc138015d9b72d7d57244ea8ef9ac0c621896708a59367f9dfb9f54ca84b3f1c9db1288b231c3ae0d4fe7344fd2533264720000000283c1d7365ce4788f29f8ebf234edffead6fe997fbea5ffa2d58cc9dfa7b1c508b05526f55b9ebb2040f05b48fb6d0e119a1b31564d5768e6bbc05e9064330fcac0dc40ef5f8ac1df94db2a940cee9540134bc432a96c44e03bb261d2885b020

def hdr : List (BitVec 8) := hdrHead ++ List.replicate 3772 0

/-- The load that waits for the header. -/
def ldHdr : Load := Load.start none 2 0

/-- The fuses of the owner: the hash of the public key in slot 1, the key of RFC 3394 in device key slot 1, both slots programmed
(R363, R364, R491). -/
def ownFuses : Tab (BitVec 32) :=
  ([0xebe1f3b0, 0xfed114ea, 0xf158783d, 0x8c3227f2, 0xd8e05ea9, 0x82ef00c6, 0x4a08460b, 0x4649011f, 0xe3da6e29, 0x1a22af14,
    0x445ccae1, 0x981dff5b].zipIdx.map fun e => (12 + e.2, BitVec.ofNat 32 e.1)) ++
  ((List.range 8).map fun k => (64 + 8 + k, BitVec.ofNat 32 (0x00010203 + 0x04040404 * k))) ++ [(64 * 3, 0x202#32)]

/-- The load of the signed header on a device with these fuses. -/
def fusedLoad : State := { loadAt ldHdr hdr with fusesIn := ownFuses }

theorem hdr_length : hdr.length = 4092 := by
  simp only [hdr, hdrHead, beBytes, List.length_append, List.length_reverse, bytesOf_length, List.length_replicate]

/-- Whether a check answers a code. -/
def failsWith (c : Nat) : Except Nat Load → Bool
  | .error k => k == c
  | .ok _ => false

/-- Whether a check passes with a load of the device. -/
def passesFull : Except Nat Load → Bool
  | .error _ => false
  | .ok ld => ld.region == none

theorem passesFull_ok {r : Except Nat Load} (h : passesFull r = true) : ∃ ld, r = .ok ld ∧ ld.region = none := by
  cases r with
  | error c => cases h
  | ok ld => exact ⟨ld, rfl, by simpa [passesFull] using h⟩

/-- LoadsReadTheirFrames: a header whose MAGIC is wrong, with a right CRC (code 1, R370). -/
theorem wit_LoadHeaderFails :
    (loadAt ldHdr zeros).load = some ldHdr ∧ ldHdr.region = none ∧ (loadAt ldHdr zeros).fld Reg.ceStat 31 29 ≠ 3 ∧
    ldHdr.header = false ∧ (loadAt ldHdr zeros).fld Reg.sprStat 31 29 ≠ 1 ∧ (loadAt ldHdr zeros).readWaits ldHdr = false ∧
    ((loadAt ldHdr zeros).readFrame ldHdr []).2 = some (sealedFrame zeros) ∧ frameCrcOk (sealedFrame zeros) = true ∧
    failsWith 1 ((loadAt ldHdr zeros).checkHeader ldHdr (sealedFrame zeros)) = true := by
  have h : zeros.length = 4092 := List.length_replicate
  exact ⟨rfl, rfl, by decide +kernel, rfl, by decide +kernel, by decide +kernel, congrArg Prod.snd (loadAt_readFrame ldHdr zeros h (by decide)),
    frameCrcOk_sealed zeros h, by decide +kernel⟩

/-- The signed header passes every check of R370 step 3; its wrapped key is the vector of RFC 3394, 4.6. -/
theorem test_header_signed : passesFull (fusedLoad.checkHeader ldHdr (sealedFrame hdr)) = true := by decide +kernel

/-- LoadsReadTheirFrames: a header that passes. -/
theorem wit_LoadHeaderPasses :
    fusedLoad.load = some ldHdr ∧ fusedLoad.fld Reg.ceStat 31 29 ≠ 3 ∧ fusedLoad.fld Reg.sprStat 31 29 ≠ 1 ∧
    fusedLoad.readWaits ldHdr = false ∧ (fusedLoad.readFrame ldHdr []).2 = some (sealedFrame hdr) ∧
    frameCrcOk (sealedFrame hdr) = true ∧
    ∃ ld', fusedLoad.checkHeader ldHdr (sealedFrame hdr) = .ok ld' ∧ ld'.region = none :=
  ⟨rfl, by decide +kernel, by decide +kernel, by decide +kernel, congrArg Prod.snd (storeOf_readFrame _ ldHdr hdr rfl hdr_length (by decide)),
    frameCrcOk_sealed hdr hdr_length, passesFull_ok test_header_signed⟩

/-- Frame 1 with no byte of records (R357): its type, and its tag under the key 0 and the nonce 0. -/
def bare (ty : BitVec 8) (tag : Nat) : List (BitVec 8) :=
  beBytes 4 1 ++ ty :: List.replicate 4051 0 ++ beBytes 16 tag ++ List.replicate 20 0

def frameGoOn : List (BitVec 8) := bare 0 0x2398e49ca187312f0210d0d0deb421a
def frameLast : List (BitVec 8) := bare 2 0x96432cfbb5587cf82d1eae3b763926cd

theorem bare_length (ty : BitVec 8) (tag : Nat) : (bare ty tag).length = 4092 := by
  simp only [bare, beBytes, List.length_append, List.length_reverse, bytesOf_length, List.length_replicate, List.length_cons]

/-- Whether frame 1 opens under the key 0 and the nonce 0. -/
def opens (l : List (BitVec 8)) : Bool :=
  (aesGcmOpen 0 1 (l.take 16 ++ (l.drop 4008).take 48) ((l.drop 16).take 3992) (BitVec.ofNat 128 (fieldBE l 4056 16))).isSome

theorem test_frame_goes_on : opens (sealedFrame frameGoOn) = true := by decide +kernel
theorem test_frame_last : opens (sealedFrame frameLast) = true := by decide +kernel

/-- A load at frame 1 of n, with the hash of a frame. -/
def ldAt1 (src n : Nat) (body : List (BitVec 8)) : Load :=
  { Load.start none src 0 with header := true, frame := 1, fcount := n, hash := sha384 ((sealedFrame body).take 4072) }

theorem ldAt1_hash (src n : Nat) (body : List (BitVec 8)) :
    (ldAt1 src n body).hash = sha384 ((sealedFrame body).take 4072) := rfl

/-- What a frame with no byte of records leaves of the load, when everything about it holds. -/
theorem bare_checked (ld : Load) (l : List (BitVec 8)) (hf : ld.frame = 1) (hk : ld.key = 0) (hn : ld.nonce = 0) (he : ld.epoch = 0)
    (hh : ld.hash = sha384 (l.take 4072))
    (form : ¬ (fieldBE l 0 4 ≠ 1 ∨ (fieldBE l 4 1 ≠ 0 ∧ fieldBE l 4 1 ≠ 2) ∨ fieldBE l 8 4 ≠ 0 ∨ fieldBE l 5 1 ≠ 0 ∨
      !allZero ((l.drop 12).take 4) ∨ !allZero ((l.drop 4072).take 20) ∨ 3992 < fieldBE l 6 2))
    (len : fieldBE l 6 2 = 0) (last : (fieldBE l 4 1 = 2) = (1 = ld.fcount)) (aes : opens l = true) :
    checkFrame ld l = .ok { ld with hash := BitVec.ofNat 384 (fieldBE l 4008 48) } := by
  obtain ⟨p, hp⟩ := Option.isSome_iff_exists.mp aes
  unfold checkFrame
  dsimp only
  rw [hf, hk, hn, he, if_neg form, if_neg (by simp [last]), if_neg (by simp [hh]), if_neg (by decide)]
  have e : BitVec.ofNat 96 ((0 : BitVec 64).toNat * 2 ^ 32 + 1) = 1 := by decide
  rw [e, hp, len]
  cases ld
  simp_all

/-- A load whose every frame holds no record has done with it what its end asks. -/
theorem bare_done (s : State) (ld : Load) (l : List (BitVec 8)) (ports : Bool)
    (chk : checkFrame ld l = .ok { ld with hash := BitVec.ofNat 384 (fieldBE l 4008 48) }) (hs : ld.stream = []) :
    s.doFrame State.loadWrite ld l ports =
      let ld := { ld with hash := BitVec.ofNat 384 (fieldBE l 4008 48) }
      if ld.frame < ld.fcount then .ok s { ld with frame := ld.frame + 1 } false
      else match s.endChecks ld ports with
        | .error (c, b) => .fail s ld c 0 b
        | .ok s => .ok s ld true := by
  have e : ∀ n, State.doStream State.loadWrite (n + 1) s { ld with hash := BitVec.ofNat 384 (fieldBE l 4008 48) } =
      .ok s { ld with hash := BitVec.ofNat 384 (fieldBE l 4008 48) } := by
    intro n
    unfold State.doStream
    dsimp only
    rw [if_pos (Or.inr (by rw [hs]; decide))]
  unfold State.doFrame
  rw [chk]
  dsimp only
  rw [e]
  all_goals
    dsimp only
    split
    · rfl
    · cases s.endChecks { ld with hash := BitVec.ofNat 384 (fieldBE l 4008 48) } ports <;> rfl

theorem bare_ends (s : State) (ld : Load) (l : List (BitVec 8))
    (chk : checkFrame ld l = .ok { ld with hash := BitVec.ofNat 384 (fieldBE l 4008 48) }) (hs : ld.stream = [])
    (hf : ld.frame = ld.fcount) (h : ∃ v, s.endChecks { ld with hash := BitVec.ofNat 384 (fieldBE l 4008 48) } true = .ok v) :
    ∃ u ld', s.doFrame State.loadWrite ld l true = .ok u ld' true ∧ ld'.region = ld.region := by
  obtain ⟨v, hv⟩ := h
  rw [bare_done s ld l true chk hs]
  dsimp only
  rw [if_neg (by omega), hv]
  exact ⟨_, _, rfl, rfl⟩

/-- LoadsReadTheirFrames: a frame that passes, after which the load goes on. -/
theorem wit_FrameGoesOn :
    let ld := ldAt1 2 2 frameGoOn
    let s := loadAt ld frameGoOn
    s.load = some ld ∧ ld.header = true ∧ s.fld Reg.ceStat 31 29 ≠ 3 ∧ s.loadDark ld = [] ∧ s.readWaits ld = false ∧
    (s.readFrame ld []).2 = some (sealedFrame frameGoOn) ∧ frameCrcOk (sealedFrame frameGoOn) = true ∧
    ∃ u ld', (s.readFrame ld []).1.doFrame State.loadWrite ld (sealedFrame frameGoOn) true = .ok u ld' false ∧ ld'.region = none := by
  have r := loadAt_readFrame (ldAt1 2 2 frameGoOn) frameGoOn (bare_length _ _) (by decide)
  refine ⟨rfl, rfl, by decide +kernel, by decide +kernel, by decide +kernel, by rw [r], frameCrcOk_sealed _ (bare_length _ _), ?_⟩
  have chk := bare_checked (ldAt1 2 2 frameGoOn) (sealedFrame frameGoOn) rfl rfl rfl rfl (ldAt1_hash 2 2 frameGoOn) (by decide +kernel) (by decide +kernel)
    (by decide +kernel) test_frame_goes_on
  rw [r, bare_done _ _ _ _ chk rfl]
  exact ⟨_, _, rfl, rfl⟩

/-- LoadsReadTheirFrames: the last frame of a golden image, whose END record agreed with it. -/
def ldGolden : Load := { ldAt1 3 1 frameLast with ended := some true }

/-- Whether the end of a load finds nothing wrong. -/
def endsWell : Except (Nat × Option Bad) State → Bool
  | .error _ => false
  | .ok _ => true

theorem endsWell_ok {r : Except (Nat × Option Bad) State} (h : endsWell r = true) : ∃ s, r = .ok s := by
  cases r with
  | error c => cases h
  | ok s => exact ⟨s, rfl⟩

theorem wit_LastFrame :
    let s := loadAt ldGolden frameLast
    s.load = some ldGolden ∧ s.loadDark ldGolden = [] ∧ s.readWaits ldGolden = false ∧
    (s.readFrame ldGolden []).2 = some (sealedFrame frameLast) ∧ frameCrcOk (sealedFrame frameLast) = true ∧
    ∃ u ld', (s.readFrame ldGolden []).1.doFrame State.loadWrite ldGolden (sealedFrame frameLast) true = .ok u ld' true ∧
      ld'.region = none := by
  have r := loadAt_readFrame ldGolden frameLast (bare_length _ _) (by decide)
  refine ⟨rfl, by decide +kernel, by decide +kernel, by rw [r], frameCrcOk_sealed _ (bare_length _ _), ?_⟩
  have chk := bare_checked ldGolden (sealedFrame frameLast) rfl rfl rfl rfl (ldAt1_hash 3 1 frameLast) (by decide +kernel) (by decide +kernel)
    (by decide +kernel) test_frame_last
  rw [r]
  exact bare_ends _ ldGolden _ chk rfl rfl (endsWell_ok (by decide +kernel))

/-! A device whose lanes and clusters hold nothing has nothing to trace and to pad. -/

theorem delivers_nothing (s : State) (hl : s.lanes = []) (hc : s.clus = []) (u : LaneId) : s.delivers (fun _ _ => 0) u = 0 := by
  unfold State.delivers
  split
  · simp [State.clu, hc, Cluster.laneAt, Cluster.empty, owr]
  · rfl
  · simp [State.lane, hl, Lane.empty]

theorem firstBad_nothing (s : State) (f : LaneId → Option Bad) (l : List LaneId) (h : ∀ x, f x = none) : s.firstBad f l = .ok s := by
  unfold State.firstBad
  rw [List.findSome?_eq_none_iff.mpr fun x _ => h x]

theorem overEntries_nothing (s : State) (hl : s.lanes = []) (p : LaneId → Bool) (f : State → LaneId → Nat → Except Bad State)
    (l : List LaneId) : s.overEntries p f l = .ok s := by
  unfold State.overEntries
  have n : ∀ x, (s.lane x).n = 0 := fun x => by simp [State.lane, hl, Lane.empty]
  induction l with
  | nil => rfl
  | cons x l ih =>
    have e : (if p x then (List.range (s.lane x).n).foldlM (fun s k => f s x k) s else .ok s) = Except.ok s := by
      rw [n x]
      split <;> rfl
    rw [List.foldlM_cons, e]
    exact ih

theorem padTile_nothing (s : State) (hl : s.lanes = []) (hc : s.clus = []) (t : Nat) : s.padTile (fun _ _ => 0) t = .ok s := by
  have n : ∀ x, (s.lane x).n = 0 := fun x => by simp [State.lane, hl, Lane.empty]
  unfold State.padTile
  rw [firstBad_nothing _ _ _ fun x => by simp [State.traceLane, Lane.entries, n]]
  dsimp only [Except.bind, bind]
  rw [firstBad_nothing _ _ _ fun x => by simp [State.traceLost, delivers_nothing s hl hc]]
  dsimp only [Except.bind]
  rw [firstBad_nothing _ _ _ fun x => by simp [State.traceEnds, n]]
  dsimp only [Except.bind]
  exact overEntries_nothing s hl _ _ _

theorem padBorder_nothing (s : State) (hl : s.lanes = []) (hc : s.clus = []) (t : Nat) : s.padBorder t = .ok s := by
  have n : ∀ x, (s.lane x).n = 0 := fun x => by simp [State.lane, hl, Lane.empty]
  have z : ∀ l : List LaneId, ∀ (g : Nat → LaneId → Nat), (∀ k x, g k x = k) → l.foldl g 0 = 0 := by
    intro l g h
    induction l with
    | nil => rfl
    | cons x l ih => rw [List.foldl_cons, h]; exact ih
  unfold State.padBorder
  rw [firstBad_nothing _ _ _ fun x => by simp [State.traceLost, delivers_nothing s hl hc]]
  dsimp only [Except.bind, bind]
  exact firstBad_nothing _ _ _ fun x => by
    exact if_pos ((z _ _ fun k x => by simp [Lane.entries, n]).trans (n x).symm)

/-- A region load whose tile group has been written ends well on such a device. -/
theorem region_ends (s : State) (ld : Load) (hl : s.lanes = []) (hc : s.clus = []) (hd : s.domState 0 ≠ 6) (h1 : ld.region = some 0)
    (h2 : ld.ended = some true) (h3 : ld.group = none) (h4 : ld.stream = []) (h5 : ld.groups = [0]) (h6 : ld.misuse = []) :
    ∃ v, s.endChecks ld true = .ok v := by
  have code : State.endCode ld = 0 := by simp [State.endCode, h2, h3, h4]
  have rest : s.writeRest ld = s := by
    unfold State.writeRest
    rw [h1]
    simp [h5, State.idleBeyond, hc, tmap]
    cases s
    simp_all
  unfold State.endChecks
  rw [code, if_neg (by simp), if_neg (by simp [h1]), if_neg (by simp [State.loadTiles, h1, h5])]
  dsimp only
  rw [rest, h1]
  dsimp only
  rw [h6]
  dsimp only
  have e : ∀ u : State, u.lanes = [] → u.clus = [] →
      (do let s ← u.padTile (fun _ _ => 0) 0; s.padBorder 0 : Except Bad State) = .ok u := fun u hl hc => by
    rw [padTile_nothing u hl hc]
    exact padBorder_nothing u hl hc 0
  rw [e ((s.setFld (Reg.rgnStat 0) 31 30 1).setFld (Reg.tilePad 0) 15 0 0) hl hc]
  exact ⟨_, rfl⟩

/-- The same of a region image for tile 0, whose tile group has been written. -/
def ldRegion : Load := { ldAt1 2 1 frameLast with region := some 0, ended := some true, groups := [0] }

theorem wit_LastRegionFrame :
    let s := loadAt ldRegion frameLast
    s.load = some ldRegion ∧ s.loadDark ldRegion = [] ∧ s.readWaits ldRegion = false ∧
    (s.readFrame ldRegion []).2 = some (sealedFrame frameLast) ∧ frameCrcOk (sealedFrame frameLast) = true ∧
    ∃ u ld', (s.readFrame ldRegion []).1.doFrame State.loadWrite ldRegion (sealedFrame frameLast) true = .ok u ld' true ∧
      ld'.region = some 0 := by
  have r := loadAt_readFrame ldRegion frameLast (bare_length _ _) (by decide)
  refine ⟨rfl, by decide +kernel, by decide +kernel, by rw [r], frameCrcOk_sealed _ (bare_length _ _), ?_⟩
  have chk := bare_checked ldRegion (sealedFrame frameLast) rfl rfl rfl rfl (ldAt1_hash 2 1 frameLast) (by decide +kernel) (by decide +kernel)
    (by decide +kernel) test_frame_last
  rw [r]
  exact bare_ends _ ldRegion _ chk rfl rfl
    (region_ends _ _ (by decide +kernel) (by decide +kernel) (by decide +kernel) rfl rfl rfl rfl rfl rfl)

/-- A load with a whole HBM record for address 0 in its stream. -/
def ldHbm : Load := { ldAt1 2 2 frameGoOn with stream := [8, 0, 0, 0, 0, 0, 0, 32] ++ List.replicate 40 0 }

/-- The controllers of the load initialise. -/
def hbmInit : State := (List.range 6).foldl (fun (s : State) m => s.setFld (Reg.mcStat m) 2 0 1) (loadAt ldHbm frameGoOn)

def recWaits : LoadOut → Bool
  | .wait none => true
  | _ => false

/-- LoadsReadTheirFrames: a frame whose record waits for a controller. -/
theorem wit_FrameWaits :
    hbmInit.load = some ldHbm ∧ hbmInit.loadDark ldHbm = [] ∧ hbmInit.readWaits ldHbm = false ∧
    (hbmInit.readFrame ldHbm []).2 = some (sealedFrame frameGoOn) ∧
    (hbmInit.readFrame ldHbm []).1.doFrame State.loadWrite ldHbm (sealedFrame frameGoOn) true = .wait none := by
  have r := storeOf_readFrame hbmInit ldHbm frameGoOn rfl (bare_length _ _) (by decide)
  have chk := bare_checked ldHbm (sealedFrame frameGoOn) rfl rfl rfl rfl (ldAt1_hash 2 2 frameGoOn) (by decide +kernel)
    (by decide +kernel) (by decide +kernel) test_frame_goes_on
  refine ⟨rfl, by decide +kernel, by decide +kernel, by rw [r], ?_⟩
  rw [r]
  have w : ∀ o : LoadOut, recWaits o = true → o = .wait none := by
    intro o h
    match o with
    | .wait none => rfl
    | .wait (some d) => cases h
    | .ok _ _ => cases h
    | .fail _ _ _ => cases h
  have e : recWaits (State.doStream State.loadWrite (ldHbm.stream.length + 1)
      (hbmInit.countRead (homeBlock (ldHbm.src - 1) (ldHbm.frame / 1024)))
      { ldHbm with hash := BitVec.ofNat 384 (fieldBE (sealedFrame frameGoOn) 4008 48) }) = true := by decide +kernel
  unfold State.doFrame
  rw [chk]
  dsimp only
  rw [w _ e]

/-- LoadsReadTheirFrames: a frame whose FINDEX is not the one expected (0Ah, R370 step 4). -/
theorem wit_FrameFails :
    let ld := ldAt1 2 2 frameGoOn
    let s := loadAt ld zeros
    s.load = some ld ∧ s.loadDark ld = [] ∧ s.readWaits ld = false ∧ (s.readFrame ld []).2 = some (sealedFrame zeros) ∧
    frameCrcOk (sealedFrame zeros) = true ∧
    (s.readFrame ld []).1.doFrame State.loadWrite ld (sealedFrame zeros) true = .fail (s.readFrame ld []).1 ld 0x0A 1 none ∧
    ld.region = none := by
  have h : zeros.length = 4092 := List.length_replicate
  have r := loadAt_readFrame (ldAt1 2 2 frameGoOn) zeros h (by decide)
  refine ⟨rfl, by decide +kernel, by decide +kernel, by rw [r], frameCrcOk_sealed _ h, ?_, rfl⟩
  have chk : checkFrame (ldAt1 2 2 frameGoOn) (sealedFrame zeros) = .error 0x0A := by
    unfold checkFrame
    dsimp only
    rw [if_pos (by decide +kernel)]
  unfold State.doFrame
  rw [chk]
  rfl

/-- LoadsReadTheirFrames, the other clauses: nothing under way, with and without a region that waits; a load that does not go on for
each of its reasons; a header frame that is erased, in a slot that holds an image and in one that does not; one whose CRC does not
hold; an erased frame; a read that fails; a read from HBM with an error; the clean-up with and without a load to follow. -/
theorem wit_LoadsReadTheirFrames :
    ((loadIn none 0).load = none ∧ (loadIn none 0).nextRegion = none ∧
      ({ regionIn with load := none } : State).nextRegion = some (0, ⟨7, 3, 0, 3, true, 0⟩)) ∧
    (let ld := { Load.start none 5 0 with header := true }
     (loadIn (some ld) 1).load = some ld ∧ ld.header = true ∧ ((loadIn (some ld) 1).setFld (Reg.mcStat 0) 2 0 1).readWaits ld = true ∧
      (W.setFld Reg.sprStat 31 29 1).fld Reg.sprStat 31 29 = 1) ∧
    (let s := { loadIn (some ldHdr) 1 with store := { Store.factory with dir := { Directory.empty with slot := [(1, 2)] } } }
     s.load = some ldHdr ∧ s.fld Reg.ceStat 31 29 ≠ 3 ∧ s.fld Reg.sprStat 31 29 ≠ 1 ∧ s.readWaits ldHdr = false ∧
      (s.readFrame ldHdr []).2 = none ∧ s.slotState 1 = 2) ∧
    (let s := loadIn (some ldHdr) 1
     (s.readFrame ldHdr []).2 = none ∧ s.slotState 1 = 0 ∧ ldHdr.region = none ∧ s.readWaits ldHdr = false) ∧
    (let ld := { ldHdr with header := true, frame := 1, fcount := 2 }
     let s := loadIn (some ld) 1
     s.load = some ld ∧ ld.region = none ∧ s.loadDark ld = [] ∧ s.readWaits ld = false ∧ (s.readFrame ld []).2 = none) ∧
    (let ld := { Load.start none 5 hbmTop with header := true, frame := 1, fcount := 2 }
     let s := loadIn (some ld) 1
     s.loadDark ld = [] ∧ (s.readFrame ld []).2 = none ∧ ld.src = 5 ∧
      ((List.range 6).foldl (fun (s : State) m => s.setFld (Reg.mcStat m) 2 0 2) s).readWaits ld = false) ∧
    ((loadIn (some (Load.start none 0 0)) 3).fld Reg.ceStat 31 29 = 3 ∧ (loadIn (some (Load.start none 3 0)) 3).fld Reg.ceStat 31 29 = 3 ∧
      (loadIn (some (Load.start none 3 0)) 1).fld Reg.ceStat 31 29 ≠ 3) ∧
    (Load.start none 0 0).src = 0 ∧ (Load.start none 3 0).src ≠ 0 := by decide +kernel

/-- 4,096 bytes whose CRC is wrong by one. -/
def badBytes : List (BitVec 8) := zeros ++ beBytes 4 (crc32 zeros + 1).toNat

theorem badBytes_length : badBytes.length = 4096 := by
  simp only [badBytes, zeros, List.length_append, List.length_replicate, beBytes, List.length_reverse, bytesOf_length]

theorem badBytes_crc : frameCrcOk badBytes = false := by
  rw [badBytes, frameCrcOk_append zeros _ List.length_replicate]
  generalize crc32 zeros = c
  have e : c ≠ c + 1 := by bv_omega
  exact beq_false_of_ne fun k => e (BitVec.eq_of_toNat_eq k)

/-- LoadsReadTheirFrames: a header frame and a frame whose CRC does not hold. -/
theorem wit_BadCrc :
    let s := fun (ld : Load) => { loadIn (some ld) 1 with store :=
      { Store.factory with dir := { Directory.empty with slot := [(1, 2)] }, pages := [(1024 * homeBlock 1 0 + ld.frame, some (pageOf badBytes))] } }
    frameCrcOk badBytes = false ∧ ((s ldHdr).readFrame ldHdr []).2 = some badBytes ∧ (s ldHdr).readWaits ldHdr = false ∧
    ((s (ldAt1 2 2 frameGoOn)).readFrame (ldAt1 2 2 frameGoOn) []).2 = some badBytes ∧
    (s (ldAt1 2 2 frameGoOn)).loadDark (ldAt1 2 2 frameGoOn) = [] :=
  ⟨badBytes_crc, congrArg some (pageBytes_pageOf _ badBytes_length), by decide +kernel,
    congrArg some (pageBytes_pageOf _ badBytes_length), by decide +kernel⟩

/-- R377: after the clean-up of a failed golden load the device is unconfigured (CE_STAT 5). -/
theorem test_load_clean :
    (let t := after .loadCleanDone (loadIn (some (Load.start none 0 0)) 3)
     t.load = none ∧ t.fld Reg.ceStat 31 29 = 5) := by decide +kernel

/-- StoreOperationsStart: each operation, accepted or refused; the boot selection locked and not. -/
theorem wit_StoreOperationsStart :
    (([0, 1, 2, 3, 4].all fun op => (loadIn none 0).regNow .host Reg.cePgmCtrl true false (setBits 0x04000000#32 31 28 (8 + op))) = true ∧
     ([0, 1, 3, 4].all fun op => !(loadIn none 0).pgmRefused op 1 0 ((loadIn none 0).fld Reg.cePgmCnt 22 0)) = true) ∧
    (loadIn none 0).pgmRefused 1 1 0 6291457 = true ∧ (loadIn none 0).pgmRefused 2 1 0 0 = true ∧
    (W.regNow .host Reg.ceBoot true false 1#32 = true ∧ W.flag Reg.ceCtrl 0 = false) ∧
    ((W.setFlag Reg.ceCtrl 0 true).regNow .host Reg.ceBoot true false 1#32 = true ∧
     (W.setFlag Reg.ceCtrl 0 true).flag Reg.ceCtrl 0 = true) := by decide +kernel

/-- R383: an ERASE of slot B is in progress and its slot WRITING. -/
theorem test_erase :
    (let t := after (.erase (BitVec.ofNat 32 (2 ^ 26))) (loadIn none 0)
     t.flag Reg.cePgmStat 31 = true ∧ t.slotState 1 = 1 ∧ t.slotState 0 = 0) := by decide +kernel

/-- The accepted COMMIT wants a slot that is WRITING, and a frame 0 with its CRC and MAGIC right (R383). -/
theorem wit_CommitAccepted :
    (let s : State := { loadIn none 0 with store := { storeOf 1 0 hdr with dir := { Directory.empty with slot := [(1, 1)] } } }
     (s.frameZero 1) = some (sealedFrame hdr) ∧ s.pgmRefused 2 1 0 0 = false) := by
  have c : frameCrcOk (sealedFrame hdr) = true := frameCrcOk_sealed hdr hdr_length
  have m : (fieldBE (sealedFrame hdr) 0 4 == 0x58444C49) = true := by decide +kernel
  have z : ({ loadIn none 0 with store := { storeOf 1 0 hdr with dir := { Directory.empty with slot := [(1, 1)] } } } : State).frameZero 1 =
      some (sealedFrame hdr) := by
    unfold State.frameZero
    have e : ({ loadIn none 0 with store := { storeOf 1 0 hdr with dir := { Directory.empty with slot := [(1, 1)] } } } : State).page 1 0 =
        some (pageOf (sealedFrame hdr)) := by simp [State.page, State.blockOf, storeOf, tget, Directory.empty]
    rw [e]
    dsimp only
    rw [pageBytes_pageOf _ (sealedFrame_length hdr hdr_length), c, m]
    rfl
  refine ⟨z, ?_⟩
  unfold State.pgmRefused
  rw [z]
  decide +kernel

/-- A store operation in progress on a slot. -/
def storeOp (op slot count : Nat) : State := { loadIn none 0 with store := { Store.factory with op := some ⟨op, slot, 0, count, 0⟩ } }

/-- Slot B with a page whose CRC does not hold. -/
def verifyBad : State :=
  { loadIn none 0 with store :=
    { Store.factory with dir := { Directory.empty with slot := [(1, 2)] },
                         pages := [(1024 * homeBlock 1 0, some (pageOf badBytes))],
                         op := some ⟨3, 1, 0, 0, 0⟩ } }

/-- A VERIFY whose frame 0 does not hold its CRC reads it again. -/
theorem verifyCode_again (s : State) (slot : Nat) (l : List (BitVec 8))
    (r : (s.readFrame (Load.start none (slot + 1) 0) []).2 = some l) (c : frameCrcOk l = false) : s.verifyCode slot = .error 0 := by
  unfold State.verifyCode
  dsimp only
  rw [r]
  dsimp only
  rw [c]
  rfl

theorem verifyBad_code : verifyBad.verifyCode 1 = .error 0 :=
  verifyCode_again verifyBad 1 badBytes (congrArg some (pageBytes_pageOf _ badBytes_length)) badBytes_crc

/-- StoreOperationsEnd: an erasure of slot G0, which finds its blocks again; a write that waits, that fails, and that copies one frame;
a commit; a verification with a result (07h: the slot holds no image) and one that reads on; an identity; a patrol read. -/
theorem wit_StoreOperationsEnd :
    ((storeOp 0 2 0).store.op = some ⟨0, 2, 0, 0, 0⟩ ∧
     ((List.range (slotSize 2 / 1024)).all fun i => (storeOp 0 2 0).inRegion 2 ((storeOp 0 2 0).blockOf (homeBlock 2 i))) = true ∧
     (storeOp 0 2 0).inRegion 2 ((storeOp 0 2 0).blockOf (homeBlock 3 0)) = false) ∧
    (((storeOp 1 1 1).setFld (Reg.mcStat 0) 2 0 1).hbmStates 0 4096).any (fun e => e.2 == 1) = true ∧
    (let s := ready (storeOp 1 1 1)
     ((List.range 6).all fun m => s.mcState m == 2) = true ∧ s.hbmBad = [] ∧ s.spareWanting = false ∧
      s.store.op = some ⟨1, 1, 0, 1, 0⟩ ∧ (0 : BitVec 64).toNat + 4096 * 1 ≤ hbmTop ∧
      { s with store := { s.store with dir := { s.store.dir with bad := [0] } } }.spareWanting = true) ∧
    ((storeOp 2 1 0).store.op = some ⟨2, 1, 0, 0, 0⟩ ∧
      tget (fun _ => 0) (storeOp 2 1 0).store.reads ((storeOp 2 1 0).blockOf (homeBlock 1 0)) < 100000) ∧
    (storeOp 3 1 0).verifyCode 1 = .ok (7, 0) ∧ (storeOp 4 1 0).store.op = some ⟨4, 1, 0, 0, 0⟩ ∧ (loadIn none 0).store.op = none ∧
    (let s := { loadIn none 0 with store := { Store.factory with pages := [(1024 * 6144, some 0)] } }
     s.load = none ∧ s.store.op = none ∧ s.writtenBlocks.contains (homeBlock 1 0) = true ∧ s.writtenBlocks.contains (homeBlock 1 1) = false ∧
      tget (fun _ => 0) s.store.reads (s.blockOf (homeBlock 1 0)) < 100000) := by
  refine ⟨?_, ?_, ?_, ?_, ?_, ?_, ?_, ?_⟩ <;> decide +kernel

/-- R383, R388: a failed VERIFY leaves the slot BAD (4) with its code. -/
theorem test_store_done :
    (let t := after (.storeOperationDone true ⟨[], [], []⟩) (storeOp 3 1 0)
     t.slotState 1 = 4 ∧ t.fld Reg.cePgmStat 7 0 = 7 ∧ t.flag Reg.cePgmStat 30 = true) := by decide +kernel

/-- StoreOperationsEnd: a VERIFY that reads a frame again. -/
theorem wit_VerifyReadsAgain : verifyBad.store.op = some ⟨3, 1, 0, 0, 0⟩ ∧ verifyBad.verifyCode 1 = .error 0 := ⟨rfl, verifyBad_code⟩

/-- The dawn in a state with n releases done. -/
def dawnIn (st n : Nat) : State := { (W.setFld Reg.dwnStat 31 28 st) with load := none, dawn := { Dawn.empty with done := n } }

/-- DawnSequence: every item locked; a tile of the last FAILED; the time out, with and without a stop; the gaps; the go wait; the
cadence wait; the target interface off; GO in WAITGO and elsewhere; RETRY in LOCKFAIL and elsewhere. -/
theorem wit_DawnSequence :
    (let s := ready (dawnIn 1 0)
     s.dawnState = 1 ∧ s.locksDone = true ∧ ((List.range 6).all fun m => s.mcState m == 2) = true ∧
      ((List.range 81).all fun d => s.domState d == 2) = true ∧ s.flag Reg.tioCadCtrl 31 = false ∧ s.dawn.done = 0 ∧
      s.dawn.ctrl.getLsbD 7 = false) ∧
    (let s := ((ready (dawnIn 1 0)).setFlag (Reg.tilePlace 0) 31 true).setFld (Reg.pwrDom 0) 26 24 6
     s.dawnState = 1 ∧ s.locksDone = true ∧ s.lastTileFailed = true) ∧
    (let s := { dawnIn 1 0 with dawn := { Dawn.empty with ctrl := 0x80 } }
     s.dawnState = 1 ∧ s.dawn.done = 0 ∧ s.dawn.ctrl.getLsbD 7 = true) ∧
    ((dawnIn 3 1).dawnState = 3 ∧ (dawnIn 3 1).dawn.done + 2 = 3 ∧ (dawnIn 4 2).dawnState = 4 ∧ (dawnIn 4 2).dawn.done + 2 = 4) ∧
    (let s := { dawnIn 5 3 with dawn := { Dawn.empty with done := 3, ctrl := 0x100 } }
     s.dawnState = 5 ∧ s.dawn.done = 3 ∧ s.dawn.ctrl.getLsbD 8 = true ∧ s.dawn.go = false) ∧
    ((dawnIn 5 3).dawn.ctrl.getLsbD 8 = false ∧ ((dawnIn 5 3).setFlag Reg.tioCadCtrl 31 true).flag Reg.tioCadCtrl 31 = true) ∧
    (let s := (dawnIn 5 3).setFld (Reg.pwrDom 80) 26 24 0
     s.flag Reg.tioCadCtrl 31 = false ∧ s.domState 80 ≠ 2 ∧ s.domState 80 ≠ 3) ∧
    ((0#32).getLsbD 30 = false ∧ (0#32).getLsbD 31 = false ∧ (0x80000000#32).getLsbD 31 = true ∧
     ([2, 6].all fun st => (dawnIn st 3).regNow .host Reg.dwnCtrl true false (setBit 0#32 31 true) &&
       (dawnIn st 3).regNow .host Reg.dwnCtrl true false (setBit 0#32 30 true) && (dawnIn st 3).dawnState == st) = true) := by
  refine ⟨?_, ?_, ?_, ?_, ?_, ?_, ?_, ?_⟩ <;> decide +kernel

/-- R402: with the default order the releases are 1, 2, 3, each with its bit of DWN_STAT. -/
theorem test_dawn_release :
    (let t := after .dawnRelease (dawnIn 3 1)
     t.dawnState = 4 ∧ t.dawn.done = 2 ∧ t.flag Reg.dwnStat 26 = true ∧ t.flag Reg.dwnStat 25 = false) := by decide +kernel

/-- Tile 63 under reconfiguration at its join midnight 7, which it left at cycle 5; its lanes 0 and 143 have welts. -/
def rgnOut (drn : Bool) : State :=
  let s := ((U.setFld (Reg.rgnStat 63) 31 30 2).setFlag (Reg.rgnStat 63) 28 true).setFlag (Reg.rgnStat 63) 29 drn
  let s := (s.setReg (Reg.wltLane 63 0) 0).setReg (Reg.wltLane 63 143) 0
  let s := { s with seq := { s.seq with midnight := true, cycle := 7 } }
  let ws := [(0, { Welt.empty with rcd := [0x3A5], emitted := 1 }), (143, { Welt.empty with inb := 1, disc := 1 })]
  s.setTile 63 { Tile.empty with leave := 5, job := some ⟨7, 1, 0, 3, true, 0⟩, welts := ws }

/-- Its welts have emitted and discarded all they have to; what its image gives for the banks, but for bank 15, is as given. -/
def rgnDone (b : Option BankStash) : State :=
  let s := rgnOut false
  s.setTile 63 { s.tile 63 with
    welts := [(0, { Welt.empty with rcd := [0x3A5], emitted := 2 }), (143, { Welt.empty with inb := 1, disc := 2 })], stash := b }

/-- RegionsLeaveAndJoin: the drain, and one that goes on; the join, its welts complete, with and without banks of its image; a welt
that emits in its second cycle; one that discards; the read of a record, and of none. -/
theorem wit_RegionsLeaveAndJoin :
    ((rgnOut true).flag (Reg.rgnStat 63) 29 = true ∧ (rgnOut true).tileInFlight 63 = false ∧
     ({ rgnOut true with masters := [(1024 * tileNode 63, { Master.empty with want := [pk0] })] } : State).tileInFlight 63 = true) ∧
    ([none, some { BankStash.empty with cells := [(0, 1)], keep := 0x8000 }].all fun b =>
     let s := rgnDone b
     decide ((s.tile 63).job = some ⟨7, 1, 0, 3, true, 0⟩) && s.rgnState 63 == 2 && s.seq.midnight && decide (s.seq.cycle = 7) &&
      s.flag (Reg.rgnStat 63) 28 && s.weltsComplete 63 7 && decide ((s.tile 63).stash = b) &&
      b.all fun x => Memory.wf x.cells && x.cells.all fun e => decide (e.1 < 2 ^ 22)) = true ∧
    ((rgnOut false).weltsComplete 63 7 = false ∧ (U.tile 63).job = none) ∧
    (let s := rgnOut false
     let w := s.welt 63 0
     s.tileOut 63 = true ∧ s.weltMode 63 0 < 2 ∧ 0 < w.rcd.length ∧ w.emitted / w.rcd.length < s.cyclesOut 63 ∧
      (s.lane (weltLane 63 0)).place 0 = none ∧ U.tileOut 63 = false) ∧
    (let l := gatewayLane 63 15 35
     let s := onLane (rgnOut false) l ((rgnOut false).chainLen l - 1) { b := lb, eye := 0, waited := false }
     s.tileOut 63 = true ∧ s.weltMode 63 143 < 2 ∧ 0 < (s.welt 63 143).inb ∧
      ((s.lane l).place (s.chainLen l - 1)).isSome = true ∧ s.weltUntil 63 = some 2 ∧ (s.welt 63 143).disc / (s.welt 63 143).inb < 2) ∧
    ((rgnOut false).regNow .host (Reg.wltRaccCtrl 63) true false (setBit 0#32 31 true) = true ∧
     ((rgnOut false).welt 63 0).rcd[0]? = some 0x3A5 ∧ ((rgnOut false).welt 63 0).rcd[1]? = none) := by
  refine ⟨?_, ?_, ?_, ?_, ?_, ?_⟩ <;> decide +kernel

/-- R413: the second emission is for cycle 7, so CP is 1, with ST 3 and data A5h of its record. -/
theorem test_welt_emit :
    (((after (.weltEmit 63 0) (rgnOut false)).lane (weltLane 63 0)).place 0).map (fun h => h.b) = some (mkLaneByte 11 0xA5) := by
  decide +kernel

/-! ### The service scheduler and its engines -/

/-- A descriptor's words (R423), as (word, value). -/
def desc (s : State) (d : Nat) (l : List (Nat × Nat)) : State :=
  l.foldl (fun (s : State) e => s.setReg (Reg.ssDesc d e.1) (BitVec.ofNat 32 e.2)) s

/-- Task d in the hand of engine e. -/
def inEng (s : State) (e d : Nat) : State := ((s.setFlag (Reg.ssEng e) 31 true).setFld (Reg.ssEng e) 25 16 d).setDState d 3

/-- Word 0 of a descriptor: type, WHEN, BAR. -/
def w0 (ty wh bar : Nat) : Nat := ty * 2 ^ 28 + bar * 2 ^ 24 + wh * 2 ^ 22

/-- A notification of vector 255 (R424), due at once or on a key, in the last descriptor. -/
def note (wh key : Nat) : State := desc W 1023 [(0, w0 8 wh 0), (2, key), (4, 255)]

/-- A midnight that nothing holds. -/
def atMidnight (s : State) (settled : Bool) : State := { s with seq := { s.seq with midnight := true, settled := settled } }

/-- TasksOfTheScheduler: the three commands as writes that nothing keeps waiting; live, refused, past, due at once, keyed on a later
cycle, cancelled, acknowledged with and without an engine; a tick with the domain on and off; an engine that starts, one that has
nothing to start, at and outside a midnight; one that ends, with and without a link, and of a barrier task. -/
theorem wit_TasksOfTheScheduler :
    (([Reg.ssSubmit, Reg.ssCancel, Reg.ssAck].all fun k => W.regNow .host k true false (setBit (BitVec.ofNat 32 1023) 31 true)) = true ∧
      W.domState 79 = 2 ∧ bits (BitVec.ofNat 32 1023) 9 0 = 1023) ∧
    ((W.setDState 1023 3).regNow .host Reg.ssSubmit true false (setBit (BitVec.ofNat 32 1023) 31 true) = true ∧
      (W.setDState 1023 3).dLive 1023 = true ∧ W.flag Reg.ssErr 31 = false ∧ (W.setFlag Reg.ssErr 31 true).flag Reg.ssErr 31 = true) ∧
    (let s := desc W 1023 [(0, w0 9 0 0)]
     s.dLive 1023 = false ∧ s.descOk 1023 = false ∧ s.pm.ck = none) ∧
    ((note 0 0).dLive 1023 = false ∧ (note 0 0).descOk 1023 = true ∧ (note 0 0).dBar 1023 = false ∧ (note 0 0).dType 1023 ≠ 5 ∧
      (note 0 0).dWhen 1023 = 0) ∧
    ((note 1 1).descOk 1023 = true ∧ (note 1 1).dWhen 1023 = 1 ∧ State.keyDue ((note 1 1).dKey 1023) (note 1 1).seq.cycle = false) ∧
    (([1, 2].all fun st =>
      let s := W.setDState 1023 st
      s.regNow .host Reg.ssCancel true false (setBit (BitVec.ofNat 32 1023) 31 true) && s.dState 1023 == st) = true ∧
      W.dState 1023 ≠ 1 ∧ W.dState 1023 ≠ 2) ∧
    (let s := (desc W 1023 [(0, w0 8 0 0), (1, 2 ^ 20), (4, 255)]).setDState 1023 3
     s.regNow .host Reg.ssAck true false (setBit (BitVec.ofNat 32 1023) 31 true) = true ∧
      s.dState 1023 = 3 ∧ s.waitsAck 1023 = true ∧ s.inEngine 1023 = false ∧ (s.dword 1023 1).getLsbD 31 = false ∧
      (inEng s 15 1023).waitsAck 1023 = true ∧ (inEng s 15 1023).inEngine 1023 = true ∧ W.waitsAck 1023 = false) ∧
    ((W.setFld (Reg.pwrDom 79) 26 24 0).domState 79 = 0 ∧ (W.setFld (Reg.pwrDom 79) 26 24 3).domState 79 = 3) ∧
    (let s := (note 0 0).enqueue 1023
     let u := s.barrierDue.fillSlots
     u.engBusy 4 = false ∧ u.slotTask 4 = some 1023 ∧ s.seq.midnight = false ∧ W.barrierDue.fillSlots.slotTask 4 = none) ∧
    (let s := atMidnight W false
     s.seq.midnight = true ∧ s.seq.settled = false ∧ s.regionHolds = false ∧ s.inFlight = false ∧ s.stimHolds = false) ∧
    (([0, 0x12].all fun c =>
      let s := (inEng (note 0 0) 15 1023).setResult 15 c
      s.engResult 15 == some c && !(s.master ssNode 15).frozen && s.engCur 15 == 1023 && !(s.dword 1023 1).getLsbD 31) = true ∧
      W.engResult 15 = none) ∧
    (let s := (inEng (desc (note 0 0) 1023 [(1, 2 ^ 31 + 5 * 2 ^ 21)]) 15 1023).setResult 15 0
     s.engResult 15 = some 0 ∧ (s.dword 1023 1).getLsbD 31 = true ∧ bits (s.dword 1023 1) 30 21 = 5 ∧ s.dLive 5 = false ∧
      s.descOk 5 = false) ∧
    (let s := (inEng (desc W 7 [(0, w0 0 1 1)]) 15 7).setResult 15 5
     s.engResult 15 = some 5 ∧ s.dBar (s.engCur 15) = true ∧ s.dType 7 ≠ 6) := by
  refine ⟨?_, ?_, ?_, ?_, ?_, ?_, ?_, ?_, ?_, ?_, ?_, ?_, ?_⟩ <;> decide +kernel

/-- R428, R433, R435: submitted, started and ended; the engine is free again. Engines 0 to 3 are
kept for barrier tasks (R432). -/
theorem test_task_life :
    (let s := after (.taskStart 4) (after (.taskSubmit .host 1023) (note 0 0))
     s.dState 1023 = 3 ∧ s.engBusy 4 = true ∧
     (let t := after (.taskEnd 4) (after (.hostNotify 4) s)
      t.dState 1023 = 4 ∧ t.engBusy 4 = false ∧ (t.net.map fun f => bits f.pk.addr 7 0) = [255] ∧ t.fld Reg.ssCnt 31 16 = 1)) := by decide +kernel

/-- A state whose controllers are all READY, with a task of engine 15 in hand. -/
def eng (l : List (Nat × Nat)) : State :=
  inEng (desc ((List.range 6).foldl (fun (s : State) m => s.setFld (Reg.mcStat m) 2 0 2) W) 7 l) 15 7

/-- COPY of the first 32 bytes of the HBM to byte 1,024 (R424). -/
def engCopy : State :=
  { eng [(0, w0 0 0 0), (4, 0), (5, 2 ^ 15), (6, 1024), (7, 2 ^ 15), (8, 32)] with hbm := [(3, 0x77)] }

/-- The device runs a user image whose last tile (0,0) is tile 0; state address of WU register 5 of cluster (0,0). -/
def engUser (l : List (Nat × Nat)) (user : Bool) : State :=
  let s := ((eng l).setFlag (Reg.tilePlace 0) 31 true).setFld (Reg.tilePlace 0) 23 20 8
  if user then { s.setFld Reg.ceStat 31 29 4 with image := some ⟨1, 1, 1, 1⟩ } else s

/-- Cluster 0 of tile 0 with an access to its stores in progress. -/
def busyClu (s : State) : State := withClu s fun x => { x with acc := some ⟨0, .host, 0⟩ }

/-- EnginesMoveData: the four types; an access that waits, one that is answered, one that breaks a check; FORCE and PEEK with and
without a user image, with the cluster's stores busy, and for each class of state. -/
theorem wit_EnginesMoveData :
    (let s := engCopy
     let a0 := atChunk (s.dpair 7 4) 0
     let b0 := atChunk (s.dpair 7 6) 0
     s.engTask 15 0 = some 7 ∧ (s.dword 7 8).toNat = 32 ∧ aSpace a0 = 2 ∧ aSpace b0 = 2 ∧ bits a0 4 0 = 0 ∧ bits b0 4 0 = 0 ∧
      s.engMeets (s.engPacket 15 7 false a0) = 0 ∧ s.engMeets (s.engPacket 15 7 true b0) = 0 ∧ s.mcs = [] ∧
      (s.setFld (Reg.mcStat 0) 2 0 1).engMeets (s.engPacket 15 7 false a0) = 8 ∧
      (s.setFld (Reg.mcStat 0) 2 0 5).engMeets (s.engPacket 15 7 false a0) = 1) ∧
    (let s := eng [(0, w0 0 0 0), (4, 0), (5, 0xC000), (6, 0), (7, 2 ^ 15), (8, 32)]
     s.engTask 15 0 = some 7 ∧ (s.dword 7 8).toNat = 32 ∧ 16 ≤ s.engMeets (s.engPacket 15 7 false (atChunk (s.dpair 7 4) 0))) ∧
    (let s := eng [(0, w0 1 0 0), (4, 0), (5, 2 ^ 15), (6, 9), (8, 32)]
     let a0 := atChunk (s.dpair 7 4) 0
     s.engTask 15 1 = some 7 ∧ (s.dword 7 8).toNat = 32 ∧ aSpace a0 = 2 ∧ bits a0 4 0 = 0 ∧
      s.engMeets (s.engPacket 15 7 true a0) = 0 ∧ s.engTask 15 0 = none) ∧
    (([2, 3].all fun ty => [2 ^ 12, 2 ^ 18 + 5 * 4, 2 ^ 19].all fun w => [false, true].all fun user =>
      let s := engUser [(0, w0 ty 0 0), (4, w), (6, 0x11), (8, 0xFF), (10, 64), (11, 2 ^ 15)] user
      let c0 := atChunk (s.dpair 7 10) 0
      s.engTask 15 ty == some 7 && decide (s.stateTile (s.dword 7 4) = some (0, 0)) && s.userLoaded == user && !s.cluBusy 0 0 &&
        decide (bits (s.dword 7 4) 19 18 ≤ 2 ∧ bits (s.dword 7 4) 7 6 = 0 ∧ (w ≠ 2 ^ 12 ∨ bits (s.dword 7 4) 5 2 = 0)) &&
        s.engMeets (s.cluPacket 15 7 0 0 (ty == 2)) == 0 &&
        (ty == 2 || (aSpace c0 == 2 && bits c0 4 0 == 0 && s.engMeets (s.engPacket 15 7 true c0) == 0))) = true) ∧
    (([2, 3].all fun ty =>
      let s := busyClu (engUser [(0, w0 ty 0 0), (4, 2 ^ 18 + 5 * 4)] true)
      s.engTask 15 ty == some 7 && decide (s.stateTile (s.dword 7 4) = some (0, 0)) && s.userLoaded && s.cluBusy 0 0) = true) := by
  refine ⟨?_, ?_, ?_, ?_, ?_⟩ <;> decide +kernel

/-- R424: the COPY moves the byte at 3 to 1,027; an answer ERROR (1) at the first access ends the task with 01h. R427: FORCE writes
the masked bits of the register and, outside a barrier, sets SEQ_LOSS.UNBAR. -/
theorem test_engines :
    (let t := after (.copy 15 [] none) engCopy
     Memory.get t.hbm (t.hbmFlat 1027) = 0x77 ∧ t.engResult 15 = some 0) ∧
    (after (.copy 15 [] (some (0, 1))) engCopy).engResult 15 = some 1 ∧
    (let t := after (.force 15 none) (engUser [(0, w0 2 0 0), (4, 2 ^ 18 + 5 * 4), (6, 0x11), (8, 0xFF)] true)
     ((t.clu 0 0).wu 0).reg 5 = 0x11 ∧ t.flag Reg.seqLoss 1 = true) := by decide +kernel

/-- EnginesHandOn: a checkpoint and a restore of no tile, refused and not, and of a tile whose cluster is busy; a restore outside the
go wait; one whose header does not check, and one that meets an uncorrected error; a region image taken and refused; trigger units at
once, after the cycle, and outside IDLE; a notification. -/
theorem wit_EnginesHandOn :
    (([4, 5].all fun ty =>
      let s := eng [(0, w0 ty 1 1), (4, 4096), (6, 0)]
      s.engTask 15 ty == some 7 && s.ckRefused 7 0) = true) ∧
    (([4, 5].all fun ty =>
      let s := engUser [(0, w0 ty 1 1), (4, 4096), (6, 0)] true
      s.engTask 15 ty == some 7 && !s.ckRefused 7 0 && !s.ckBusy 0 && s.dBar 7 && s.dpair 7 4 % 4096 == 0 && decide (s.dpair 7 4 + 4096 ≤ hbmTop) &&
        (List.range 128).all fun i => s.engMeets (s.engPacket 15 7 (ty == 4) (atChunk (State.hbmAddr 4096) i)) == 0) = true) ∧
    (let s := engUser [(0, w0 5 1 1), (4, 4096), (6, 0)] true
     s.ckHeaderOk (List.replicate 4096 0) 0 = false ∧
      (s.engFetch (BitVec.ofNat 48 (State.hbmAddr 4096)) [⟨0, .uncorrected 3⟩]).2.2 = true) ∧
    (let s := engUser [(0, w0 5 0 0), (4, 4096), (6, 0)] true
     s.engTask 15 5 = some 7 ∧ s.dBar 7 = false ∧ s.dawnState ≠ 6) ∧
    (([4, 5].all fun ty =>
      let s := (busyClu (engUser [(0, w0 ty 1 1), (4, 4096), (6, 1)] true)).setFld (Reg.rgnStat 0) 31 30 1
      s.engTask 15 ty == some 7 && !s.ckRefused 7 1 && s.ckBusy 1) = true) ∧
    (let s := engUser [(0, w0 6 1 1), (4, 3), (8, 9)] true
     let s := atMidnight s false
     s.engTask 15 6 = some 7 ∧ s.userLoaded = true ∧ s.physTile 0 0 = some 0 ∧ s.seq.midnight = true ∧ s.dKey 7 = s.seq.cycle ∧
      bits (s.dword 7 4) 1 0 ≠ 0 ∧ State.cycBefore (BitVec.ofNat 48 (s.dpair 7 8)) (s.dKey 7) = false ∧ s.rgnState 0 ≠ 2 ∧
      (s.setFld (Reg.rgnStat 0) 31 30 1).rgnState 0 = 1 ∧ (s.setFld (Reg.rgnStat 0) 31 30 2).rgnState 0 = 2) ∧
    (let s := eng [(0, w0 7 1 1), (4, 0x18001)]
     s.engTask 15 7 = some 7 ∧ s.dBar 7 = true ∧ (s.tt.buf.any fun c => c.cyc == s.dKey 7) = false ∧
      s.engMeets (s.engPacket 15 7 true (BitVec.ofNat 48 (9 * 2 ^ 42 + 9 * 2 ^ 38 + 2 ^ 37 + 0x1000))) = 0 ∧
      (s.dword 7 4).getLsbD 15 = true ∧ (s.dword 7 4).getLsbD 16 = true ∧
      (({ s with tt := { Tt.empty with buf := [{ cyc := 0, chans := [], pins := 0, last := 0, tdc := [] }] } } : State).tt.buf.any fun c =>
        c.cyc == s.dKey 7) = true) ∧
    (let s := eng [(0, w0 7 0 0), (4, 0x18001)]
     s.engTask 15 7 = some 7 ∧ s.dBar 7 = false ∧ s.seqState = 0 ∧ ({ s with seq := { s.seq with run := true } } : State).seqState ≠ 0) ∧
    (let s := eng [(0, w0 8 0 0), (4, 255)]
     s.engTask 15 8 = some 7 ∧ s.waitsAck 7 = false) ∧
    (let s := eng [(0, w0 8 0 0), (1, 2 ^ 20), (4, 255)]
     s.engTask 15 8 = some 7 ∧ s.waitsAck 7 = true ∧ s.ss.acks.contains 7 = false ∧
      ({ s with ss := { s.ss with acks := [7] } } : State).ss.acks.contains 7 = true) := by
  refine ⟨?_, ?_, ?_, ?_, ?_, ?_, ?_, ?_, ?_, ?_⟩ <;> decide +kernel

/-- R461: units 0 and 15 are armed, unit 1 is as it was. -/
theorem test_trigger_arm :
    (let t := after (.triggerArm 15) (eng [(0, w0 7 1 1), (4, 0x18001)])
     t.flag (Reg.ttUCtrl 0) 31 = true ∧ t.flag (Reg.ttUCtrl 15) 31 = true ∧ t.flag (Reg.ttUCtrl 1) 31 = false) := by decide +kernel

/-! ### Trigger and trace -/

/-- A cycle of the probe buffers in which no channel reads 1. -/
def cyc0 : TtCycle := { cyc := 0, chans := [], pins := 0, last := 0, tdc := [] }

/-- A cycle waits; unit 15 is armed, with one channel that its mask leaves out. -/
def Ttrig : State :=
  { ((W.setFlag (Reg.ttUCtrl 15) 31 true).setFld (Reg.ttUCtrl 15) 6 0 1) with tt := { Tt.empty with buf := [cyc0] } }

/-- Stream 7 captures 64 channels, without STOP; its staging holds 9,000 words. -/
def Tthrot : State :=
  ({ (W.setFld (Reg.ttSCh 7) 15 0 64) with tt := { Tt.empty with buf := [cyc0] } }).setStream 7
    { TtStream.empty with on := true, gateOpen := true, staging := List.replicate 9 (List.replicate 1000 0) }

/-- Port 31 holds a write for this midnight, with its delivery to byte 64 of the HBM to be done. -/
def Tdel : State :=
  let s := (ready W).setReg (Reg.ttPDaddrLo 31) 64
  { s with seq := { s.seq with midnight := true, settled := false },
           tt := { Tt.empty with stim := [(31, [{ key := 0, val := 0x1122, dbg := false, done := false }])] } }

/-- The same with the cycle still in the probe buffers. -/
def TdelBuf : State := { Tdel with tt := { Tdel.tt with buf := [cyc0] } }

/-- Stream 7 records 64 channels, its last sample another one; without STOP, with room. -/
def Tsample : State :=
  ({ (W.setFld (Reg.ttSCh 7) 15 0 64) with tt := { Tt.empty with buf := [cyc0] } }).setStream 7
    { TtStream.empty with on := true, gateOpen := true }

/-- Unit 15 fires and equation 3 names it, with AND. -/
def Teq : State := ((Ttrig.setFld (Reg.ttEqCtrl 3) 15 0 0x8000).setFlag (Reg.ttEqCtrl 3) 29 true)

/-- TriggersAndStimuli: the domain off, nothing to evaluate; a cycle in which no unit, a unit and an equation fires; a sample staged;
a stream that is throttled; a stimulus write taken, and refused for its key and for a full port; a delivery, one that waits for a
controller, one that is answered, and one that breaks a check; a stream enabled, refused, disabled and, in FIDELITY, refused. -/
theorem wit_TriggersAndStimuli :
    ((W.setFld (Reg.pwrDom 78) 26 24 0).domState 78 ≠ 2 ∧ W.tt.buf = []) ∧
    (Ttrig.domState 78 = 2 ∧ Ttrig.tt.buf = [cyc0] ∧ Ttrig.tt.arms = [] ∧
      ((List.range 4).all fun g => !Ttrig.flag (Reg.ttEqCtrl g) 30) = true ∧ Ttrig.unitFires cyc0 15 = true ∧
      Ttrig.unitFires cyc0 14 = false ∧ Teq.flag (Reg.ttEqCtrl 3) 31 = false ∧ Teq.flag (Reg.ttEqCtrl 3) 29 = true ∧
      ((List.range 16).all fun u => Teq.eqNames 3 u == (u == 15)) = true ∧
      Ttrig.throttled (({ Ttrig with tt := { Ttrig.tt with buf := [] } } : State).ttTake cyc0) = []) ∧
    (let x := Tsample.stream 7
     x.on = true ∧ x.gateOpen = true ∧ x.enKey = none ∧ x.disKey = none ∧ Tsample.streamCount 7 ≠ 0 ∧
      Tsample.flag (Reg.ttSCtrl 7) 27 = false ∧ Tsample.streamStop 7 = false ∧ packetWords x.staging + 64 + 2 ≤ 8192 ∧
      Tsample.throttled (({ Tsample with tt := { Tsample.tt with buf := [] } } : State).ttTake cyc0) = []) ∧
    (let u := { Tthrot with tt := { Tthrot.tt with buf := [] } }
     Tthrot.throttled (u.ttTake cyc0) = [7]) ∧
    (let s := W.setReg Reg.ttStimKlo 1
     s.regNow .host Reg.ttStimCmd true false (setBit 31#32 31 true) = true ∧ BitVec.ofNat 48 (s.pair Reg.ttStimKlo Reg.ttStimKhi) = 1 ∧
      s.keyRefused 1 = false ∧ (tget (fun _ => []) s.tt.stim 31).length < 16 ∧
      { s with seq := { s.seq with cycle := 1, midnight := true } }.keyRefused 1 = true ∧
      16 ≤ (tget (fun _ => []) [(31, List.replicate 16 (0 : Nat))] 31).length) ∧
    (Tdel.seq.midnight = true ∧ Tdel.seq.settled = false ∧ Tdel.regionHolds = false ∧ Tdel.inFlight = false ∧
      (Tdel.master ttNode 0).frozen = false ∧
      ((tget (fun _ => []) Tdel.tt.stim 31).findIdx? fun x => x.key == Tdel.seq.cycle && !x.done) = some 0 ∧
      Tdel.engMeets (State.ttPacket 3 (BitVec.ofNat 48 (2 ^ 47 + 64))) = 0 ∧ Tdel.hbmTwin 64 = none ∧
      (Tdel.setFld (Reg.mcStat 0) 2 0 1).engMeets (State.ttPacket 3 (BitVec.ofNat 48 (2 ^ 47 + 64))) = 8 ∧
      (Tdel.setFld (Reg.mcStat 0) 2 0 5).engMeets (State.ttPacket 3 (BitVec.ofNat 48 (2 ^ 47 + 64))) = 1) ∧
    (let s := (W.setReg (Reg.ttSKeyLo 7) 1).setFld (Reg.ttSRsize 7) 22 0 1
     s.regNow .host (Reg.ttSCmd 7) true false (setBits 0#32 31 30 3) = true ∧
      s.regNow .host (Reg.ttSCmd 7) true false (setBits 0#32 31 30 2) = true ∧
      BitVec.ofNat 48 (s.pair (Reg.ttSKeyLo 7) (Reg.ttSKeyHi 7)) = 1 ∧ s.keyRefused 1 = false ∧
      s.fld (Reg.ttSCh 7) 31 16 + s.fld (Reg.ttSCh 7) 15 0 ≤ 65536 ∧ s.fld (Reg.ttSRbLo 7) 11 0 = 0 ∧
      s.fld (Reg.ttSRsize 7) 22 0 ≠ 0 ∧ s.fidelity = false ∧ (s.setFlag Reg.modeStat 29 true).fidelity = true ∧
      W.fld (Reg.ttSRsize 7) 22 0 = 0) := by
  refine ⟨?_, ?_, ?_, ?_, ?_, ?_, ?_⟩ <;> decide +kernel

/-- R456: the unit fires and its cycle is recorded; R473: the throttled stream counts its hold; R465: the value lies at its address. -/
theorem test_triggers :
    (after .ttCycleEvaluate Ttrig).flag (Reg.ttUCtrl 15) 30 = true ∧
    (after .ttCycleEvaluate Tthrot).fld (Reg.ttSCnt 7) 31 16 = 1 ∧
    (let t := after (.stimulusDelivery ⟨31, []⟩) Tdel
     Memory.get t.hbm (t.hbmFlat 65) = 0x11 ∧ tget (fun _ => []) t.tt.stim 31 = []) ∧
    (let t := after .ttCycleEvaluate TdelBuf
     (tget (fun _ => []) t.tt.stim 31).length = 1 ∧ t.stimHolds = true ∧
      (after (.stimulusDelivery ⟨31, []⟩) t).stimHolds = false) := by decide +kernel

/-- Stream 7 with a packet of two words and a ring of 512 words at the base of the HBM. -/
def Tring : State :=
  (((ready W).setReg (Reg.ttSRbHi 7) (2 ^ 15)).setFld (Reg.ttSRsize 7) 22 0 1).setStream 7 { TtStream.empty with staging := [[1, 2]] }

/-- The same with a word in the ring, and with the fabric as its sink. -/
def Tword : State := Tring.setReg (Reg.ttSWr 7) 1
def Tfar : State := (Tword.setFlag (Reg.ttSCtrl 7) 28 true).setStream 7 TtStream.empty

/-- TraceRings: the domain off; a packet that has room, one that must wait, one that is answered, one that breaks a check, one without
room, with STOP and without; nothing to write; the fabric as sink with and without a word, and with its write answered; a failed
stream; a FIFO with a word, and one read that fails; RD taken, refused, and left alone. -/
theorem wit_TraceRings :
    ((W.setFld (Reg.pwrDom 78) 26 24 0).domState 78 ≠ 2 ∧ Tring.domState 78 = 2) ∧
    (let x := Tring.stream 7
     x.sent = none ∧ x.failed = false ∧ (Tring.master ttNode 0).frozen = false ∧ x.staging = [[1, 2]] ∧ isOverflow [1, 2] = false ∧
      Tring.ringRoom 7 2 = true ∧ Tring.ringMeets 1 7 (Tring.ringWr 7) 2 = 0 ∧ Tring.ringBase 7 % 32 = 0 ∧ Tring.mcs = [] ∧
      2 + 3 ≤ Tring.ringSize 7 ∧
      (Tring.setFld (Reg.mcStat 0) 2 0 1).ringMeets 1 7 (Tring.ringWr 7) 2 = 8 ∧
      (Tring.setFld (Reg.mcStat 0) 2 0 5).ringMeets 1 7 (Tring.ringWr 7) 2 = 1 ∧
      16 ≤ (Tring.setReg (Reg.ttSRbHi 7) 0xC000).ringMeets 1 7 0 2) ∧
    (let s := Tring.setReg (Reg.ttSWr 7) 509
     s.ringRoom 7 2 = false ∧ (s.setFlag (Reg.ttSCtrl 7) 29 true).streamStop 7 = true ∧ s.streamStop 7 = false ∧
      s.flag (Reg.ttSCtrl 7) 28 = false) ∧
    ((Tring.setStream 7 TtStream.empty).stream 7).staging = [] ∧
    ((Tfar.stream 7).sent = none ∧ Tfar.freeSlot ttNode 0 = some 0 ∧ Tfar.ringUsed 7 ≠ 0 ∧ (Tfar.stream 7).staging = [] ∧
      ((List.range 8).all fun m => (Tfar.stream m).sent == none) = true ∧
      Tfar.ringMeets 0 7 (Tfar.sendSpan 7).1 (Tfar.sendSpan 7).2 = 0 ∧ (Tfar.setReg (Reg.ttSWr 7) 0).ringUsed 7 = 0) ∧
    (let s := (Tfar.setStream 7 { TtStream.empty with sent := some (3, 1) })
     let u := { s with tt := { s.tt with resps := [{ pk0 with slot := 3 }, { pk0 with slot := 4, resp := 1 }] } }
     (u.stream 7).sent = some (3, 1) ∧ (u.tt.resps.findIdx? fun r => r.slot == 3) = some 0 ∧
      (u.tt.resps.findIdx? fun r => r.slot == 4) = some 1 ∧ (s.tt.resps.findIdx? fun r => r.slot == 3) = none) ∧
    ((Tring.setStream 7 { TtStream.empty with failed := true }).stream 7).failed = true ∧
    (Tword.regNow .host (Reg.ttSFifo 7) false false 0 = true ∧ Tword.regNow .host (Reg.ttSFifo 7) false true 0 = true ∧
      Tword.ringMeets 0 7 (Tword.ringRd 7) 1 = 0 ∧ Tword.ringUsed 7 ≠ 0 ∧
      (Tword.setFld (Reg.mcStat 0) 2 0 5).ringMeets 0 7 (Tword.ringRd 7) 1 = 1) ∧
    (Tword.regNow .host (Reg.ttSRd 7) true false 1#32 = true ∧ Tword.regNow .host (Reg.ttSRd 7) true false 511#32 = true ∧
      Tword.flag (Reg.ttSCtrl 7) 28 = false ∧ (1 + Tword.ringSize 7 - Tword.ringRd 7) % Tword.ringSize 7 ≤ Tword.ringUsed 7 ∧
      1 < Tword.ringSize 7 ∧ Tword.ringUsed 7 < (511 + Tword.ringSize 7 - Tword.ringRd 7) % Tword.ringSize 7 ∧ Tword.ringSize 7 ≤ 512 ∧
      Tfar.flag (Reg.ttSCtrl 7) 28 = true) := by
  refine ⟨?_, ?_, ?_, ?_, ?_, ?_, ?_, ?_, ?_⟩ <;> decide +kernel

/-- R470, R471: the packet is in the ring, WR is past it, and the FIFO reads its first word, lower half first. -/
theorem test_ring :
    (let t := after (.ringWrite 7 ⟨true, []⟩) Tring
     t.reg (Reg.ttSWr 7) = 2 ∧ t.fld (Reg.ttSCnt 7) 15 0 = 1 ∧ (t.stream 7).staging = [] ∧
     (let u := after (.traceFifoRead 7 ⟨false, []⟩) t
      u.bus = 1 ∧ (after (.traceFifoRead 7 ⟨false, []⟩) u).bus = 0 ∧ (after (.traceFifoRead 7 ⟨false, []⟩) u).reg (Reg.ttSRd 7) = 1)) := by
  decide +kernel

/-! ### Debug -/

/-- The device is HALTED. -/
def Uhalt : State := U.setFlag Reg.dbgStat 31 true

/-- A halt now, every cluster waiting; node 11 is locked by another master. -/
def Unow : State :=
  { U with dbg := { Dbg.empty with now := true, nowCause := 2 }, locks := [(11, { Lock.empty with isOpen := true, node := 9, count := 1 })] }

/-- RunControl: each command of DBG_RUN as a write that nothing keeps waiting, fabric-wide or not, HALTED or not, ragged or not; a halt
that is reached; its lock wait; its completion. -/
theorem wit_RunControl :
    (([1, 2, 3, 4, 5, 6].all fun k => U.regNow .host Reg.dbgRun true false (runWord 0 k) &&
      Uhalt.regNow .host Reg.dbgRun true false (runWord 0 k) && Uhalt.regNow .host Reg.dbgRun true false (runWord (2 ^ 27) k)) = true) ∧
    (let wide := fun (v : BitVec 32) => v.getLsbD 27 || U.fld Reg.seqNbr 11 0 != 0
     wide 0 = false ∧ wide (2 ^ 27) = true ∧ 0 < U.len ∧ U.seqState ≠ 3 ∧ Uhalt.seqState = 3 ∧ Uhalt.flag Reg.dbgStat 29 = false ∧
      (Uhalt.setFlag Reg.dbgStat 29 true).flag Reg.dbgStat 29 = true ∧ U.dbg.target = none ∧
      (after (.dbgCycle 0) Uhalt).dbg.target.isSome = true ∧ (after (.dbgCycle 0) Uhalt).flag Reg.dbgStat 31 = false) ∧
    (Unow.dbg.reached = none ∧ Unow.flag Reg.dbgStat 31 = false ∧ (Unow.haltPick.any fun p => p.1.cause < 8) = true ∧
      U.haltPick = none) ∧
    (let s := after .haltPointReached Unow
     s.flag Reg.dbgStat 26 = true ∧ s.epq = [] ∧ s.openLocks = [11] ∧ (s.lock 11).isOpen = true ∧ s.dbg.reached.isSome = true ∧
     (let t := after .haltLockBreak s
      t.dbg.reached.isSome = true ∧ t.openLocks = [] ∧ t.epq = [] ∧ t.seq.faulted = false)) := by
  refine ⟨?_, ?_, ?_, ?_⟩ <;> decide +kernel

/-- R493 to R497: a halt now is recorded with its cause and breaks the lock after its wait; the halt then stands. R500: from step
0 of a cycle of 64, a CYCLE runs to the cycle's midnight; a CANCEL withdraws that target, and a halt in its lock wait. -/
theorem test_halt :
    (let s := after .haltComplete (after .haltLockBreak (after .haltPointReached Unow))
     s.flag Reg.dbgStat 31 = true ∧ s.fld Reg.dbgStat 25 23 = 2 ∧ s.fld Reg.dbgLkbrk 15 0 = 1 ∧ s.seqState = 3 ∧ s.dbg.now = false) ∧
    (let s := after (.dbgCycle 0) Uhalt
     s.dbg.target = some { cyc := 0, step := 0x7FF, cause := 0 } ∧ (after (.dbgCancel 0) s).dbg.target = none) ∧
    (after (.dbgCancel 0) (after .haltPointReached Unow)).dbg = { Dbg.empty with nowCause := 2 } := by decide +kernel

/-- An awl request frame (R485, R486): the header, the address, the data. -/
def awlReq (hdr addr : Nat) (data : List (BitVec 8)) : List (BitVec 8) :=
  let body := BitVec.ofNat 8 hdr :: beBytes 6 addr ++ data
  0x9B#8 :: body ++ beBytes 2 (awlCrc body).toNat

/-- Frames: a peek of DBG_STAT, a write of DBG_HPT_LO, a write of eight bytes at byte 8 of the HBM. -/
def frPeek : List (BitVec 8) := awlReq 0x20 (9 * 2 ^ 38 + 2 ^ 37 + 4) []
def frWrite : List (BitVec 8) := awlReq 0x40 (9 * 2 ^ 38 + 2 ^ 37 + 0xC) [1, 2, 3, 4]
def frHbm : List (BitVec 8) := awlReq 0x41 (2 ^ 47 + 8) [1, 2, 3, 4, 5, 6, 7, 8]

/-- DebugPort: no failure and four; a fuse word that may be programmed, one that may not, and one under way. -/
theorem wit_DebugPort :
    (W.fld Reg.dbgAwl 29 27 < 4 ∧ 4 ≤ (W.setFld Reg.dbgAwl 29 27 4).fld Reg.dbgAwl 29 27) ∧
    (let s := W.setFlag Reg.dbgFuseCtrl 30 true
     s.regNow .debug Reg.dbgFuseCtrl true false (setBit 47#32 31 true) = true ∧
      s.flag Reg.dbgFuseCtrl 30 = true ∧ 47 < State.fuseCount 0 ∧ s.seqState = 0 ∧ s.dbg.fuse = none ∧
      W.regNow .debug Reg.dbgFuseCtrl true false (setBit 47#32 31 true) = true ∧ W.flag Reg.dbgFuseCtrl 30 = false) ∧
    ({ W with dbg := { Dbg.empty with fuse := some (0, 47, 1) } } : State).dbg.fuse = some (0, 47, 1) := by decide +kernel

/-- Frames: a read of a word of bank 0 of tile 0, a write of TILE_PLACE of tile 0, a read of eight bytes of the HBM, a read at offset
0 of the first remote window of port 0. -/
def frBank : List (BitVec 8) := awlReq 0x01 (2 ^ 46 + tileNode 0 % 10 * 2 ^ 42 + tileNode 0 / 10 * 2 ^ 38 + 2 ^ 37) []
def frTile : List (BitVec 8) := awlReq 0x40 (tileNode 0 % 10 * 2 ^ 42 + tileNode 0 / 10 * 2 ^ 38 + 2 ^ 37 + 0x50020) [0, 0, 0, 0]
def frHbmRd : List (BitVec 8) := awlReq 0x01 (2 ^ 47 + 8) []
def frFar : List (BitVec 8) := awlReq 0x00 (2 * 2 ^ 42 + 2 ^ 37 + 0x80000) []

/-- DebugPort: a bad frame; a device in reset; a locked port and an open one; the DM frozen. -/
theorem wit_DebugPort_frames :
    (W.inReset = false ∧ W.pkg.vaon = true ∧ (awlRequest []).isNone = true ∧
      (after .powerOnReset W).inReset = true ∧ W.pkg.awlPart = none) ∧
    (({ W with fusesIn := [(192, 0x1000)] } : State).awlLocked = true ∧ W.awlLocked = false) ∧
    ((ready W).master dmNode 0).frozen = false ∧ (ready W).mcs = [] ∧
    ((W.setMaster dmNode 0 { Master.empty with frozen := true }).master dmNode 0).frozen = true := by decide +kernel

/-- DebugPort: the requests that the frames spell, and what they meet. -/
theorem wit_DebugPort_requests :
    ((awlRequest frPeek).any fun r => State.awlInside r && !r.wr && r.peek && r.n == 1) = true ∧
    ((awlRequest frWrite).any fun r => State.awlInside r && r.wr && r.data == [0x01020304]) = true ∧
    ((awlRequest frHbm).any fun r => !State.awlInside r && r.wr && aSpace r.addr == 2 && r.n == 2 &&
      r.data == [0x01020304, 0x05060708] && ((ready W).engMeets (State.dmPacket true r.peek r.addr) == 0) &&
      (((ready W).setFld (Reg.mcStat 0) 2 0 1).engMeets (State.dmPacket true r.peek r.addr) == 8) &&
      (((ready W).setFld (Reg.mcStat 0) 2 0 5).engMeets (State.dmPacket true r.peek r.addr) == 1)) = true ∧
    ((awlRequest frHbmRd).any fun r => !State.awlInside r && !r.wr && aSpace r.addr == 2 && r.n == 2 &&
      ((ready W).engMeets (State.dmPacket false r.peek r.addr) == 0)) = true ∧
    ((awlRequest frBank).any fun r => !State.awlInside r && !r.wr && aSpace r.addr == 1 && r.n == 2 &&
      decide (((W.destOf r.addr).bind fun n => tileAt (n % 10) (n / 10)) = some 0) &&
      (W.engMeets (State.dmPacket false r.peek r.addr) == 0)) = true ∧
    ((awlRequest frTile).any fun r => !State.awlInside r && r.wr && aSpace r.addr == 0 && r.n == 1 && r.data == [0] &&
      decide (W.destOf r.addr = some (tileNode 0)) && (W.engMeets (State.dmPacket true r.peek r.addr) == 0)) = true ∧
    ((awlRequest frFar).any fun r => !State.awlInside r && !r.wr && aSpace r.addr == 0 && r.n == 1 &&
      (W.destOf r.addr).any (fun n => State.isRemote n (State.dmPacket false r.peek r.addr)) &&
      State.formatCause (State.dmPacket false r.peek r.addr) == 0 && W.contextCause (State.dmPacket false r.peek r.addr) == 0 &&
      W.freeSlot dmNode 0 == some 0) = true ∧
    (let s := { W with pkg := { W.pkg with awlPart := some ⟨frFar, 0, [], 3⟩ } }
     let m := fun (q : Option Packet) => { Master.empty with last := q }
     s.pkg.awlPart = some ⟨frFar, 0, [], 3⟩ ∧
      (tget (fun _ => Slot.empty) ((s.setMaster dmNode 0 { m none with slots := [(3, { Slot.empty with req := some pk0 })] }).master dmNode 0).slots 3).req.isSome = true ∧
      (tget (fun _ => Slot.empty) (s.master dmNode 0).slots 3).req = none ∧
      ((s.setMaster dmNode 0 (m (some { pk0 with slot := 3 }))).master dmNode 0).last = some { pk0 with slot := 3 }) := by
  refine ⟨?_, ?_, ?_, ?_, ?_, ?_, ?_, ?_⟩ <;> decide +kernel

/-- R485, R486: the answer of a bad frame is 9; the write reaches the register; the first data word holds the HBM word's lower half. -/
theorem test_awl :
    (after (.awlRead [] 100 [] none) W).pkg.awlOut = awlFrame 9 [] ∧
    (after (.awlWrite frWrite 100 ⟨[], none⟩) W).reg Reg.dbgHptLo = 0x01020304 ∧
    (let t := after (.awlWrite frHbm 100 ⟨[], none⟩) (ready W)
     Memory.get t.hbm (t.hbmFlat 8) = 4 ∧ Memory.get t.hbm (t.hbmFlat 12) = 8) := by decide +kernel

/-! ### The target interface -/

/-- The device stands at the midnight of a cycle, its sample instant to come; last tile (0,0) is tile 0; bank 15 works; pin 639 is
an input that goes to flop entry 1,023 of BP 0 of cluster (0,0); pin 600 is an output. -/
def Usamp (cyc : BitVec 48) : State :=
  let s := (ready (U.setFlag (Reg.tilePlace 0) 31 true)).setFld (Reg.tilePlace 0) 23 20 8
  let s := (s.setFld (Reg.tioBank 15) 31 28 1).setFld (Reg.tioBank 15) 23 16 165
  let s := ((s.setFld (Reg.tioPin 639) 31 30 1).setReg (Reg.tioPdst 639) (BitVec.ofNat 32 (2 ^ 31 + 511 * 8))).setFld (Reg.tioPin 600) 31 30 2
  { s with seq := { s.seq with midnight := true, cycle := cyc }, tio := { Tio.empty with levels := 1 <<< 639 } }

/-- The recorder is on, in a direction; its ring has 512 words, and WR stands at a record. -/
def withRec (s : State) (dir wr : Nat) : State :=
  ((s.setReg Reg.tioRecCtrl (BitVec.ofNat 32 dir)).setReg Reg.tioRecRsize 1).setReg Reg.tioRecWr (BitVec.ofNat 32 wr)

/-- Whether a sample instant is due. -/
def sampOn (s : State) : Bool :=
  ((s.seq.midnight && !s.tio.instant && s.seqState == 2 && (!s.flag Reg.tioCadCtrl 31 || s.tio.paired)) || s.dawnSampling) &&
    !s.tio.broken && (s.domState 80 == 2 || s.domState 80 == 3)

/-- Whether it takes place. -/
def sampGo (s : State) : Bool := sampOn s && !s.recBlocked && s.recMeets != 8

/-- SampleInstants: none due; a blocked ring; a recorder that waits for its controller, or whose frozen interface does; a replay that
breaks and one that does not; safe pins; the first instant; each kind of pin; record mode, its request answered OK and ERROR. -/
theorem wit_SampleInstants :
    (sampOn W = false ∧ sampOn (Usamp 0) = true) ∧
    (let s := (Usamp 0).setReg Reg.tioRecCtrl 1
     sampOn s = true ∧ s.recBlocked = true) ∧
    (let s := withRec (Usamp 0) 1 0
     sampOn s = true ∧ s.recBlocked = false ∧ (s.setFld (Reg.mcStat 0) 2 0 1).recMeets = 8 ∧
      (s.setMaster tioNode 0 { Master.empty with frozen := true }).recMeets = 8) ∧
    (let s := withRec (Usamp 0) 2 16
     sampGo s = true ∧ s.recDir = 2 ∧ (s.recRead []).2.1 ≠ BitVec.setWidth 64 (s.seq.cycle + 1)) ∧
    (let s := withRec (Usamp 0xFFFFFFFFFFFF) 2 16
     let s := s.setFlag (Reg.tioPin 639) 29 true
     sampGo s = true ∧ s.recDir = 2 ∧ (s.recRead []).2.1 = BitVec.setWidth 64 (s.seq.cycle + 1) ∧ s.tio.safe = false ∧
      s.fidelity = false ∧ s.pinIn 639 = true ∧ s.dawnSampling = false) ∧
    (let s := { Usamp 0 with tio := { (Usamp 0).tio with safe := true } }
     sampGo s = true ∧ s.recDir = 0 ∧ s.dawnSampling = false) ∧
    (let s := { W with dawn := { Dawn.empty with done := 4 } }
     sampGo s = true ∧ s.dawnSampling = true ∧ s.recDir = 0 ∧ s.tio.safe = false ∧ s.fidelity = false) ∧
    (let s := withRec (Usamp 0) 1 0
     let d := s.reg (Reg.tioPdst 639)
     sampGo s = true ∧ s.recDir = 1 ∧ s.recMeets = 0 ∧ (s.setFld (Reg.mcStat 0) 2 0 5).recMeets = 1 ∧ s.pinDir 639 = 1 ∧
      s.bankOk 15 = true ∧ s.pinDrive 639 = none ∧
      s.flag (Reg.tioPdst 639) 31 = true ∧ ((List.range 639).all fun q => !s.flag (Reg.tioPdst q) 31) = true ∧
      s.physTile (bits d 30 28) (bits d 27 25) = some 0 ∧ s.tileActive 0 = true ∧ s.pinDir 600 = 2 ∧
      s.flag (Reg.tioPin 600) 19 = false) := by
  refine ⟨?_, ?_, ?_, ?_, ?_, ?_, ?_, ?_⟩ <;> decide +kernel

/-- R525, R526: a recorder without a ring keeps the instant from passing, and says so. -/
theorem test_sample :
    (let t := after (.sampleInstant ⟨0, []⟩) ((Usamp 0).setReg Reg.tioRecCtrl 1)
     t.flag Reg.tioRecStat 31 = true ∧ t.tio.instant = false) := by decide +kernel

/-- A cadence in lock. -/
def cad (s : State) : State := (s.setFlag Reg.tioCadCtrl 31 true).setFlag Reg.tioCadStat 31 true

/-- CadenceBanksAndPins: no tick; the dawn's tick; dropped while HALTED; paired; a slip; lock lost in a run and outside one; a bank's
supply; the direction taken and refused; an edge and none. -/
theorem wit_CadenceBanksAndPins :
    (let ticks := fun (s : State) => s.flag Reg.tioCadCtrl 31 && s.flag Reg.tioCadStat 31
     let dawn := fun (s : State) => s.fld Reg.dwnStat 31 28 == 7 && s.dawn.done == 3
     let pairs := fun (s : State) => s.seq.midnight && !s.tio.paired && !s.tio.instant
     let d := { (cad W).setFld Reg.dwnStat 31 28 7 with dawn := { Dawn.empty with done := 3 } }
     ticks W = false ∧ ticks d = true ∧ dawn d = true ∧ ticks (cad Uhalt) = true ∧ dawn (cad Uhalt) = false ∧
      (cad Uhalt).seqState = 3 ∧ (cad Uhalt).clockStopped = true ∧ ((cad Uhalt).setFlag Reg.tioCadCtrl 29 false).clockStopped = false ∧
      pairs (cad (Usamp 0)) = true ∧ (cad (Usamp 0)).seqState ≠ 3 ∧ (cad (Usamp 0)).seq.run = true ∧ pairs (cad U) = false ∧
      (cad U).seqState = 1 ∧ (cad U).seq.run = true ∧ (cad W).seq.run = false ∧ (cad U).flag Reg.tioCadStat 31 = true ∧
      (U.setFlag Reg.tioCtrl 2 true).flag Reg.tioCtrl 2 = true) ∧
    (let k := Reg.tioBank 15
     let s := (W.setFld k 31 28 1).setFld k 23 16 165
     vccoOk (s.fld k 31 28) 165 = true ∧ (s.bankOk 15 && !vccoOk (s.fld k 31 28) 255) = true) ∧
    (let s := W.setFld Reg.dwnStat 31 28 6
     s.regNow .host Reg.tioRecCtrl true false 1#32 = true ∧ s.seqState = 0 ∧ s.fld Reg.dwnStat 31 28 = 6 ∧
      W.regNow .host Reg.tioRecCtrl true false 1#32 = true ∧ W.fld Reg.dwnStat 31 28 ≠ 6) ∧
    (W.tio.levels.getLsbD 639 ≠ true ∧ W.tio.levels.getLsbD 639 = false) := by
  refine ⟨?_, ?_, ?_, ?_⟩ <;> decide +kernel

/-- R520: a tick pairs with the midnight; R515: a supply of 3.30 V is in the window of standard 1, one of 5.10 V is not. -/
theorem test_cadence :
    (after .cadenceTick (cad (Usamp 0))).tio.paired = true ∧
    ((after (.vccoReturn 15 165) (W.setFld (Reg.tioBank 15) 31 28 1)).view (Reg.tioBank 15)).getLsbD 25 = true ∧
    ((after (.vccoOutOfWindow 15 255) (Usamp 0)).view (Reg.tioBank 15)).getLsbD 25 = false := by decide +kernel

/-! ### The power and sparing manager -/

/-- ModesAndLimits: refused and taken, with FIDELITY and without; the trace domain on and to be woken, and waking with the streams
owed; over a limit, below it, and with neither; ECONOMY left, over an idle domain and a busy one, and one that refuses. -/
theorem wit_ModesAndLimits :
    (([0, 0x08000000, 0x04000000, 0x18000000].all fun v => W.regNow .host Reg.modeCtrl true false (setBit (BitVec.ofNat 32 v) 31 true)) = true ∧
      W.modeRefused 3 false = true ∧ W.modeRefused 1 false = false ∧ W.fld Reg.modeStat 7 0 ≠ presetReq 1 ∧
      W.fld Reg.modeStat 31 30 ≠ 2 ∧ (W.setFld Reg.modeFrsize 22 0 1).modeRefused 0 true = false ∧ W.fidelity = false ∧
      W.domState 78 = 2 ∧ (W.setFld (Reg.pwrDom 78) 26 24 0).domState 78 = 0) ∧
    (let s := W.setFld Reg.modeStat 31 30 2
     s.fld Reg.modeStat 31 30 = 2 ∧ s.modeRefused 0 false = false ∧
      (s.setPw 77 { Pwr.empty with eco := true }).pw 77 = { Pwr.empty with eco := true } ∧
      (s.setFld (Reg.pwrDom 77) 26 24 5).domState 77 = 5) ∧
    (let s := { W.setFld (Reg.pwrDom 78) 26 24 1 with pm := { W.pm with fid := true } }
     s.domState 78 = 1 ∧ s.pm.fid = true) ∧
    (let s := (W.setFld Reg.modePlim 15 0 1000).setFld Reg.modeTlim 7 0 100
     let v := (s.setFld Reg.modeStat 7 0 121).fld Reg.modeStat 7 0
     s.fld Reg.modePlim 15 0 = 1000 ∧ s.fld Reg.modeTlim 7 0 = 100 ∧ v = 121 ∧ v < presetReq 0 ∧
      s.fld Reg.modeStat 7 0 = presetReq 0) ∧
    (let s := W.setFld Reg.modeStat 31 30 2
     s.fld Reg.modeStat 31 30 = 2 ∧ s.domState 63 = 2 ∧ s.ecoIdle 63 = true ∧ s.downRefused .pm 63 = false ∧
      s.domState 80 = 2 ∧ s.ecoIdle 80 = true ∧ s.downRefused .pm 80 = false ∧ s.ecoIdle 64 = false ∧
      (s.setFld Reg.modeEcomask 5 0 63).ecoIdle 69 = true ∧ (s.setFld Reg.modeEcomask 5 0 63).downRefused .pm 69 = false) ∧
    (let s := (W.setFld Reg.modeStat 31 30 2).setFlag (Reg.lnkChrx 0 0) 31 true
     let s := s.setReg Reg.modeEcomask 0xFFFFFFFF
     s.ecoIdle 70 = true ∧ s.domState 70 = 2 ∧ s.downRefused .pm 70 = true) := by
  refine ⟨?_, ?_, ?_, ?_, ?_, ?_⟩ <;> decide +kernel

/-- R537: TURBO asks for 900 mV (180); R538: over a limit VCORE steps down by 10 mV, and near the floor to 120. -/
theorem test_modes :
    (after (.modeApply 0x08000000 15) W).fld Reg.modeStat 7 0 = 180 ∧
    (after (.pmLimitCheck 0 126 15) W).fld Reg.modeStat 7 0 = 158 ∧
    (after (.pmLimitCheck 0 126 15) (W.setFld Reg.modeStat 7 0 121)).fld Reg.modeStat 7 0 = 120 := by decide +kernel

/-- Stack 5 READY, with HBMTEST. -/
def Wrow : State := (W.setFld (Reg.mcStat 5) 2 0 2).setFlag Reg.sprCtrl 29 true

/-- SparingAndLedger: a pass that may start, for the PM and for the host, and one that may not; passes that end, a load's among them; a
unit of each kind at its last place, new and known; a store block that is spare and one in use; a row that cannot be repaired; a read
mark within the records and beyond them. -/
theorem wit_SparingAndLedger :
    (let s := { W.setFld Reg.sprCtrl 23 16 1 with load := none }
     s.fld Reg.sprCtrl 23 16 ≠ 0 ∧ s.fld Reg.sprStat 31 29 = 0 ∧ s.load = none ∧ s.passTiles ≠ [] ∧ s.seqState = 0 ∧
      s.regNow .host Reg.sprCtrl true false (setBit 0#32 31 true) = true ∧ U.regNow .host Reg.sprCtrl true false (setBit 0#32 31 true) = true ∧
      s.fullLoading = false ∧ U.seqState ≠ 0 ∧ (W.setFld Reg.sprCtrl 23 16 0).fld Reg.sprCtrl 23 16 = 0 ∧ W.fld Reg.sprStat 31 29 = 0) ∧
    (([1, 2, 3].all fun st => (W.setFld Reg.sprStat 31 29 st).fld Reg.sprStat 31 29 == st) = true ∧
      W.fld (Reg.sprAge 63) 15 0 ≤ 10 * W.fld Reg.sprCtrl 15 8 ∧ 10 * W.fld Reg.sprCtrl 15 8 < min 65536 65535 ∧ W.ledgerRoom = true) ∧
    ((([⟨0, 63, 8, 7, 67⟩, ⟨1, 63, 8, 7, 4⟩, ⟨2, 63, 8, 0, 0⟩, ⟨3, 63, 0, 0, 0⟩, ⟨4, 7, 0, 0, 17⟩, ⟨5, 5, 0, 0, 63⟩] : List MarkUnit).all
      fun u => markExists u && decide (W.dev.mark u ≠ W.dev)) = true ∧
      markExists ⟨5, 5, 0, 0, 64⟩ = false ∧ (W.dev.mark ⟨3, 63, 0, 0, 0⟩).mark ⟨3, 63, 0, 0, 0⟩ = W.dev.mark ⟨3, 63, 0, 0, 0⟩) ∧
    (W.blockFree 31743 = true ∧ W.blockFree 0 = false) ∧
    (Wrow.flag Reg.sprCtrl 29 = true ∧ W.flag Reg.sprCtrl 29 = false ∧ Wrow.rowRepairable Wrow.dev ⟨5, 61, 63, 16383, false⟩ = false) ∧
    (W.regNow .host Reg.sprMark true false (setBit 0#32 31 true) = true ∧ W.regNow .host Reg.sprLgRd true false 1#32 = true ∧
      W.regNow .host Reg.sprLgRd true false 0#32 = true ∧ (W.reg Reg.sprLgWr - 0).toNat < 2 ^ 31 ∧ 2 ^ 31 ≤ (W.reg Reg.sprLgWr - 1).toNat) := by
  refine ⟨?_, ?_, ?_, ?_, ?_, ?_⟩ <;> decide +kernel

/-- SparingAndLedger: how many rows of a bank group can be repaired each device decides (log 88); on one that can repair a row, the
first one is repairable. -/
theorem wit_RowRepairable (h : 0 < Config.rowRepairs (64 * 5 + 61) (63 / 4)) :
    Wrow.rowRepairable Wrow.dev ⟨5, 61, 63, 16383, true⟩ = true := by
  have e : Wrow.dev.ppr = [] := by decide +kernel
  have p : ((Wrow.flag Reg.sprCtrl 29 && Wrow.mcState 5 == 2) && (List.range 62).any fun k => Wrow.pcOf 5 k == 61) = true := by
    decide +kernel
  unfold State.rowRepairable
  simp only [e, List.filter_nil, List.length_nil, h, decide_true, Bool.and_true, p]

/-- R563: the unit joins the map in one new generation; R551: the loss is recorded. -/
theorem test_sparing :
    (let t := after (.sprMark (BitVec.ofNat 32 (3 * 2 ^ 28 + 63 * 2 ^ 22))) W
     t.dev.badTile = [63] ∧ t.dev.gen = 1 ∧ t.flag Reg.sprStat 28 = true) ∧
    (after (.cobblerPassDone [] ⟨[(63, 5)], [], []⟩) (W.setFld Reg.sprStat 31 29 2)).reg (Reg.sprAge 63) = 5 := by decide +kernel

/-! ### Resets and the package -/

/-- The device in a power-on reset, in an awl reset, and without VAON. -/
def Wpor : State := { W with pkg := { Pkg.reset with por := true } }
def Wawl : State := { W with pkg := { Pkg.reset with awl := true } }
def Wdark : State := { W with pkg := { Pkg.reset with vaon := false, por := true } }

/-- ResetsOfTheDevice, SmbusAnswers: a state for each condition. -/
theorem wit_ResetsOfTheDevice :
    (W.inReset = false ∧ W.pkg.vaon = true ∧ Wawl.pkg.awl = true ∧ W.pkg.awl = false ∧ Wpor.pkg.por = true ∧ Wpor.pkg.vaon = true ∧
      Wpor.inReset = true ∧ W.pkg.pwrgd = true ∧ W.pkg.por = false ∧ Wdark.pkg.vaon = false ∧ W.pkg.cause < 256 ∧
      W.pkg.awlN < 256) := by decide +kernel

/-- R483, R575: an awl reset from a run keeps the aging losses and leaves the clusters at their defaults; at its end a load begins
from slot A (1). -/
theorem test_resets :
    (let t := after .awlReset (U.setReg (Reg.sprAge 63) 7)
     t.seq.run = false ∧ t.reg (Reg.sprAge 63) = 7 ∧ t.clus = [] ∧ t.pkg.awl = true ∧
     (let u := t.awlEnd []
      u.pkg.awl = false ∧ u.load.map (·.src) = some 1)) := by decide +kernel

/-- R351: when the copy of the directory in force does not read right, the older one is in force, with its boot selection; without a
working copy of the repair map the factory copy serves, and CE_STAT.FMAP says so. -/
theorem test_copies :
    (let d := { Directory.empty with gen := 1, sel := true }
     let s := { Wpor with store := { Store.factory with dir := d, dirPrev := some Directory.empty } }
     (after (.powerOnResetEnd ⟨15, []⟩) s).load.map (·.src) = some 2 ∧ (after (.powerOnResetEnd ⟨15, [⟨.directory, true⟩]⟩) s).load.map (·.src) = some 1) ∧
    (let s := { Wpor with store := { Store.factory with mapPrev := none } }
     (after (.powerOnResetEnd ⟨15, [⟨.repairMap, true⟩]⟩) s).flag Reg.ceStat 23 = true ∧ (after (.powerOnResetEnd ⟨15, []⟩) s).flag Reg.ceStat 23 = false) := by
  decide +kernel

/-- ThermalStopLossesAndWatchdogs: the first reading that counts; stacks that exist and not, READY and FAILED; interfaces in their form;
a stall that counts and one that does not; a kick; a heartbeat that runs. -/
theorem wit_ThermalStopLossesAndWatchdogs :
    (W.overt = false ∧ W.pkg.vaon = true ∧ ({ W with overt := true } : State).overt = true) ∧
    (twf (fun _ => Master.empty) 0 W.masters = true ∧ W.mcState 5 ≠ 5 ∧ (W.setFld (Reg.mcStat 5) 2 0 5).mcState 5 = 5) ∧
    (let s := U.setFld Reg.wdgStall 15 0 1
     s.stallCounts = true ∧ W.stallCounts = false) ∧
    W.regNow .host Reg.wdgKick true false (setBit 0#32 31 true) = true ∧
    (let s := W.setFlag Reg.wdgCtrl 0 true
     s.flag Reg.wdgCtrl 0 = true ∧ s.flag Reg.wdgStat 30 = false ∧ (s.setFlag Reg.wdgStat 30 true).flag Reg.wdgStat 30 = true) := by
  decide +kernel

/-- R581: at 130 °C the pins are safe and the clusters held, at 129 °C not; R258: the stack's byte is lost, its neighbour's not;
R40: SEQ_FAULT.STALL; R580: the fields of the STATUS word. -/
theorem test_losses :
    (after (.overTemperature 69 130) W).overt = true ∧ (after (.overTemperature 69 129) W).overt = false ∧
    (after (.stackRailLoss 5) { W with hbm := [(5, 1), (5 * 2 ^ 36, 2)] }).hbm = [(5, 1)] ∧
    (after .stallWatchdogExpiry (U.setFld Reg.wdgStall 15 0 1)).flag Reg.seqFault 2 = true ∧
    (after (.smbStatus true) (W.setFld Reg.ceStat 31 29 4)).pkg.smb = some 0x53 ∧
    (after (.smbDieTemp (-1)) W).pkg.smb = some 0xFFFF ∧ (after (.smbDieTemp (-1)) Wdark).pkg.smb = none := by decide +kernel

/-! ### Registers -/

/-- RegistersKeepTheirAccessCodes: a device in reset; an access that a frozen interface, a lock or a dark domain keeps waiting, and one
that finds its domain powering down; a place without a register; registers of the windows that hold their fields only. -/
theorem wit_RegistersKeepTheirAccessCodes :
    (Wpor.inReset = true ∧ W.inReset = false) ∧
    ((W.setMaster hpNode 0 { Master.empty with frozen := true }).regFree .host (Reg.cluId 0 0) true false 1 = false ∧
      ({ W with locks := [(tileNode 0, { Lock.empty with isOpen := true, node := 9, count := 1 })] } : State).admission (tileNode 0)
        (State.regPacket .host (Reg.cluId 0 0) true false 1) = 1 ∧
      (W.setFld (Reg.pwrDom 63) 26 24 0).regFree .host (Reg.ssTickLo) false false 0 = true) ∧
    (let s := W.setFld (Reg.pwrDom 63) 26 24 3
     let k := Reg.cluAccCtrl 63 0
     let w := State.regPacket .host k true false 1
     let r := State.regPacket .host k false false 0
     s.regFree .host k true false 1 = true ∧ s.admission (tileNode 63) w = 4 ∧ (s.arriving (tileNode 63) w).admission (tileNode 63) w = 0 ∧
      State.domainOf (tileNode 63) = some 63 ∧ s.regFree .host k false false 0 = true ∧ s.admission (tileNode 63) r = 4 ∧
      (s.arriving (tileNode 63) r).admission (tileNode 63) r = 0) ∧
    ((rowAt (W.key 0xFFFFC)).isNone = true ∧ W.regNow .host 0xFFFFC true false 0 = true ∧ W.regNow .host 0xFFFFC false false 0 = true ∧
      W.rgnState 0 ≠ 2) ∧
    (([Reg.ttTch 0, Reg.ttSCh 7, Reg.wdgHb, Reg.tioPdst 639, Reg.mcGeom 5].all fun k0 =>
      (rowAt (W.key k0)).isSome && W.regNow .host k0 true false 0xFFFFFFFF && W.regNow .host k0 false false 0 &&
        W.regNow .host k0 false true 0) = true) ∧
    W.regNow .host Reg.ssTickLo false false 0 = true := by
  refine ⟨?_, ?_, ?_, ?_, ?_, ?_⟩ <;> decide +kernel

/-- R9 to R12: a write of all ones takes the RW fields of WDG_HB, whose [31:16] is reserved; the tick's high half is latched. -/
theorem test_registers :
    (after (.registerWrite .host Reg.wdgHb 0xFFFFFFFF) W).reg Reg.wdgHb = 0xFFFF ∧
    (let t := after (.ssTickLoRead false) { W with tick := 0x100000002 }
     t.bus = 2 ∧ t.reg Reg.ssTickHi = 1) := by decide +kernel

end Sys2Proof.Tests
end

section
/-! PROOFS. The register map: where registers are defined, and the words they hold at reset. -/

namespace Sys2Proof.Machine

/-! ### The register map -/

/-- A register is defined wherever the grid of a row of the node's window holds the offset. -/
theorem rowAt_ne_none {k : Nat} {r : RegRow} (hr : r ∈ rowsOf (k / 0x100000)) (hb : r.base ≤ k % 0x100000)
    (hg : onGrid r.dims (k % 0x100000 - r.base) = true) : rowAt k ≠ none := by
  intro h
  have := List.find?_eq_none.mp h r hr
  simp [hb, hg] at this

/-- TT_Sn_FIFO is defined for each of the eight streams (R478). -/
theorem rowAt_fifo_ne_none {k : Nat} (hn : k / 0x100000 = ttNode) (hl : 0x2000 ≤ k % 0x100000) (hh : k % 0x100000 < 0x2800)
    (ho : k % 0x100 = 0x2C) : rowAt k ≠ none := by
  refine rowAt_ne_none (r := ⟨0x202C, [(8, 0x100)], 0x0, 0x0, 0x0, 0x0, 0x0, 0x0, 0x0, none⟩) ?_ ?_ ?_
  · rw [hn]; decide
  · dsimp only; omega
  · simp only [onGrid, Bool.and_eq_true, decide_eq_true_eq, beq_iff_eq]; omega

/-- Outside the CE's window and MC_PCMAP_k a register resets to the word of its row. -/
theorem resetWord_of_rowAt {k : Nat} {r : RegRow} (hr : rowAt k = some r) (hd : r.dims ≠ [(62, 4)])
    (hk : k / 0x100000 ≠ ceNode) : resetWord k = BitVec.ofNat 32 r.rst := by
  have h0 : k ≠ 0x961000 := by rintro rfl; exact hk rfl
  have h1 : k ≠ 0x961004 := by rintro rfl; exact hk rfl
  simp [resetWord, hr, hd, h0, h1]

/-- SS_DSTAT_d resets to 0 (R446). -/
theorem resetWord_ssDstat {d : Nat} (h : d < 1024) : resetWord (Reg.ssDstat d) = 0 := by
  have hn : Reg.ssDstat d / 0x100000 = ssNode := by unfold Reg.ssDstat ssNode; omega
  have ho : Reg.ssDstat d % 0x100000 = 0x20000 + 4 * d := by unfold Reg.ssDstat; omega
  have hr : rowAt (Reg.ssDstat d) = some ⟨0x20000, [(1024, 0x4)], 0x0, 0x0, 0x0, 0x0, 0x0, 0x0, 0x0, none⟩ := by
    rw [rowAt, hn, ho]
    simp [rowsOf, ssNode, nodeKind, rowsSs, rowsSs0, onGrid]
    omega
  exact resetWord_of_rowAt hr (by decide) (by rw [hn]; decide)

/-- SS_ENG_e resets to 0 (R446). -/
theorem resetWord_ssEng {e : Nat} (h : e < 16) : resetWord (Reg.ssEng e) = 0 := by
  have hn : Reg.ssEng e / 0x100000 = ssNode := by unfold Reg.ssEng ssNode; omega
  have ho : Reg.ssEng e % 0x100000 = 0x100 + 4 * e := by unfold Reg.ssEng; omega
  have hr : rowAt (Reg.ssEng e) = some ⟨0x100, [(16, 0x4)], 0x0, 0x0, 0x0, 0x0, 0x0, 0x0, 0x0, none⟩ := by
    rw [rowAt, hn, ho]
    simp [rowsOf, ssNode, nodeKind, rowsSs, rowsSs0, onGrid]
    omega
  exact resetWord_of_rowAt hr (by decide) (by rw [hn]; decide)

/-- PWR_DOM_k resets to STATE = 010b, ON (R298). -/
theorem resetWord_pwrDom {k : Nat} (h : k < 81) : resetWord (Reg.pwrDom k) = 0x2000000 := by
  have hn : Reg.pwrDom k / 0x100000 = pmNode := by unfold Reg.pwrDom pmNode; omega
  have ho : Reg.pwrDom k % 0x100000 = 0x100 + 8 * k := by unfold Reg.pwrDom; omega
  have hr : rowAt (Reg.pwrDom k) =
      some ⟨0x100, [(81, 0x8)], 0x40000000, 0x20000000, 0x0, 0x0, 0x80000000, 0x0, 0x2000000, none⟩ := by
    rw [rowAt, hn, ho]
    simp [rowsOf, pmNode, nodeKind, rowsPm, rowsPm0, onGrid]
    omega
  exact resetWord_of_rowAt hr (by decide) (by rw [hn]; decide)

namespace State

/-- Right after reset every register holds its Reset value (R8). -/
@[simp] theorem reset_reg (k : Nat) : State.reset.reg k = resetWord k := rfl

end State

end Sys2Proof.Machine

open Sys2Proof Sys2Proof.Machine

/-- Settles O6: the register table is empty at reset, so that each register shows the Reset word of its row. -/
theorem resetState : Obligations.ResetState := by
  refine ⟨State.reset_reg, rfl, rfl, rfl, rfl, rfl, rfl, ?_, fun e he => ?_, fun d hd => ?_, fun k hk => ?_, fun _ _ => rfl⟩
  · decide
  · rw [State.engBusy, State.flag, State.reset_reg, resetWord_ssEng he]; rfl
  · rw [State.dState, State.fld, State.reset_reg, resetWord_ssDstat hd]; rfl
  · rw [State.domState, State.fld, State.reset_reg, resetWord_pwrDom hk]; rfl
end

section
/-! PROOFS. The register bus: when an access is made at once, waits or stops a power-down, and which accesses do no more than read or
write the fields of their register. -/

namespace Sys2Proof.Machine.State

variable (s : State) (who : Who) (k k0 : Nat) (v : BitVec 32) (peek : Bool)

/-! ### Accesses to one register -/

/-- A request that cancels a power-down changes registers only (R287). -/
theorem arriving_frame (node : Nat) (pk : Packet) : ∃ r, s.arriving node pk = { s with regs := r } := by
  unfold arriving
  split
  · exact ⟨_, rfl⟩
  · exact ⟨s.regs, rfl⟩

@[simp] theorem arriving_inReset (node : Nat) (pk : Packet) : (s.arriving node pk).inReset = s.inReset := by
  obtain ⟨r, hr⟩ := s.arriving_frame node pk
  rw [hr]; rfl

@[simp] theorem arriving_regFree (node : Nat) (pk : Packet) (wr : Bool) :
    (s.arriving node pk).regFree who k wr peek v = s.regFree who k wr peek v := by
  obtain ⟨r, hr⟩ := s.arriving_frame node pk
  rw [hr]; rfl

/-- A domain whose power-down is cancelled is ON (R287, R298). -/
theorem cancelDown_domState (d : Nat) : (s.cancelDown d).domState d = 2 := by
  have hk : Reg.pwrDom d ≠ Reg.pwrCnt d := by unfold Reg.pwrDom Reg.pwrCnt; omega
  rw [domState, cancelDown, fld, reg_count_other _ hk]
  exact fld_setFld _ _ _ _ _ (by decide) (by decide)

theorem arriving_of_cancels {node d : Nat} {pk : Packet} (ha : s.admission node pk = 4) (hd : domainOf node = some d) :
    s.arriving node pk = s.cancelDown d := by
  simp only [arriving, ha, hd]

/-- What a register's node does with the request of an access. -/
abbrev regAdmission (wr : Bool) : Nat := s.admission (k / 0x100000) (regPacket who k wr peek v)

/-- The state in which that request has reached its node. -/
abbrev regArrived (wr : Bool) : State := s.arriving (k / 0x100000) (regPacket who k wr peek v)

section
variable {who k v peek} {wr : Bool} (f : State → State)

theorem regAccess_of_inReset (h : s.inReset = true) : s.regAccess who k wr peek v f = s := by
  rw [regAccess, if_pos h]

/-- What nothing keeps waiting is done at once. -/
theorem regAccess_of_regNow (h : s.regNow who k wr peek v = true) : s.regAccess who k wr peek v f = f s := by
  have hr : s.inReset ≠ true := by
    intro hr
    simp [regNow, hr] at h
  rw [regAccess, if_neg hr, if_pos h]

/-- In a node's window only a free access that the node serves is made at once. -/
theorem regNow_eq_true_iff (hr : s.inReset = false) (hn : k / 0x100000 < 100) : s.regNow who k wr peek v = true ↔
    s.regFree who k wr peek v = true ∧ s.regAdmission who k v peek wr = 0 := by
  simp [regNow, hr, hn]

/-- What something keeps waiting joins its master's requests (log 90). -/
theorem regAccess_of_waits (hr : s.inReset = false) (hn : k / 0x100000 < 100)
    (h : s.regFree who k wr peek v = false ∨ s.regAdmission who k v peek wr = 1 ∨
      s.regAdmission who k v peek wr = 2 ∨ s.regAdmission who k v peek wr = 3) :
    s.regAccess who k wr peek v f = s.handIn (masterOf who).1 (masterOf who).2 (regPacket who k wr peek v) := by
  have hnow : ¬ s.regNow who k wr peek v = true := by
    rw [s.regNow_eq_true_iff hr hn]
    rintro ⟨hf, ha⟩
    simp [hf, ha] at h
  have hcancel : ¬ (s.regFree who k wr peek v && s.regAdmission who k v peek wr == 4 &&
      (s.regArrived who k v peek wr).regAdmission who k v peek wr == 0) = true := by
    simp only [Bool.and_eq_true, beq_iff_eq]
    rintro ⟨⟨hf, ha⟩, -⟩
    simp [hf, ha] at h
  rw [regAccess, if_neg (by simp [hr]), if_neg hnow, if_neg hcancel]

/-- An access that finds the domain powering down is made once it has stopped that (R287). -/
theorem regAccess_of_cancels (hr : s.inReset = false) (hn : k / 0x100000 < 100) (hf : s.regFree who k wr peek v = true)
    (ha : s.regAdmission who k v peek wr = 4)
    (ht : (s.regArrived who k v peek wr).regAdmission who k v peek wr = 0) :
    s.regAccess who k wr peek v f = (s.regArrived who k v peek wr).regAccess who k wr peek v f := by
  have hnow : ¬ s.regNow who k wr peek v = true := by
    rw [s.regNow_eq_true_iff hr hn, ha]
    simp
  have hthen := (regNow_eq_true_iff (s.regArrived who k v peek wr) (by simpa using hr) hn).mpr
    ⟨by simpa using hf, ht⟩
  rw [regAccess_of_regNow _ f hthen, regAccess, if_neg (by simp [hr]), if_neg hnow, if_pos (by simp [hf, ha, ht])]

end

/-! ### Writes that only reach the fields of their register -/

theorem plainWrite_onlyRegs : s.OnlyRegs (s.plainWrite k v) [k] := by
  unfold plainWrite
  split
  · exact ⟨rfl, fun _ _ => rfl⟩
  · exact ⟨rfl, fun j hj => s.reg_setReg_other (by simpa using hj) _⟩

/-- Each bit of a register written takes what its access code says (R9, R10). -/
theorem flag_plainWrite {r : RegRow} (hr : rowAt k = some r) {i : Nat} (hi : i < 32) :
    (s.plainWrite k v).flag k i =
      if (r.rw ||| r.wo ||| if s.rowLocked (k / 0x100000) r then 0 else r.rwl).testBit i = true then v.getLsbD i
      else s.flag k i && !(v.getLsbD i && r.w1c.testBit i) := by
  simp only [plainWrite, hr, flag, reg_setReg_same]
  generalize (r.rw ||| r.wo ||| if s.rowLocked (k / 0x100000) r then 0 else r.rwl) = m
  simp only [BitVec.getLsbD_or, BitVec.getLsbD_and, BitVec.getLsbD_not, BitVec.getLsbD_ofNat, hi, decide_true, Bool.true_and]
  cases m.testBit i <;> simp

theorem writeCe_eq_plainWrite {o : Nat}
    (ho : o ∉ [0, 0x1C, 0x40, 0x40020, 0x60010, 0x61000, 0x61004, 0x70000, 0x70010, 0x90000])
    (he : 0x72000 ≤ o → o < 0x76000 → s.epoch ≠ decide (0x74000 ≤ o)) : s.writeCe o k v = s.plainWrite k v := by
  unfold writeCe
  split
  case h_11 =>
    split
    · next h => exact if_neg (he h.1 h.2)
    · rfl
  all_goals simp at ho

theorem writeTileReg_eq_plainWrite {t o : Nat} (hr : o ≠ 0x50010) (hw : o ≠ 0x70014)
    (hb : ¬ (0x60000 ≤ o ∧ o < 0x60400 ∧ o % 0x40 = 0)) (hu : ¬ (0xD0000 ≤ o ∧ o < 0xD0100 ∧ o % 0x20 = 0))
    (hc : 0x80000 ≤ o → o < 0xA4000 → (o - 0x80000) % 0x800 ≠ 0x20 ∧
      ¬ (0x200 ≤ (o - 0x80000) % 0x800 ∧ (o - 0x80000) % 0x800 < 0x340 ∧ (o - 0x80000) % 0x800 % 0x40 = 0x10))
    (hp : 0xE0000 ≤ o → o < 0xE8000 → s.rgnState t ≠ 1) : s.writeTileReg who t o k v = s.plainWrite k v := by
  rw [writeTileReg]
  by_cases h : 0x80000 ≤ o ∧ o < 0xA4000
  · obtain ⟨hacc, hwacc⟩ := hc h.1 h.2
    rw [if_pos h, if_neg hacc, if_neg hwacc]
  · rw [if_neg h, if_neg hr, if_neg hb, if_neg hw]
    by_cases hprb : 0xE0000 ≤ o ∧ o < 0xE8000
    · rw [if_pos hprb, if_neg (hp hprb.1 hprb.2)]
    · rw [if_neg hprb, if_neg hu]

theorem writeSs_eq_plainWrite {o : Nat} (ho : o ∉ [0, 0x8, 0xC, 0x10])
    (hd : o < 0x10000 ∨ s.dLive ((o - 0x10000) / 0x40) = false) : s.writeSs o k v = s.plainWrite k v := by
  simp only [List.mem_cons, List.not_mem_nil, or_false, not_or] at ho
  obtain ⟨h0, h8, hC, h10⟩ := ho
  rw [writeSs, if_neg h0, if_neg h8, if_neg hC, if_neg h10]
  split
  · next h =>
    have hlive := hd.resolve_left (by omega)
    simp [hlive]
  · rfl

theorem writeTt_eq_plainWrite {o : Nat} (ho : o ≠ 0x310) (hi : s.ttIgnored who o v = false)
    (hs : 0x2000 ≤ o → o < 0x2800 → o % 0x100 ≠ 0x18 ∧ o % 0x100 ≠ 0x24) : s.writeTt who o k v = s.plainWrite k v := by
  have hrd : ¬ ((decide (0x2000 ≤ o ∧ o < 0x2800) && o % 0x100 == 0x18) = true) := by
    simp only [Bool.and_eq_true, decide_eq_true_eq, beq_iff_eq]
    exact fun ⟨⟨hl, hh⟩, h⟩ => (hs hl hh).1 h
  have hcmd : ¬ ((decide (0x2000 ≤ o ∧ o < 0x2800) && o % 0x100 == 0x24) = true) := by
    simp only [Bool.and_eq_true, decide_eq_true_eq, beq_iff_eq]
    exact fun ⟨⟨hl, hh⟩, h⟩ => (hs hl hh).2 h
  simp only [writeTt]
  rw [if_neg ho, if_neg hrd, if_neg hcmd, if_neg (by simp [hi])]

theorem writeDm_eq_plainWrite {o : Nat} (ho : o ∉ [0, 0x8, 0x80, 0xA0, 0x100, 0x10C]) :
    s.writeDm who o k v = s.plainWrite k v := by
  unfold writeDm
  split
  case h_7 => rfl
  all_goals simp at ho

theorem writePm_eq_plainWrite {o : Nat} (ho : o ∉ [0x10000, 0x20000, 0x20010, 0x20024])
    (hd : ¬ (0x100 ≤ o ∧ o < 0x388 ∧ o % 8 = 0)) : s.writePm who o k v = s.plainWrite k v := by
  unfold writePm
  split
  case h_5 => exact if_neg hd
  all_goals simp at ho

theorem writeTio_eq_plainWrite {o : Nat} (ho : o ∉ [0x2C, 0x30, 0x34]) : s.writeTio o k v = s.plainWrite k v := by
  unfold writeTio
  dsimp only
  split
  case h_4 => rfl
  all_goals simp at ho

theorem writeReg_of_undefined (h : rowAt (s.key k0) = none) : s.writeReg who k0 v = s := by
  simp [writeReg, h]

/-! ### Reads -/

theorem view_of_undefined (h : rowAt (s.key k0) = none) : s.view k0 = 0 := by
  simp [view, h]

theorem readReg_of_peek : s.readReg k0 true = { s with bus := s.view k0 } := rfl

/-- A read that latches nothing and advances no FIFO clears the RC fields of its register (R9). -/
theorem readEffect_eq_setReg {r : RegRow} (hr : rowAt (s.key k0) = some r) (hc : s.key k0 ≠ Reg.seqCycleLo)
    (ht : s.key k0 ≠ Reg.ssTickLo) (hf : ¬ (s.key k0 / 0x100000 = ttNode ∧ 0x2000 ≤ s.key k0 % 0x100000 ∧
      s.key k0 % 0x100000 < 0x2800 ∧ s.key k0 % 0x100 = 0x2C)) :
    s.readEffect k0 false = if r.rc = 0 then s else s.setReg (s.key k0) (s.reg (s.key k0) &&& ~~~BitVec.ofNat 32 r.rc) := by
  simp [readEffect, hr, hc, ht, hf]

/-- A read where no register is defined changes nothing. -/
theorem readEffect_of_undefined (h : rowAt (s.key k0) = none) : s.readEffect k0 peek = s := by
  have hc : s.key k0 ≠ Reg.seqCycleLo := fun e => absurd (e ▸ h) (by decide)
  have ht : s.key k0 ≠ Reg.ssTickLo := fun e => absurd (e ▸ h) (by decide)
  have hf : ¬ (s.key k0 / 0x100000 = ttNode ∧ 0x2000 ≤ s.key k0 % 0x100000 ∧ s.key k0 % 0x100000 < 0x2800 ∧
      s.key k0 % 0x100 = 0x2C) := fun ⟨hn, hl, hh, ho⟩ => rowAt_fifo_ne_none hn hl hh ho h
  cases peek <;> simp [readEffect, h, hc, ht, hf]

/-- Such a place reads 0 (R11). -/
theorem readReg_of_undefined (h : rowAt (s.key k0) = none) : s.readReg k0 peek = { s with bus := 0 } := by
  rw [readReg, s.readEffect_of_undefined _ _ h, s.view_of_undefined _ h, answer]

/-- A read that latches nothing and advances no FIFO answers what the register shows, clears its RC fields, and changes nothing
else (R9). -/
theorem readReg_clears {r : RegRow} (hr : rowAt (s.key k0) = some r) (hc : s.key k0 ≠ Reg.seqCycleLo)
    (ht : s.key k0 ≠ Reg.ssTickLo) (hf : ¬ (nodeKind (s.key k0 / 0x100000) = .tt ∧ 0x2000 ≤ s.key k0 % 0x100000 ∧
      s.key k0 % 0x100000 < 0x2800 ∧ s.key k0 % 0x100 = 0x2C)) :
    s.readReg k0 false = { s with bus := s.view k0, regs := (s.readReg k0 false).regs } ∧
      s.RegsKept (s.readReg k0 false) [s.key k0] ∧
      ∀ i, i < 32 → (s.readReg k0 false).flag (s.key k0) i = (s.flag (s.key k0) i && !r.rc.testBit i) := by
  have hf' : ¬ (s.key k0 / 0x100000 = ttNode ∧ 0x2000 ≤ s.key k0 % 0x100000 ∧ s.key k0 % 0x100000 < 0x2800 ∧
      s.key k0 % 0x100 = 0x2C) := fun h => hf ⟨by rw [h.1]; rfl, h.2⟩
  rw [readReg, s.readEffect_eq_setReg k0 hr hc ht hf']
  split
  · next h => exact ⟨rfl, fun _ _ => rfl, fun i _ => by simp [h, flag]⟩
  · refine ⟨rfl, fun j hj => s.reg_setReg_other (by simpa using hj) _, fun i hi => ?_⟩
    simp only [flag, answer_reg, reg_setReg_same, BitVec.getLsbD_and, BitVec.getLsbD_not, BitVec.getLsbD_ofNat, hi, decide_true,
      Bool.true_and]

theorem key_ssTickLo : s.key Reg.ssTickLo = Reg.ssTickLo := by
  have hn : nodeKind (Reg.ssTickLo / 0x100000) = .ss := by decide
  simp [key, hn]

/-- SS_TICK_LO shows the low half of the tick (R446). -/
theorem view_ssTickLo : s.view Reg.ssTickLo = s.tick.setWidth 32 := by
  have hn : nodeKind (Reg.ssTickLo / 0x100000) = .ss := by decide
  have hr : (rowAt Reg.ssTickLo).isNone = false := by decide
  have ho : Reg.ssTickLo % 0x100000 = 0x18 := by decide
  simp [view, key_ssTickLo, hn, hr, ho, viewSs]

/-- A read of SS_TICK_LO latches the high half of the tick (R446). -/
theorem readEffect_ssTickLo :
    s.readEffect Reg.ssTickLo false = s.setReg Reg.ssTickHi (BitVec.ofNat 32 (s.tick.toNat / 2 ^ 32)) := by
  have hc : Reg.ssTickLo ≠ Reg.seqCycleLo := by decide
  simp [readEffect, key_ssTickLo, hc]

end Sys2Proof.Machine.State

namespace Sys2Proof.Machine

variable (s : State) (who : Who) (k0 : Nat) (v : BitVec 32) (peek : Bool)

theorem exec_registerWrite :
    exec (.registerWrite who k0 v) s = .next (s.regAccess who k0 true false v fun s => s.writeReg who k0 v) := rfl

theorem exec_rcFieldRead :
    exec (.rcFieldRead k0 peek) s = .next (s.regAccess .host k0 false peek 0 fun s => s.readReg k0 peek) := rfl

theorem exec_ssTickLoRead :
    exec (.ssTickLoRead peek) s = .next (s.regAccess .host Reg.ssTickLo false peek 0 fun s => s.readReg Reg.ssTickLo peek) := rfl

end Sys2Proof.Machine

open Sys2Proof Sys2Proof.Machine

/-- Settles O60: an access is made at once, joins its master's requests, or is made once it has stopped a power-down; a read then is
`readReg_clears`, and at each place that only holds its fields the write is `plainWrite`, whose bits follow the access codes. -/
theorem registersKeepTheirAccessCodes : Obligations.RegistersKeepTheirAccessCodes := by
  refine ⟨fun s who k0 v peek => ?_, fun s peek h => ?_⟩
  · intro node wr rd
    refine ⟨fun h => ?inReset, fun hr hn => ⟨fun h => ?writeWaits, fun h => ?readWaits, fun d hf ha ht hd => ?writeCancels,
      fun hf ha ht => ?readCancels⟩, fun h => ?readNow, fun h => ?writeNow⟩
    case inReset =>
      rw [exec_registerWrite, exec_rcFieldRead, s.regAccess_of_inReset _ h, s.regAccess_of_inReset _ h]
      exact ⟨rfl, rfl⟩
    case writeWaits =>
      rw [exec_registerWrite, s.regAccess_of_waits _ hr hn h]
    case readWaits =>
      rw [exec_rcFieldRead, s.regAccess_of_waits _ hr hn h]
      rfl
    case writeCancels =>
      refine ⟨?_, ?_⟩
      · rw [s.arriving_of_cancels ha hd, State.cancelDown_domState]
      · rw [exec_registerWrite, exec_registerWrite, s.regAccess_of_cancels _ hr hn hf ha ht]
    case readCancels =>
      rw [exec_rcFieldRead, exec_rcFieldRead, s.regAccess_of_cancels _ hr hn hf ha ht]
    case readNow =>
      intro k
      rw [exec_rcFieldRead, s.regAccess_of_regNow _ h]
      refine ⟨fun hu => by rw [s.readReg_of_undefined _ _ hu], ?_, ?_⟩
      · rintro rfl
        rw [s.readReg_of_peek]
      · rintro r hr rfl hc ht hf
        exact ⟨_, rfl, s.readReg_clears k0 hr hc ht hf⟩
    case writeNow =>
      intro k o kind plain
      rw [exec_registerWrite, s.regAccess_of_regNow _ h]
      refine ⟨fun hu => by rw [s.writeReg_of_undefined _ _ _ hu], fun r hr hp => ?_⟩
      have hw : s.writeReg who k0 v = s.plainWrite k v := by
        have hd : ¬ (rowAt (s.key k0)).isNone = true := by
          rw [show rowAt (s.key k0) = some r from hr]
          exact Bool.false_ne_true
        rw [State.writeReg, if_neg hd]
        dsimp only [plain, kind, o, k] at hp ⊢
        generalize nodeKind (s.key k0 / 0x100000) = n at hp ⊢
        cases n with
        | ce => exact s.writeCe_eq_plainWrite _ _ hp.1 hp.2
        | tile t =>
          obtain ⟨hracc, hwelt, howner, hunit, hclu, hprb⟩ := hp
          exact s.writeTileReg_eq_plainWrite _ _ _ hracc hwelt howner hunit hclu hprb
        | mc m => exact if_neg hp
        | port p => exact if_neg hp
        | ss => exact s.writeSs_eq_plainWrite _ _ hp.1 hp.2
        | tt =>
          obtain ⟨hstim, hignored, hstream⟩ := hp
          exact s.writeTt_eq_plainWrite _ _ _ hstim hignored hstream
        | dm => exact s.writeDm_eq_plainWrite _ _ _ hp
        | pm => exact s.writePm_eq_plainWrite _ _ _ hp.1 hp.2
        | tio => exact s.writeTio_eq_plainWrite _ _ hp
        | hp => rfl
        | empty => rfl
      rw [hw]
      exact ⟨_, rfl, s.plainWrite_onlyRegs _ _, fun i hi => s.flag_plainWrite _ _ hr hi⟩
  · rw [exec_ssTickLoRead, s.regAccess_of_regNow _ h, State.readReg, State.view_ssTickLo]
    cases peek with
    | true => exact ⟨_, rfl, rfl, fun _ _ => rfl, fun h => nomatch h⟩
    | false =>
      rw [State.readEffect_ssTickLo]
      exact ⟨_, rfl, rfl, fun j hj => s.reg_setReg_other (by simpa using hj) _, fun _ => s.reg_setReg_same _ _⟩
end

section
/-! PROOFS. The sequencer's own registers: clearing SEQ_FAULT, the rate of a window, and the latched high half of the count. -/

namespace Sys2Proof.Machine.State

variable (s : State) (v : BitVec 32)

/-- Registers are what the table of registers says. -/
theorem reg_of_regs {s t : State} (h : t.regs = s.regs) (k : Nat) : t.reg k = s.reg k := by rw [reg, reg, h]

/-! ### SEQ_FAULT -/

/-- A field that reads 0 has no bit set. -/
theorem getLsbD_of_bits_eq_zero {w : Nat} {x : BitVec w} {hi lo i : Nat} (h : bits x hi lo = 0) (hl : lo ≤ i) (hh : i ≤ hi) :
    x.getLsbD i = false := by
  have hb : (x.extractLsb' lo (hi + 1 - lo)).getLsbD (i - lo) = false := by
    rw [← BitVec.testBit_toNat, show (x.extractLsb' lo (hi + 1 - lo)).toNat = 0 from h, Nat.zero_testBit]
  rw [BitVec.getLsbD_extractLsb', decide_eq_true (by omega : i - lo < hi + 1 - lo), Bool.true_and,
    show lo + (i - lo) = i by omega] at hb
  exact hb

/-- What is left of SEQ_FAULT once the fault bits that a write names are cleared; with the last of them goes the rest (R48). -/
def faultLeft : BitVec 32 :=
  let w := s.reg Reg.seqFault &&& ~~~(v &&& 0x3F#32)
  if bits w 5 0 = 0 then 0 else w

theorem seqFaultWrite_frame : s.seqFaultWrite v =
    { s with regs := (s.seqFaultWrite v).regs, seq := { s.seq with uePend := s.seq.uePend && !v.getLsbD 5 } } := by
  simp only [seqFaultWrite]
  by_cases h0 : (s.setReg Reg.seqFault (s.reg Reg.seqFault &&& ~~~(v &&& 0x3F#32))).fld Reg.seqFault 5 0 = 0 <;>
    cases h5 : v.getLsbD 5 <;>
    simp only [h0, if_true, if_false, Bool.false_eq_true, Bool.not_false, Bool.not_true, Bool.and_true, Bool.and_false] <;> rfl

theorem seqFaultWrite_reg (k : Nat) : (s.seqFaultWrite v).reg k = if k = Reg.seqFault then s.faultLeft v else s.reg k := by
  have hf : ∀ w, (s.setReg Reg.seqFault w).fld Reg.seqFault 5 0 = bits w 5 0 := fun w => by rw [fld, reg_setReg_same]
  simp only [seqFaultWrite, faultLeft, hf]
  by_cases h0 : bits (s.reg Reg.seqFault &&& ~~~(v &&& 0x3F#32)) 5 0 = 0
  · have h2 : ∀ w, ((s.setReg Reg.seqFault w).setReg Reg.seqFault 0).reg k = if k = Reg.seqFault then 0 else s.reg k := by
      intro w
      rw [reg_setReg, reg_setReg]
      split <;> rfl
    simp only [h0, if_true]
    cases v.getLsbD 5
    · exact h2 _
    · exact (reg_of_regs rfl k).trans (h2 _)
  · simp only [h0, if_false]
    cases v.getLsbD 5
    · exact reg_setReg _ _ _ _
    · exact (reg_of_regs rfl k).trans (reg_setReg _ _ _ _)

theorem getLsbD_faultLeft_low {i : Nat} (hi : i < 6) :
    (s.faultLeft v).getLsbD i = (s.flag Reg.seqFault i && !v.getLsbD i) := by
  have hw : (s.reg Reg.seqFault &&& ~~~(v &&& 0x3F#32)).getLsbD i = (s.flag Reg.seqFault i && !v.getLsbD i) := by
    have h1 : (0x3F#32).getLsbD i = true := by revert i; decide
    rw [BitVec.getLsbD_and, BitVec.getLsbD_not, BitVec.getLsbD_and, h1, Bool.and_true, decide_eq_true (by omega : i < 32),
      Bool.true_and, flag]
  simp only [faultLeft]
  split
  · next h0 => rw [← hw, getLsbD_of_bits_eq_zero h0 (Nat.zero_le i) (by omega)]; simp
  · exact hw

theorem getLsbD_faultLeft_high {i : Nat} (hl : 6 ≤ i) (hi : i < 32) :
    (s.faultLeft v).getLsbD i = (s.flag Reg.seqFault i && decide (bits (s.faultLeft v) 5 0 ≠ 0)) := by
  have hw : (s.reg Reg.seqFault &&& ~~~(v &&& 0x3F#32)).getLsbD i = s.flag Reg.seqFault i := by
    have h0 : (0x3F#32).getLsbD i = false := by
      rw [BitVec.getLsbD_ofNat, Nat.testBit_lt_two_pow (lt_of_lt_of_le (by decide : 0x3F < 2 ^ 6) (Nat.pow_le_pow_right (by decide) hl)),
        Bool.and_false]
    rw [BitVec.getLsbD_and, BitVec.getLsbD_not, BitVec.getLsbD_and, h0, Bool.and_false, decide_eq_true hi, Bool.true_and,
      Bool.not_false, Bool.and_true, flag]
  simp only [faultLeft]
  split
  · simp [bits]
  · next h0 => rw [hw, decide_eq_true h0, Bool.and_true]

/-! ### The rate of a window (R36, R47) -/

/-- Where a tile takes part, the slowest of those that do has the steps of one of them, and no other has fewer. -/
theorem slowest_spec {k : Nat} (hk : k < 64) (ha : s.tileActive k = true) :
    s.slowest ≤ s.stepsOf k ∧ ∃ j, j < 64 ∧ s.tileActive j = true ∧ s.slowest = s.stepsOf j := by
  have hm : s.stepsOf k ∈ ((List.range 64).filter s.tileActive).map s.stepsOf :=
    List.mem_map_of_mem (List.mem_filter.mpr ⟨List.mem_range.mpr hk, ha⟩)
  have hlow : s.slowest ∈ ((List.range 64).filter s.tileActive).map s.stepsOf ∧ s.slowest ≤ s.stepsOf k := by
    unfold slowest
    cases h : ((List.range 64).filter s.tileActive).map s.stepsOf with
    | nil => rw [h] at hm; exact absurd hm List.not_mem_nil
    | cons n l =>
      obtain ⟨hmem, hle⟩ := List.min?_eq_some_iff.mp (List.min?_cons' (x := n) (xs := l))
      exact ⟨hmem, hle _ (h ▸ hm)⟩
  obtain ⟨hmem, hle⟩ := hlow
  obtain ⟨j, hj, he⟩ := List.mem_map.mp hmem
  obtain ⟨hj64, hja⟩ := List.mem_filter.mp hj
  exact ⟨hle, j, List.mem_range.mp hj64, hja, he.symm⟩

/-- The slowest tile, where one is no faster than any other. -/
theorem slowest_eq {k : Nat} (hk : k < 64) (ha : s.tileActive k = true)
    (hmin : ∀ j, j < 64 → s.tileActive j = true → s.stepsOf k ≤ s.stepsOf j) : s.slowest = s.stepsOf k := by
  obtain ⟨hle, j, hj, hja, he⟩ := s.slowest_spec hk ha
  exact le_antisymm hle (he ▸ hmin j hj hja)

theorem slowest_of_none (h : ∀ k, k < 64 → s.tileActive k = false) : s.slowest = 0 := by
  have hn : (List.range 64).filter s.tileActive = [] :=
    List.filter_eq_nil_iff.mpr fun k hk => by simp [h k (List.mem_range.mp hk)]
  rw [slowest, hn]
  rfl

theorem rateWindow_whole_reg (k : Nat) : (s.rateWindow true).reg k =
    if k = Reg.seqRate then BitVec.ofNat 32 (min 65535 (s.slowest / 1024)) else s.reg k :=
  (reg_of_regs rfl k).trans (s.reg_setReg _ _ _)

end Sys2Proof.Machine.State

namespace Sys2Proof.Machine

variable (s : State)

theorem exec_seqFaultWrite (v : BitVec 32) : exec (.seqFaultWrite v) s =
    .next (s.regAccess .host Reg.seqFault true false v fun s => s.seqFaultWrite v) := rfl

theorem exec_seqRateWindow (whole : Bool) : exec (.seqRateWindow whole) s = .next (s.rateWindow whole) := rfl

theorem exec_seqCycleLoRead (peek : Bool) : exec (.seqCycleLoRead peek) s =
    .next (s.regAccess .host Reg.seqCycleLo false peek 0 fun s => s.cycleLoRead peek) := rfl

end Sys2Proof.Machine

open Sys2Proof Sys2Proof.Machine

/-- Settles O8: an access that nothing keeps waiting is made at once; what it leaves in SEQ_FAULT is `State.faultLeft`, and the rate is
that of the tile with the fewest steps. -/
theorem sequencerRegisterCommands : Obligations.SequencerRegisterCommands := by
  refine ⟨fun s v h => ?fault, fun s => rfl, fun s => ?rate, fun s peek h => ?count⟩
  case fault =>
    rw [exec_seqFaultWrite, s.regAccess_of_regNow _ h]
    have hf : (s.seqFaultWrite v).reg Reg.seqFault = s.faultLeft v := by rw [s.seqFaultWrite_reg, if_pos rfl]
    refine ⟨_, rfl, ?_, fun k hk => ?_, ?_, fun i hi => ?_, fun i hl hi => ?_⟩
    · conv_lhs => rw [s.seqFaultWrite_frame]
      rw [s.seqFaultWrite_frame]
    · rw [s.seqFaultWrite_reg, if_neg (by simpa using hk)]
    · rw [s.seqFaultWrite_frame]
    · rw [State.flag, hf, s.getLsbD_faultLeft_low v hi]
    · rw [State.flag, State.fld, hf, s.getLsbD_faultLeft_high v hl hi]
  case rate =>
    have hr : (s.rateWindow true).reg Reg.seqRate = BitVec.ofNat 32 (min 65535 (s.slowest / 1024)) := by
      rw [s.rateWindow_whole_reg, if_pos rfl]
    rw [exec_seqRateWindow]
    refine ⟨_, rfl, rfl, fun k hk => ?_, fun k hk ha => ?_, fun k hk ha hmin => ?_, fun hn => ?_⟩
    · rw [s.rateWindow_whole_reg, if_neg (by simpa using hk)]
    · have hle := Nat.div_le_div_right (c := 1024) (s.slowest_spec hk ha).1
      rw [hr, BitVec.toNat_ofNat]
      omega
    · rw [hr, s.slowest_eq hk ha hmin]
    · rw [hr, s.slowest_of_none hn]
      rfl
  case count =>
    rw [exec_seqCycleLoRead, s.regAccess_of_regNow _ h]
    cases peek with
    | true => exact ⟨_, rfl, rfl, rfl, fun _ _ => rfl, fun h => nomatch h⟩
    | false => exact ⟨_, rfl, rfl, rfl, fun k hk => s.reg_setReg_other (by simpa using hk) _, fun _ => s.reg_setReg_same _ _⟩
end

section
/-! PROOFS. What the reports of a cluster's step write: the ledger, SEQ_FAULT and the fault registers; and what they leave alone. -/

namespace Sys2Proof.Machine

/-- The tiles stand in the inner rows and columns of the network (R264). -/
theorem tileNode_bounds {t : Nat} (h : t < 64) : 11 ≤ tileNode t ∧ tileNode t ≤ 88 := by
  unfold tileNode; omega

/-- A fold over a range in which step j works on the part of key j alone: every part below the range's end has had its one step.
inv is what the steps rely on beside that part. -/
theorem foldl_range_local {σ β : Type} (inv : σ → Prop) (part : σ → Nat → β) (f : σ → Nat → σ) (g : Nat → β → β) (n : Nat)
    (keep : ∀ y j, j < n → inv y → inv (f y j)) (same : ∀ y j, j < n → inv y → part (f y j) j = g j (part y j))
    (other : ∀ y j k, k ≠ j → part (f y j) k = part y k) (x : σ) (hx : inv x) (k : Nat) :
    part ((List.range n).foldl f x) k = if k < n then g k (part x k) else part x k := by
  induction n with
  | zero => simp
  | succ n ih =>
    have hinv : inv ((List.range n).foldl f x) :=
      List.foldlRecOn _ f hx fun y hy j hj => keep y j (Nat.lt_succ_of_lt (List.mem_range.mp hj)) hy
    have ih := ih (fun y j hj => keep y j (Nat.lt_succ_of_lt hj)) (fun y j hj => same y j (Nat.lt_succ_of_lt hj))
    rw [List.range_succ, List.foldl_append, List.foldl_cons, List.foldl_nil]
    by_cases hk : k = n
    · subst hk
      rw [same _ _ (Nat.lt_succ_self k) hinv, ih, if_neg (lt_irrefl k), if_pos (Nat.lt_succ_self k)]
    · rw [other _ _ _ hk, ih]
      exact if_congr (by omega) rfl rfl

namespace State

variable (s : State)

/-! ### Reports of the sequencer (R40, R48, R556) -/

/-- The registers that a report writes. -/
def reportRegs : List Nat := [Reg.sprLgWr, Reg.sprLgLost, Reg.seqFault]

theorem seqFaultBit_frame (b : Nat) : ∃ r x, s.seqFaultBit b = { s with regs := r, net := x } := by
  simp only [seqFaultBit]
  rw [irqIf_frame]
  exact ⟨_, _, rfl⟩

theorem seqFaultBit_reg_other (b : Nat) {k : Nat} (h : k ≠ Reg.seqFault) : (s.seqFaultBit b).reg k = s.reg k := by
  rw [seqFaultBit, irqIf_reg]
  exact s.reg_setFlag_other h _ _

theorem flag_seqFaultBit {b : Nat} (h : b < 32) : (s.seqFaultBit b).flag Reg.seqFault b = true := by
  rw [seqFaultBit, flag, irqIf_reg]
  exact s.flag_setFlag _ _ _ h

theorem nameTile_frame (tile : Option (Nat × Nat)) (stored : Bool) : ∃ r, s.nameTile tile stored = { s with regs := r } := by
  unfold nameTile
  split
  · split
    · exact ⟨_, rfl⟩
    · exact ⟨s.regs, rfl⟩
  · exact ⟨s.regs, rfl⟩

theorem nameTile_reg_other (tile : Option (Nat × Nat)) (stored : Bool) {k : Nat} (h : k ≠ Reg.seqFault) :
    (s.nameTile tile stored).reg k = s.reg k := by
  unfold nameTile
  split
  · split
    · exact s.reg_setFld_other h _ _ _
    · rfl
  · rfl

/-- Naming the tile leaves the fault bits alone. -/
theorem flag_nameTile (tile : Option (Nat × Nat)) (stored : Bool) {b : Nat} (h : b < 16) :
    (s.nameTile tile stored).flag Reg.seqFault b = s.flag Reg.seqFault b := by
  unfold nameTile
  split
  · split
    · rw [flag, setFld, reg_setReg_same, getLsbD_setBits_other _ _ _ _ _ (Or.inl h) (by omega), flag]
    · rfl
  · rfl

section report

variable (b code node : Nat) (tile : Option (Nat × Nat)) (det0 det1 det2 : Nat)

theorem seqReport_frame : ∃ r x l, s.seqReport b code node tile det0 det1 det2 = { s with regs := r, net := x, ledger := l } := by
  obtain ⟨_, _, _, hr⟩ := s.record_frame 2 1 code node det0 det1 det2
  obtain ⟨_, _, hb⟩ := (s.record 2 1 code node det0 det1 det2).seqFaultBit_frame b
  obtain ⟨_, hn⟩ := ((s.record 2 1 code node det0 det1 det2).seqFaultBit b).nameTile_frame tile s.ledgerRoom
  rw [seqReport, hn, hb, hr]
  exact ⟨_, _, _, rfl⟩

theorem seqReport_reg_other {k : Nat} (h : k ∉ reportRegs) :
    (s.seqReport b code node tile det0 det1 det2).reg k = s.reg k := by
  simp only [reportRegs, List.mem_cons, List.not_mem_nil, or_false, not_or] at h
  obtain ⟨hw, hl, hf⟩ := h
  rw [seqReport, nameTile_reg_other _ _ _ hf, seqFaultBit_reg_other _ _ hf, record_reg _ _ _ _ _ _ _ _ _ hw hl]

theorem flag_seqReport (h : b < 16) : (s.seqReport b code node tile det0 det1 det2).flag Reg.seqFault b = true := by
  rw [seqReport, flag_nameTile _ _ _ h, flag_seqFaultBit _ (by omega)]

/-- What an uncorrected error of a memory can change (R40). -/
theorem memError_frame : ∃ r x l u, s.memError node tile det0 det1 det2 =
    { s with regs := r, net := x, ledger := l, seq := { s.seq with uePend := u } } := by
  obtain ⟨_, _, _, hr⟩ := s.seqReport_frame 5 5 node tile det0 det1 det2
  unfold memError
  dsimp only
  split
  · split
    · rw [hr]; exact ⟨_, _, _, _, rfl⟩
    · rw [hr]; exact ⟨_, _, _, s.seq.uePend, rfl⟩
  · rw [hr]; exact ⟨_, _, _, s.seq.uePend, rfl⟩

theorem memError_reg_other {k : Nat} (h : k ∉ reportRegs) (hl : k ≠ Reg.seqLoss) :
    (s.memError node tile det0 det1 det2).reg k = s.reg k := by
  unfold memError
  dsimp only
  split
  · split
    · exact (reg_of_regs rfl k).trans ((reg_setFlag_other _ hl _ _).trans (s.seqReport_reg_other _ _ _ _ _ _ _ h))
    · exact (reg_setFlag_other _ hl _ _).trans (s.seqReport_reg_other _ _ _ _ _ _ _ h)
  · exact s.seqReport_reg_other _ _ _ _ _ _ _ h

end report

/-! ### What stands beside a cluster's step -/

/-- The registers that the step of a cluster reads: the schedule length, the cluster's skipped units, its WUs' settings, the tile's
context. -/
def stepReads (t c k : Nat) : Prop :=
  k = Reg.seqCtrl ∨ k = Reg.cluMap t c ∨ k = Reg.nocMctx t ∨ ∃ pw, pw < 5 ∧ k = Reg.cluWcfg t c pw

/-- From s to s' nothing changes that the step of a cluster rests on, but for lanes and master interfaces. -/
structure StepKept (t c : Nat) (s s' : State) : Prop where
  reads : ∀ k, stepReads t c k → s'.reg k = s.reg k
  cycle : s'.seq.cycle = s.seq.cycle
  run : s'.seq.run = s.seq.run
  faulted : s'.seq.faulted = s.seq.faulted
  clus : s'.clus = s.clus
  spad : s'.spad = s.spad
  hbm : s'.hbm = s.hbm

/-- Neither do lanes nor master interfaces. -/
structure StepAside (t c : Nat) (s s' : State) : Prop extends StepKept t c s s' where
  lanes : s'.lanes = s.lanes
  masters : s'.masters = s.masters

variable {s} {s' s'' : State} {t c : Nat}

theorem StepKept.refl : StepKept t c s s := ⟨fun _ _ => rfl, rfl, rfl, rfl, rfl, rfl, rfl⟩

theorem StepKept.trans (h : StepKept t c s s') (h' : StepKept t c s' s'') : StepKept t c s s'' where
  reads k hk := (h'.reads k hk).trans (h.reads k hk)
  cycle := h'.cycle.trans h.cycle
  run := h'.run.trans h.run
  faulted := h'.faulted.trans h.faulted
  clus := h'.clus.trans h.clus
  spad := h'.spad.trans h.spad
  hbm := h'.hbm.trans h.hbm

theorem StepAside.refl : StepAside t c s s := ⟨StepKept.refl, rfl, rfl⟩

theorem StepAside.trans (h : StepAside t c s s') (h' : StepAside t c s' s'') : StepAside t c s s'' where
  toStepKept := h.toStepKept.trans h'.toStepKept
  lanes := h'.lanes.trans h.lanes
  masters := h'.masters.trans h.masters

theorem StepAside.foldl {α : Type} (f : State → α → State) (l : List α) (h : ∀ u, ∀ a ∈ l, StepAside t c u (f u a)) (s : State) :
    StepAside t c s (l.foldl f s) :=
  List.foldlRecOn l f StepAside.refl fun u hu a ha => hu.trans (h u a ha)

/-- A write of a register that the step does not read. -/
theorem StepAside.setReg {k : Nat} (hk : ¬ stepReads t c k) (v : BitVec 32) : StepAside t c s (s.setReg k v) :=
  ⟨⟨fun j hj => s.reg_setReg_other (by rintro rfl; exact hk hj) v, rfl, rfl, rfl, rfl, rfl, rfl⟩, rfl, rfl⟩

/-- What has the same registers, count, run, clusters, lanes, interfaces and memories. -/
theorem StepAside.of_regs (hr : s'.regs = s.regs) (hq : s'.seq = s.seq) (hc : s'.clus = s.clus) (hl : s'.lanes = s.lanes)
    (hm : s'.masters = s.masters) (hs : s'.spad = s.spad) (hh : s'.hbm = s.hbm) : StepAside t c s s' :=
  ⟨⟨fun k _ => reg_of_regs hr k, by rw [hq], by rw [hq], by rw [hq], hc, hs, hh⟩, hl, hm⟩

section kept

variable (h : StepKept t c s s')
include h

theorem StepKept.fld {k : Nat} (hk : stepReads t c k) (hi lo : Nat) : s'.fld k hi lo = s.fld k hi lo := by
  rw [State.fld, State.fld, h.reads k hk]

theorem StepKept.wuSkip : s'.wuSkip t c = s.wuSkip t c := h.fld (Or.inr (Or.inl rfl)) _ _

theorem StepKept.bpSkips : s'.bpSkips t c = s.bpSkips t c := by
  rw [State.bpSkips, State.bpSkips, h.reads _ (Or.inr (Or.inl rfl))]

theorem StepKept.bpEnv (x : Cluster) (ue : List SramErr) : s'.bpEnv t c x ue = s.bpEnv t c x ue := by
  rw [State.bpEnv, State.bpEnv, h.cycle, h.bpSkips, h.wuSkip]

theorem StepKept.mullat {pw : Nat} (hp : pw < 5) : s'.mullat t c pw = s.mullat t c pw := by
  rw [State.mullat, State.mullat, h.fld (Or.inr (Or.inr (Or.inr ⟨pw, hp, rfl⟩)))]

theorem StepKept.len : s'.len = s.len := by rw [State.len, State.len, h.fld (Or.inl rfl)]

theorem StepKept.par : s'.par = s.par := by rw [State.par, State.par, h.cycle]

theorem StepKept.wuPacket (pw : Nat) (u : Wu) (w : BitVec 128) : s'.wuPacket t c pw u w = s.wuPacket t c pw u w := by
  rw [State.wuPacket, State.wuPacket, h.fld (Or.inr (Or.inr (Or.inl rfl)))]

end kept

/-! ### Registers that the step does not read -/

/-- A register outside the tile's window that is not SEQ_CTRL. -/
theorem not_stepReads_of_node {k : Nat} (hc : c < 72) (hn : k / 0x100000 ≠ tileNode t) (hk : k ≠ Reg.seqCtrl) :
    ¬ stepReads t c k := by
  rintro (rfl | rfl | rfl | ⟨pw, hp, rfl⟩)
  · exact hk rfl
  · apply hn; unfold Reg.cluMap; omega
  · apply hn; unfold Reg.nocMctx; omega
  · apply hn; unfold Reg.cluWcfg; omega

/-- A register of the cluster's own block that is neither CLU_MAP nor a CLU_WCFG. -/
theorem not_stepReads_of_block {o : Nat} (ht : t < 64) (hc : c < 72) (ho : o < 0x800) (hm : o ≠ 4)
    (hw : ∀ pw, pw < 5 → o ≠ 0x208 + 0x40 * pw) : ¬ stepReads t c (tileNode t * 0x100000 + 0x80000 + 0x800 * c + o) := by
  have hb := tileNode_bounds ht
  rintro (h | h | h | ⟨pw, hp, h⟩)
  · simp only [Reg.seqCtrl] at h; omega
  · simp only [Reg.cluMap] at h; omega
  · simp only [Reg.nocMctx] at h; omega
  · simp only [Reg.cluWcfg] at h
    have := hw pw hp
    omega

theorem not_stepReads_of_reportRegs {k : Nat} (ht : t < 64) (hc : c < 72) (hk : k ∈ Reg.seqLoss :: reportRegs) :
    ¬ stepReads t c k := by
  have hb := tileNode_bounds ht
  simp only [reportRegs, List.mem_cons, List.not_mem_nil, or_false] at hk
  rcases hk with rfl | rfl | rfl | rfl <;> refine not_stepReads_of_node hc ?_ (by decide) <;>
    simp only [Reg.seqLoss, Reg.sprLgWr, Reg.sprLgLost, Reg.seqFault] <;> omega

/-! ### Soft errors of the stores (R83) -/

theorem memError_stepAside (ht : t < 64) (hc : c < 72) (s : State) (node : Nat) (tile : Option (Nat × Nat)) (det0 det1 det2 : Nat) :
    StepAside t c s (s.memError node tile det0 det1 det2) := by
  have hreads : ∀ k, stepReads t c k → (s.memError node tile det0 det1 det2).reg k = s.reg k := fun k hk =>
    s.memError_reg_other _ _ _ _ _ (fun hm => not_stepReads_of_reportRegs ht hc (List.mem_cons_of_mem _ hm) hk)
      (fun e => not_stepReads_of_reportRegs ht hc (e ▸ List.mem_cons_self) hk)
  obtain ⟨r, x, l, u, he⟩ := s.memError_frame node tile det0 det1 det2
  exact ⟨⟨hreads, by rw [he], by rw [he], by rw [he], by rw [he], by rw [he], by rw [he]⟩, by rw [he], by rw [he]⟩

theorem sramErrors_stepAside (ht : t < 64) (hc : c < 72) (s : State) (ue : List SramErr) :
    StepAside t c s (s.sramErrors t c ue) := by
  refine StepAside.foldl _ _ (fun u e _ => ?_) s
  split
  · exact memError_stepAside ht hc _ _ _ _ _ _
  · exact StepAside.refl

/-! ### A cluster's faults (R26, R82, R93) -/

/-- From s to s' cluster c of tile t becomes z; no other cluster, no lane, no master interface and no byte of memory changes. -/
structure ClusterSet (t c : Nat) (z : Cluster) (s s' : State) : Prop where
  clus : ∀ k, tget (fun _ => Cluster.empty) s'.clus k = if k = 72 * t + c then z else tget (fun _ => Cluster.empty) s.clus k
  lanes : s'.lanes = s.lanes
  masters : s'.masters = s.masters
  spad : s'.spad = s.spad
  hbm : s'.hbm = s.hbm

theorem ClusterSet.setClu (z : Cluster) : ClusterSet t c z s (s.setClu t c z) := ⟨fun k => tget_tput _ _ k z _, rfl, rfl, rfl, rfl⟩

theorem ClusterSet.clu {z : Cluster} (h : ClusterSet t c z s s') : s'.clu t c = z := (h.clus _).trans (if_pos rfl)

theorem ClusterSet.clustersKept {z : Cluster} (h : ClusterSet t c z s s') : s.ClustersKept s' t c := fun k hk =>
  (h.clus k).trans (if_neg hk)

theorem ClusterSet.memoryKept {z : Cluster} (h : ClusterSet t c z s s') : s.MemoryKept s' :=
  ⟨fun a => by rw [h.spad], fun a => by rw [h.hbm]⟩

/-- A cluster put in place twice is the one put there last. -/
theorem ClusterSet.of_set {y z : Cluster} (hy : ClusterSet t c y s s') (h : ClusterSet t c z s' s'') : ClusterSet t c z s s'' where
  clus k := by
    rw [h.clus, hy.clus]
    split <;> rfl
  lanes := h.lanes.trans hy.lanes
  masters := h.masters.trans hy.masters
  spad := h.spad.trans hy.spad
  hbm := h.hbm.trans hy.hbm

theorem ClusterSet.of_aside {z : Cluster} (ha : StepAside t c s s') (h : ClusterSet t c z s' s'') : ClusterSet t c z s s'' where
  clus k := by rw [h.clus, ha.clus]
  lanes := h.lanes.trans ha.lanes
  masters := h.masters.trans ha.masters
  spad := h.spad.trans ha.spad
  hbm := h.hbm.trans ha.hbm

/-- From s to s' a fault stops cluster c of tile t, which is z but for that, and with it the run: bit b of CLU_FAULT and bit sb of
SEQ_FAULT say so. -/
structure ClusterStops (t c : Nat) (z : Cluster) (b sb : Nat) (s s' : State) : Prop extends
    ClusterSet t c { z with faulted := true } s s' where
  cluFault : s'.flag (Reg.cluFault t c) b = true
  seqFault : s'.flag Reg.seqFault sb = true
  stopped : s'.seq.faulted = true

theorem ClusterStops.of_aside {z : Cluster} {b sb : Nat} (ha : StepAside t c s s') (h : ClusterStops t c z b sb s' s'') :
    ClusterStops t c z b sb s s'' :=
  { h.toClusterSet.of_aside ha with cluFault := h.cluFault, seqFault := h.seqFault, stopped := h.stopped }

theorem ClusterStops.of_set {y z : Cluster} {b sb : Nat} (hy : ClusterSet t c y s s') (h : ClusterStops t c z b sb s' s'') :
    ClusterStops t c z b sb s s'' :=
  { hy.of_set h.toClusterSet with cluFault := h.cluFault, seqFault := h.seqFault, stopped := h.stopped }

theorem cluFault_not_mem_reportRegs (ht : t < 64) : Reg.cluFault t c ∉ reportRegs := by
  have hb := tileNode_bounds ht
  simp only [reportRegs, List.mem_cons, List.not_mem_nil, or_false, Reg.cluFault, Reg.sprLgWr, Reg.sprLgLost, Reg.seqFault]
  omega

theorem master_setFlag (s : State) (k i : Nat) (b : Bool) (n m : Nat) : (s.setFlag k i b).master n m = s.master n m := rfl

theorem setFlag_frame (s : State) (k i : Nat) (b : Bool) : ∃ r, s.setFlag k i b = { s with regs := r } := ⟨_, rfl⟩

theorem setFld_frame (s : State) (k hi lo v : Nat) : ∃ r, s.setFld k hi lo v = { s with regs := r } := ⟨_, rfl⟩

theorem clusterFault_stops (ht : t < 64) (hrun : s.seq.run = true) (z : Cluster) {b sb : Nat} (hb : b < 32) (hsb : sb < 16)
    (low code det0 det1 : Nat) : ClusterStops t c z b sb s (s.clusterFault t c z b low code sb det0 det1) := by
  obtain ⟨r0, h0⟩ : ∃ r, (if s.fld (Reg.cluFault t c) 31 29 == 0 then s.setFld (Reg.cluFault t c) 28 0 low else s) =
      { s with regs := r } := by
    split
    · exact s.setFld_frame _ _ _ _
    · exact ⟨s.regs, rfl⟩
  unfold clusterFault
  dsimp only
  rw [h0]
  obtain ⟨r1, h1⟩ := ({ s with regs := r0 } : State).setFlag_frame (Reg.cluFault t c) b true
  have hflag : ({ s with regs := r1 } : State).flag (Reg.cluFault t c) b = true := by
    have h := ({ s with regs := r0 } : State).flag_setFlag (Reg.cluFault t c) b true hb
    rwa [h1] at h
  rw [h1]
  generalize hv : ({ s with regs := r1 } : State).setClu t c { z with faulted := true } = v
  have hset : ClusterSet t c { z with faulted := true } s v := by
    rw [← hv]
    exact { ClusterSet.setClu (s := { s with regs := r1 }) _ with }
  have hvr : v.seq.run = true := by
    rw [← hv]
    exact hrun
  obtain ⟨r, x, l, he⟩ := v.seqReport_frame sb code (tileNode t) (v.lastTile t) det0 det1 0
  refine ⟨⟨?_, ?_, ?_, ?_, ?_⟩, ?_, ?_, ?_⟩
  · rw [he]; exact hset.clus
  · rw [he]; exact hset.lanes
  · rw [he]; exact hset.masters
  · rw [he]; exact hset.spad
  · rw [he]; exact hset.hbm
  · rw [flag, stopRun_reg, v.seqReport_reg_other _ _ _ _ _ _ _ (cluFault_not_mem_reportRegs ht), ← hv, setClu_reg]
    exact hflag
  · rw [flag, stopRun_reg]
    exact v.flag_seqReport _ _ _ _ _ _ _ hsb
  · rw [he]; simp [stopRun, hvr]

theorem tagFault_stops (ht : t < 64) (hrun : s.seq.run = true) (z : Cluster) (pos step expTag rcvTag : Nat) :
    ClusterStops t c z 31 0 s (s.tagFault t c z false pos step expTag rcvTag) :=
  clusterFault_stops ht hrun z (by decide) (by decide) _ _ _ _

theorem orphanFault_stops (ht : t < 64) (hrun : s.seq.run = true) (z : Cluster) (pos step expTag rcvTag : Nat) :
    ClusterStops t c z 30 1 s (s.tagFault t c z true pos step expTag rcvTag) :=
  clusterFault_stops ht hrun z (by decide) (by decide) _ _ _ _

theorem iparFault_stops (ht : t < 64) (hrun : s.seq.run = true) (z : Cluster) (kind idx slot : Nat) :
    ClusterStops t c z 29 3 s (s.iparFault t c z kind idx slot) :=
  clusterFault_stops ht hrun z (by decide) (by decide) _ _ _ _

end State

end Sys2Proof.Machine
end

section
/-! PROOFS. Turning to a step: what the cluster fetches (R82, R103, R122), and the faults that a fetch or a head raises. -/

namespace Sys2Proof.Machine

/-! ### Parts of a cluster -/

@[simp] theorem Cluster.wu_setWu (x : Cluster) (w : Nat) (u : Wu) : (x.setWu w u).wu w = u := tget_tput_same _ _ _ _

theorem Cluster.wu_setWu_other (x : Cluster) {w k : Nat} (h : k ≠ w) (u : Wu) : (x.setWu w u).wu k = x.wu k :=
  tget_tput_other _ h _ _

/-- A WU once its cluster has turned to a step: with the word it issues, and the scratchpad request of that word unless one of the
present step has been granted. -/
def Wu.turnedTo (u : Wu) (step : Nat) (ue : List SramErr) (pw : Nat) : Wu :=
  let w := (issueEntry u step).map fun e => u.progAt e ^^^ sramFlip ue 0 pw e
  { u with word := w, sp := match u.sp with
    | some r => if r.granted then some r else w.bind (spOf u)
    | none => w.bind (spOf u) }

namespace Cluster

variable (x : Cluster) (ue : List SramErr)

/-- The cluster with the lane-table entry of its step fetched. -/
def tableFetched : Cluster :=
  { x with laneWord := x.laneAt x.step ^^^ (sramFlip ue 6 0 x.step).setWidth 24, turned := true }

theorem turnedTo_eq : x.turnedTo ue =
    (List.range 5).foldl (fun y pw => y.setWu pw ((y.wu pw).turnedTo y.step ue pw)) (x.tableFetched ue) := rfl

theorem turnedTo_frame : ∃ l, x.turnedTo ue = { x.tableFetched ue with wus := l } := by
  rw [turnedTo_eq]
  refine List.foldlRecOn (motive := fun y : Cluster => ∃ l, y = { x.tableFetched ue with wus := l }) _ _ ⟨_, rfl⟩ ?_
  rintro y ⟨l, rfl⟩ pw -
  exact ⟨_, rfl⟩

theorem turnedTo_wu {w : Nat} (hw : w < 5) : (x.turnedTo ue).wu w = (x.wu w).turnedTo x.step ue w := by
  have h := foldl_range_local (fun y : Cluster => y.step = x.step) wu
    (fun y pw => y.setWu pw ((y.wu pw).turnedTo y.step ue pw)) (fun pw u => u.turnedTo x.step ue pw) 5
    (fun y pw _ hy => hy) (fun y pw _ hy => by rw [wu_setWu, hy]) (fun y pw k hk => y.wu_setWu_other hk _) (x.tableFetched ue)
    rfl w
  rw [if_pos hw] at h
  rw [turnedTo_eq, h]
  rfl

theorem turnedTo_word {w : Nat} (hw : w < 5) : ((x.turnedTo ue).wu w).word = wuFetch x ue w := by
  rw [x.turnedTo_wu ue hw]; rfl

/-- A WU without a granted request presents that of its word (R121, R122). -/
theorem turnedTo_sp {w : Nat} (hw : w < 5) (h : (x.wu w).sp = none ∨ ∃ r, (x.wu w).sp = some r ∧ r.granted = false) :
    ((x.turnedTo ue).wu w).sp = (wuFetch x ue w).bind (spOf (x.wu w)) := by
  rw [x.turnedTo_wu ue hw]
  rcases h with h | ⟨r, h, hr⟩
  · simp only [Wu.turnedTo, h]; rfl
  · simp only [Wu.turnedTo, h, hr]; rfl

end Cluster

namespace State

variable {s : State} {t c : Nat} (ue : List SramErr)

theorem run_of_inWave {x : Cluster} (h : s.inWave t c x = true) : s.seq.run = true := by
  simp only [inWave, Bool.and_eq_true] at h
  exact h.1.1.1.1

/-- A head of the right tag stops nothing (R22). -/
theorem compareHeads_of_right (h : headFault (s.clu t c) (stepTag s.seq.cycle (s.clu t c).step) = none) :
    s.compareHeads t c = s := by
  simp only [compareHeads, h]

theorem compareHeads_stops {z : Cluster} {j g : Nat} (ht : t < 64) (hrun : s.seq.run = true) (hz : s.clu t c = z)
    (h : headFault z (stepTag s.seq.cycle z.step) = some (j, g)) : ClusterStops t c z 31 0 s (s.compareHeads t c) := by
  subst hz
  simp only [compareHeads, h]
  exact tagFault_stops ht hrun _ _ _ _ _

section turn

variable (hw : s.inWave t c (s.clu t c) = true) (hn : (s.clu t c).turned = false) (hh : s.runHeld t c (s.clu t c) = false)
include hw hn hh

/-- A lane-table entry of even parity stops the cluster (R82). -/
theorem turn_of_table_wrong (hb : (oddOk ((s.clu t c).tableFetched ue).laneWord || sramReported ue 6 0 (s.clu t c).step) = false) :
    s.turn t c ue = (s.sramErrors t c ue).iparFault t c (s.clu t c) 2 0 (s.clu t c).step := by
  obtain ⟨l, hl⟩ := (s.clu t c).turnedTo_frame ue
  rw [Bool.or_eq_false_iff] at hb
  simp only [turn, hw, hn, hh, hl, hb]
  rfl

variable (hb : (oddOk ((s.clu t c).tableFetched ue).laneWord || sramReported ue 6 0 (s.clu t c).step) = true)
include hb

/-- So does a WU word of even parity (R82). -/
theorem turn_of_word_wrong {pw k : Nat} (hp : wuParityFault (s.clu t c) ue = some (pw, k)) :
    s.turn t c ue = (s.sramErrors t c ue).iparFault t c (s.clu t c) 1 pw (s.clu t c).step := by
  obtain ⟨l, hl⟩ := (s.clu t c).turnedTo_frame ue
  have hg : (!oddOk ((s.clu t c).tableFetched ue).laneWord && !sramReported ue 6 0 (s.clu t c).step) = false := by
    rw [← Bool.not_or, hb]; rfl
  simp only [turn, hw, hn, hh, hl, hg, hp]
  rfl

/-- With every parity right the cluster has turned, and compares the heads it reads (R22, R82). -/
theorem turn_of_right (hp : wuParityFault (s.clu t c) ue = none) :
    s.turn t c ue = ((s.sramErrors t c ue).setClu t c ((s.clu t c).turnedTo ue)).compareHeads t c := by
  obtain ⟨l, hl⟩ := (s.clu t c).turnedTo_frame ue
  have hg : (!oddOk ((s.clu t c).turnedTo ue).laneWord && !sramReported ue 6 0 (s.clu t c).step) = false := by
    rw [← Bool.not_or, hl, hb]; rfl
  simp only [turn, hw, hn, hh, hg, hp]
  rfl

end turn

end State

theorem exec_turnToStep (t row col : Nat) (ue : List SramErr) (s : State) :
    exec (.turnToStep t row col ue) s = .next (s.turn t (8 * row + col) ue) := rfl

end Sys2Proof.Machine

open Sys2Proof Sys2Proof.Machine

/-- Settles O9: by what the fetch finds; `State.turn_of_right` and its two neighbours say what the cluster turns to, `ClusterStops` what a
fault changes. -/
theorem clusterTurnsToItsStep : Obligations.ClusterTurnsToItsStep := by
  intro s t row col ue ht hrow hcol c x tab tabOk hw hn hh
  have hc : c < 72 := by omega
  have hside := State.sramErrors_stepAside ht hc s ue
  have hrun : (s.sramErrors t c ue).seq.run = true := hside.run.trans (State.run_of_inWave hw)
  obtain ⟨l, hl⟩ := x.turnedTo_frame ue
  have hstep : (x.turnedTo ue).step = x.step := by rw [hl]; rfl
  rw [exec_turnToStep]
  refine ⟨fun hb hp hg => ?right, fun hb => ?table, fun pw k hb hp => ?word, fun j g hb hp hg => ?head⟩
  case right =>
    have hset := (State.ClusterSet.setClu (x.turnedTo ue)).of_aside hside
    have hs' : s.turn t c ue = (s.sramErrors t c ue).setClu t c (x.turnedTo ue) := by
      rw [State.turn_of_right ue hw hn hh hb hp]
      refine State.compareHeads_of_right ?_
      rw [State.clu_setClu, State.setClu_seq, hside.cycle, hstep]
      exact hg
    rw [show 8 * row + col = c from rfl, hs']
    refine ⟨_, rfl, ?_, hset.clustersKept, hset.memoryKept, hset.lanes, ?_, ?_, ?_, ?_, ?_, fun w hw5 => ?_⟩
    · rintro rfl; rfl
    · rw [hset.clu, hl]; rfl
    · rw [hset.clu, hl]; rfl
    · rw [hset.clu, hstep]
    · rw [hset.clu, hl]; rfl
    · rw [hset.clu, hl]; rfl
    · rw [hset.clu]
      exact ⟨x.turnedTo_word ue hw5, x.turnedTo_sp ue hw5⟩
  case table =>
    have hstop := (State.iparFault_stops ht hrun x 2 0 x.step).of_aside hside
    rw [← State.turn_of_table_wrong ue hw hn hh hb] at hstop
    exact ⟨_, rfl, hstop.clu, hstop.cluFault, hstop.seqFault, hstop.stopped, hstop.clustersKept, hstop.memoryKept⟩
  case word =>
    have hstop := (State.iparFault_stops ht hrun x 1 pw x.step).of_aside hside
    rw [← State.turn_of_word_wrong ue hw hn hh hb hp] at hstop
    exact ⟨_, rfl, hstop.clu, hstop.cluFault, hstop.seqFault, hstop.stopped, hstop.clustersKept, hstop.memoryKept⟩
  case head =>
    have hstop : State.ClusterStops t c (x.turnedTo ue) 31 0 s (s.turn t c ue) := by
      rw [State.turn_of_right ue hw hn hh hb hp]
      refine .of_aside hside (.of_set (.setClu (x.turnedTo ue)) (State.compareHeads_stops (j := j) (g := g) ht hrun
        (State.clu_setClu _ _ _ _) ?_))
      rw [State.setClu_seq, hside.cycle, hstep]
      exact hg
    exact ⟨_, rfl, hstop.clu, hstop.cluFault, hstop.seqFault, hstop.stopped, hstop.clustersKept, hstop.memoryKept⟩
end

section
/-! PROOFS. What a cluster's step does beside the cluster itself: comparators, counters and probes (R36, R94, R451, R501), the lane-bytes
it sends (R75) and the HBM requests it pushes (R126). -/

namespace Sys2Proof.Machine

@[simp] theorem Lane.place_setPlace (x : Lane) (i : Nat) (h : Option Held) : (x.setPlace i h).place i = h := tget_tput_same _ _ _ _

namespace State

variable {s : State} {t c : Nat}

/-! ### Halt points (R493, R499) -/

theorem not_stepReads_dbgStat (ht : t < 64) (hc : c < 72) : ¬ stepReads t c Reg.dbgStat := by
  have hb := tileNode_bounds ht
  refine not_stepReads_of_node hc ?_ (by decide)
  unfold Reg.dbgStat
  omega

theorem StepAside.setFlag {k : Nat} (hk : ¬ stepReads t c k) (i : Nat) (b : Bool) : StepAside t c s (s.setFlag k i b) :=
  StepAside.setReg hk _

theorem StepAside.setFld {k : Nat} (hk : ¬ stepReads t c k) (hi lo v : Nat) : StepAside t c s (s.setFld k hi lo v) :=
  StepAside.setReg hk _

theorem StepAside.count {k : Nat} (hk : ¬ stepReads t c k) (hi lo n : Nat) : StepAside t c s (s.count k hi lo n) :=
  StepAside.setReg hk _

theorem ctrlFlood_stepAside (s : State) (but : Nat) (r : BitVec 64) : StepAside t c s (s.ctrlFlood but r) := by
  refine StepAside.foldl _ _ (fun u p _ => ?_) s
  split
  · exact StepAside.of_regs rfl rfl rfl rfl rfl rfl rfl
  · exact StepAside.refl

theorem floodStart_stepAside (s : State) (kind : Nat) (cyc : BitVec 48) : StepAside t c s (s.floodStart kind cyc) := by
  unfold floodStart
  dsimp only
  refine StepAside.trans ?_ (ctrlFlood_stepAside _ _ _)
  exact StepAside.of_regs rfl rfl rfl rfl rfl rfl rfl

theorem armAt_stepAside (ht : t < 64) (hc : c < 72) (s : State) (cause : Nat) (cyc : BitVec 48) (step : Nat) (keep : Bool) :
    StepAside t c s (s.armAt cause cyc step keep) := by
  unfold armAt
  dsimp only
  refine StepAside.trans (s' := if (decide (s.len ≤ step) && s.seq.run && cycBefore cyc s.seq.cycle) = true
    then s.setFlag Reg.dbgStat 28 true else s) ?_ (StepAside.of_regs rfl rfl rfl rfl rfl rfl rfl)
  split
  · exact StepAside.setFlag (not_stepReads_dbgStat ht hc) _ _
  · exact StepAside.refl

theorem armPoint_stepAside (ht : t < 64) (hc : c < 72) (s : State) (cause : Nat) (cyc : BitVec 48) (step : Nat) (asked keep : Bool) :
    StepAside t c s (s.armPoint cause cyc step asked keep) := by
  unfold armPoint
  dsimp only
  refine StepAside.trans ?_ (armAt_stepAside ht hc _ _ _ _ _)
  split
  · exact (floodStart_stepAside _ _ _).trans (StepAside.setFlag (not_stepReads_dbgStat ht hc) _ _)
  · exact StepAside.refl

/-! ### Comparators (R501, R509) -/

theorem not_stepReads_cmp (ht : t < 64) (hc : c < 72) {i : Nat} (hi : i < 8) :
    ¬ stepReads t c (Reg.cluCmpCtrl t c i) ∧ ¬ stepReads t c (Reg.cluCmpHcyc t c i) := by
  have hctrl := not_stepReads_of_block (o := 0x100 + 0x10 * i) ht hc (by omega) (by omega) (by omega)
  have hhcyc := not_stepReads_of_block (o := 0x10C + 0x10 * i) ht hc (by omega) (by omega) (by omega)
  refine ⟨fun h => hctrl ?_, fun h => hhcyc ?_⟩
  · rw [Reg.cluCmpCtrl] at h
    rwa [show tileNode t * 0x100000 + 0x80000 + 0x800 * c + (0x100 + 0x10 * i) =
      tileNode t * 0x100000 + 0x80100 + 0x800 * c + 0x10 * i by omega]
  · rw [Reg.cluCmpHcyc] at h
    rwa [show tileNode t * 0x100000 + 0x80000 + 0x800 * c + (0x10C + 0x10 * i) =
      tileNode t * 0x100000 + 0x8010C + 0x800 * c + 0x10 * i by omega]

theorem cmpHit_stepAside (ht : t < 64) (hc : c < 72) {i : Nat} (hi : i < 8) (s : State) (pst st : Nat) :
    StepAside t c s (s.cmpHit t c i pst st) := by
  obtain ⟨hk, hh⟩ := not_stepReads_cmp ht hc hi
  unfold cmpHit
  dsimp only
  have hrec : StepAside t c s (if s.flag (Reg.cluCmpCtrl t c i) 26 then s
      else ((s.setFld (Reg.cluCmpCtrl t c i) 9 0 st).setFlag (Reg.cluCmpCtrl t c i) 26 true).setReg (Reg.cluCmpHcyc t c i)
        (s.seq.cycle.setWidth 32)) := by
    split
    · exact StepAside.refl
    · exact ((StepAside.setFld hk _ _ _).trans (StepAside.setFlag hk _ _)).trans (StepAside.setReg hh _)
  split
  · exact hrec.trans (armPoint_stepAside ht hc _ _ _ _ _ _)
  · exact hrec.trans (armPoint_stepAside ht hc _ _ _ _ _ _)
  · exact hrec

theorem stepCmps_stepAside (ht : t < 64) (hc : c < 72) (s : State) (st : Nat) : StepAside t c s (s.stepCmps t c st) := by
  refine StepAside.foldl _ _ (fun u i hi => ?_) s
  split
  · exact cmpHit_stepAside ht hc (List.mem_range.mp hi) _ _ _
  · exact StepAside.refl

theorem spCmps_stepAside (ht : t < 64) (hc : c < 72) (s : State) (x : Cluster) : StepAside t c s (s.spCmps t c x) := by
  refine StepAside.foldl _ _ (fun u pw _ => ?_) s
  split
  · refine StepAside.foldl _ _ (fun v i hi => ?_) u
    split
    · exact cmpHit_stepAside ht hc (List.mem_range.mp hi) _ _ _
    · exact StepAside.refl
  · exact StepAside.refl

/-! ### Counters and probes -/

theorem not_stepReads_cluWaits (ht : t < 64) (hc : c < 72) : ¬ stepReads t c (Reg.cluWaits t c) := by
  have h := not_stepReads_of_block (o := 0x10) ht hc (by omega) (by omega) (by omega)
  rwa [show tileNode t * 0x100000 + 0x80000 + 0x800 * c + 0x10 = Reg.cluWaits t c by unfold Reg.cluWaits; omega] at h

theorem countWaits_stepAside (ht : t < 64) (hc : c < 72) (s : State) (x : Cluster) : StepAside t c s (s.countWaits t c x) := by
  unfold countWaits
  split
  · exact StepAside.count (not_stepReads_cluWaits ht hc) _ _ _
  · split
    · exact StepAside.count (not_stepReads_cluWaits ht hc) _ _ _
    · exact StepAside.refl

theorem countStep_stepAside (s : State) (x : Cluster) : StepAside t c s (s.countStep t c x) := by
  unfold countStep
  split
  · exact StepAside.of_regs rfl rfl rfl rfl rfl rfl rfl
  · exact StepAside.refl

theorem probeTake_stepAside (s : State) (x : Cluster) (p : BitVec 32 → BitVec 32 → Bool) : StepAside t c s (s.probeTake t c x p) := by
  refine StepAside.foldl _ _ (fun u e _ => ?_) s
  split
  · exact StepAside.of_regs rfl rfl rfl rfl rfl rfl rfl
  · exact StepAside.refl

theorem probeStep_stepAside (s : State) (x : Cluster) (st : Nat) : StepAside t c s (s.probeStep t c x st) := probeTake_stepAside s x _

theorem probeCommit_stepAside (s : State) (x : Cluster) : StepAside t c s (s.probeCommit t c x) := probeTake_stepAside s x _

/-! ### Lane-bytes sent (R75, R158) -/

/-- The lane-byte that outbound position j sends: it has passed the out stage, a counted one (R146). -/
def sentByte (s : State) (t c : Nat) (x : Cluster) (e : BpEnv) (j : Nat) : Held :=
  { b := advance (mkLaneByte (stepTag s.seq.cycle x.step) (laneData x e (s.wuSkip t c) j)), eye := 0, waited := false }

/-- The send of one outbound position. -/
def sendLane (s : State) (t c : Nat) (x : Cluster) (e : BpEnv) (j : Nat) : State :=
  if owr x.laneWord j then
    s.setLane (outLane t c j) ((s.lane (outLane t c j)).setPlace 0 (some (s.sentByte t c x e j)))
  else s

theorem sendLanes_eq (s : State) (x : Cluster) (e : BpEnv) :
    s.sendLanes t c x e = (List.range 4).foldl (fun u j => u.sendLane t c x e j) s := rfl

theorem sendLane_frame (s : State) (x : Cluster) (e : BpEnv) (j : Nat) : ∃ l, s.sendLane t c x e j = { s with lanes := l } := by
  unfold sendLane
  split
  · exact ⟨_, rfl⟩
  · exact ⟨s.lanes, rfl⟩

theorem sendLanes_frame (s : State) (x : Cluster) (e : BpEnv) : ∃ l, s.sendLanes t c x e = { s with lanes := l } := by
  rw [sendLanes_eq]
  refine List.foldlRecOn (motive := fun u : State => ∃ l, u = { s with lanes := l }) _ _ ⟨s.lanes, rfl⟩ ?_
  rintro u ⟨l, rfl⟩ j -
  obtain ⟨l', h'⟩ := sendLane_frame (t := t) (c := c) { s with lanes := l } x e j
  exact ⟨l', h'⟩

theorem laneKey_outLane_ne {j k : Nat} (h : k ≠ j) : laneKey (outLane t c k) ≠ laneKey (outLane t c j) := by
  unfold laneKey outLane
  dsimp only
  omega

theorem sendLanes_place (s : State) (x : Cluster) (e : BpEnv) {j : Nat} (hj : j < 4) (ho : owr x.laneWord j = true) :
    ((s.sendLanes t c x e).lane (outLane t c j)).place 0 = some (s.sentByte t c x e j) := by
  have h := foldl_range_local (fun u : State => ∃ l, u = { s with lanes := l }) (fun u j => u.lane (outLane t c j))
    (fun u j => u.sendLane t c x e j)
    (fun j l => if owr x.laneWord j then l.setPlace 0 (some (s.sentByte t c x e j)) else l) 4
    (fun u j _ hu => ?keep) (fun u j _ hu => ?same) (fun u j k hk => ?other) s ⟨s.lanes, rfl⟩ j
  · rw [if_pos hj, if_pos ho] at h
    rw [sendLanes_eq, h]
    exact Lane.place_setPlace _ _ _
  case keep =>
    obtain ⟨l, rfl⟩ := hu
    exact sendLane_frame (t := t) (c := c) { s with lanes := l } x e j
  case same =>
    obtain ⟨l, rfl⟩ := hu
    unfold sendLane
    split
    · exact lane_setLane _ _ _
    · rfl
  case other =>
    unfold sendLane
    split
    · exact lane_setLane_other _ _ _ _ (laneKey_outLane_ne hk)
    · rfl

theorem sendLanes_lanesKept (s : State) (x : Cluster) (e : BpEnv) : s.LanesKept (s.sendLanes t c x e)
    (((List.range 4).filter (owr x.laneWord)).map fun j => laneKey (outLane t c j)) := by
  intro k hk
  refine List.foldlRecOn (motive := fun u : State => tget (fun _ => Lane.empty) u.lanes k = tget (fun _ => Lane.empty) s.lanes k)
    _ _ rfl fun u hu j hj => ?_
  split
  · next ho =>
    refine (tget_tput_other _ ?_ _ _).trans hu
    rintro rfl
    exact hk (List.mem_map.mpr ⟨j, List.mem_filter.mpr ⟨hj, ho⟩, rfl⟩)
  · exact hu

/-! ### HBM requests pushed (R126, R127) -/

theorem not_stepReads_cluWstat (ht : t < 64) (hc : c < 72) {pw : Nat} (hp : pw < 5) : ¬ stepReads t c (Reg.cluWstat t c pw) := by
  have h := not_stepReads_of_block (o := 0x200 + 0x40 * pw) ht hc (by omega) (by omega) (by omega)
  rwa [show tileNode t * 0x100000 + 0x80000 + 0x800 * c + (0x200 + 0x40 * pw) = Reg.cluWstat t c pw by
    unfold Reg.cluWstat; omega] at h

/-- The request that a WU's word pushes, if its queue has room. -/
def pushed (s : State) (t c : Nat) (x : Cluster) (pw : Nat) : List Packet :=
  match (x.wu pw).word with
  | some w => if (wOp w = 0x38 ∨ wOp w = 0x39) ∧ ((x.wu pw).queue (wCc w % 2)).length < 16 then [s.wuPacket t c pw (x.wu pw) w] else []
  | none => []

/-- One WU's push. -/
def pushWu (s : State) (t c : Nat) (x : Cluster) (pw : Nat) : State :=
  match (x.wu pw).word with
  | some w =>
    if wOp w = 0x38 ∨ wOp w = 0x39 then
      if ((x.wu pw).queue (wCc w % 2)).length < 16 then
        s.setMaster (tileNode t) (wuMid c pw) { s.master (tileNode t) (wuMid c pw) with
          want := (s.master (tileNode t) (wuMid c pw)).want ++ [s.wuPacket t c pw (x.wu pw) w] }
      else s.setFlag (Reg.cluWstat t c pw) 30 true
    else s
  | none => s

theorem pushHbm_eq (s : State) (x : Cluster) : s.pushHbm t c x = (List.range 5).foldl (fun u pw => u.pushWu t c x pw) s := rfl

theorem pushWu_kept (ht : t < 64) (hc : c < 72) (s : State) (x : Cluster) {pw : Nat} (hp : pw < 5) :
    StepKept t c s (s.pushWu t c x pw) ∧ (s.pushWu t c x pw).lanes = s.lanes := by
  unfold pushWu
  split
  · split
    · split
      · exact ⟨⟨fun _ _ => rfl, rfl, rfl, rfl, rfl, rfl, rfl⟩, rfl⟩
      · have h := StepAside.setFlag (s := s) (not_stepReads_cluWstat ht hc hp) 30 true
        exact ⟨h.toStepKept, h.lanes⟩
    · exact ⟨StepKept.refl, rfl⟩
  · exact ⟨StepKept.refl, rfl⟩

theorem pushHbm_kept (ht : t < 64) (hc : c < 72) (s : State) (x : Cluster) :
    StepKept t c s (s.pushHbm t c x) ∧ (s.pushHbm t c x).lanes = s.lanes := by
  rw [pushHbm_eq]
  refine List.foldlRecOn (motive := fun u => StepKept t c s u ∧ u.lanes = s.lanes) _ _ ⟨StepKept.refl, rfl⟩ fun u hu pw hp => ?_
  obtain ⟨hk, hl⟩ := pushWu_kept ht hc u x (List.mem_range.mp hp)
  exact ⟨hu.1.trans hk, hl.trans hu.2⟩

theorem pushWu_want_same (s u : State) (x : Cluster) (pw : Nat) (hu : StepKept t c s u) :
    ((u.pushWu t c x pw).master (tileNode t) (wuMid c pw)).want =
      (u.master (tileNode t) (wuMid c pw)).want ++ s.pushed t c x pw := by
  unfold pushWu pushed
  cases (x.wu pw).word with
  | none => simp
  | some w =>
    dsimp only
    by_cases h1 : wOp w = 0x38 ∨ wOp w = 0x39
    · by_cases h2 : ((x.wu pw).queue (wCc w % 2)).length < 16
      · rw [if_pos h1, if_pos h2, if_pos ⟨h1, h2⟩, master_setMaster, hu.wuPacket]
      · rw [if_pos h1, if_neg h2, if_neg (fun h => h2 h.2), List.append_nil, master_setFlag]
    · rw [if_neg h1, if_neg (fun h => h1 h.1), List.append_nil]

theorem pushWu_master_other (s : State) (x : Cluster) {pw k : Nat} (hk : k ≠ pw) :
    (s.pushWu t c x pw).master (tileNode t) (wuMid c k) = s.master (tileNode t) (wuMid c k) := by
  unfold pushWu
  split
  · split
    · split
      · exact master_setMaster_other _ _ _ _ _ _ (by unfold wuMid; omega)
      · rw [master_setFlag]
    · rfl
  · rfl

theorem pushHbm_want (ht : t < 64) (hc : c < 72) (s : State) (x : Cluster) {pw : Nat} (hp : pw < 5) :
    ((s.pushHbm t c x).master (tileNode t) (wuMid c pw)).want =
      (s.master (tileNode t) (wuMid c pw)).want ++ s.pushed t c x pw := by
  have h := foldl_range_local (StepKept t c s) (fun u pw => (u.master (tileNode t) (wuMid c pw)).want)
    (fun u pw => u.pushWu t c x pw) (fun pw l => l ++ s.pushed t c x pw) 5
    (fun u pw hp hu => hu.trans (pushWu_kept ht hc u x hp).1) (fun u pw _ hu => pushWu_want_same s u x pw hu)
    (fun u pw k hk => by rw [pushWu_master_other u x hk]) s StepKept.refl pw
  rw [pushHbm_eq, h, if_pos hp]

end State

end Sys2Proof.Machine
end

section
/-! PROOFS. The cluster after a step and after its commit: the rows of its stores (R57, R60, R68), its WUs (R103, R104) and its arrival
queues (R20). -/

namespace Sys2Proof.Machine

/-! ### Numbers and rows by their bits -/

theorem numOf_lt (b : Nat → Bool) (n : Nat) : numOf b n < 2 ^ n := by
  induction n with
  | zero => exact Nat.one_pos
  | succ n ih =>
    rw [numOf, Nat.pow_succ]
    cases b n <;> simp [b2n] <;> omega

theorem testBit_numOf (b : Nat → Bool) (n i : Nat) : (numOf b n).testBit i = (decide (i < n) && b i) := by
  induction n with
  | zero => simp [numOf]
  | succ n ih =>
    rw [numOf, Nat.add_comm, Nat.mul_comm, Nat.two_pow_add_eq_or_of_lt (numOf_lt b n), Nat.testBit_or, ih, Nat.testBit_two_pow_mul]
    by_cases h : i < n
    · rw [decide_eq_false (by omega : ¬ n ≤ i), decide_eq_true h, decide_eq_true (by omega : i < n + 1)]
      simp
    · by_cases he : i = n
      · subst he
        cases b i <;> simp [b2n]
      · have h1 : (b2n (b n)).testBit (i - n) = false := by
          refine Nat.testBit_lt_two_pow (lt_of_lt_of_le (b := 2) ?_ (Nat.le_self_pow (by omega) 2))
          cases b n <;> decide
        rw [h1, decide_eq_false h, decide_eq_false (by omega : ¬ i < n + 1)]
        simp

theorem getLsbD_setBit {w : Nat} (r : BitVec w) (k : Nat) (b : Bool) {i : Nat} (hi : i < w) :
    (setBit r k b).getLsbD i = if i = k then b else r.getLsbD i := by
  rw [setBit, setBits_getLsbD _ _ _ _ _ hi]
  by_cases h : i = k
  · subst h
    rw [if_pos ⟨le_refl i, le_refl i⟩, if_pos rfl]
    cases b <;> simp
  · rw [if_neg (fun ⟨h1, h2⟩ => h (le_antisymm h2 h1)), if_neg h]

theorem rowOf_putRowBit {n : Nat} (t : Tab (BitVec n)) (p k : Nat) (b : Bool) : rowOf (putRowBit t p k b) p = setBit (rowOf t p) k b :=
  tget_tput_same _ _ _ _

theorem rowOf_putRowBit_other {n : Nat} (t : Tab (BitVec n)) {p q : Nat} (h : q ≠ p) (k : Nat) (b : Bool) :
    rowOf (putRowBit t p k b) q = rowOf t q := tget_tput_other _ h _ _

namespace Cluster

variable (x : Cluster)

@[simp] theorem queue_setQueue (j : Nat) (q : List LaneByte) : (x.setQueue j q).queue j = q := tget_tput_same _ _ _ _

theorem queue_setQueue_other {j k : Nat} (h : k ≠ j) (q : List LaneByte) : (x.setQueue j q).queue k = x.queue k :=
  tget_tput_other _ h _ _

/-! ### The BPs (R15, R57, R60, R63, R68) -/

/-- The rows of a BP that a step writes: results, which results stand, captures, next-value latches. -/
def bpRows (p : Nat) : BitVec 1024 × BitVec 1024 × BitVec 1024 × BitVec 1024 :=
  (rowOf x.res p, rowOf x.resW p, rowOf x.cap p, rowOf x.latch p)

theorem bpRows_bpWrite (p st : Nat) (r cp ff : Bool) : (x.bpWrite p st r cp ff).bpRows p =
    (setBit (rowOf x.res p) st r, setBit (rowOf x.resW p) st true, setBit (rowOf x.cap p) st cp,
      if ff then setBit (rowOf x.latch p) st r else rowOf x.latch p) := by
  cases ff <;> simp [bpRows, bpWrite, rowOf_putRowBit]

theorem bpRows_bpWrite_other {p q : Nat} (h : q ≠ p) (st : Nat) (r cp ff : Bool) :
    (x.bpWrite p st r cp ff).bpRows q = x.bpRows q := by
  cases ff <;> simp [bpRows, bpWrite, rowOf_putRowBit_other _ h]

/-- The writes of all 68 BPs. -/
def bpsRun (e : BpEnv) : Cluster :=
  (List.range 68).foldl (fun y p => y.bpWrite p e.step (bpResult x e p) (bpCapture x e p) (bpLatches x e p)) x

theorem bpStep_eq (e : BpEnv) : x.bpStep e = { x.bpsRun e with prev := BitVec.ofNat 68 (numOf (bpResult x e) 68) } := rfl

/-- What a step of the BPs can change. -/
theorem bpStep_frame (e : BpEnv) : ∃ r rw cp cw l, x.bpStep e =
    { x with res := r, resW := rw, cap := cp, capW := cw, latch := l, prev := BitVec.ofNat 68 (numOf (bpResult x e) 68) } := by
  have h : ∃ r rw cp cw l, x.bpsRun e = { x with res := r, resW := rw, cap := cp, capW := cw, latch := l } := by
    unfold bpsRun
    refine List.foldlRecOn
      (motive := fun y : Cluster => ∃ r rw cp cw l, y = { x with res := r, resW := rw, cap := cp, capW := cw, latch := l })
      _ _ ⟨_, _, _, _, _, rfl⟩ ?_
    rintro y ⟨r, rw, cp, cw, l, rfl⟩ p -
    exact ⟨_, _, _, _, _, rfl⟩
  obtain ⟨r, rw, cp, cw, l, hy⟩ := h
  exact ⟨r, rw, cp, cw, l, by rw [bpStep_eq, hy]⟩

theorem bpRows_prev (v : BitVec 68) (p : Nat) : ({ x with prev := v } : Cluster).bpRows p = x.bpRows p := rfl

/-- The rows of a BP after the step: its result and capture stand at the step, and its latch where the word has FF = 1. -/
theorem bpStep_rows (e : BpEnv) {p : Nat} (hp : p < 68) : (x.bpStep e).bpRows p =
    (setBit (rowOf x.res p) e.step (bpResult x e p), setBit (rowOf x.resW p) e.step true,
      setBit (rowOf x.cap p) e.step (bpCapture x e p),
      if bpLatches x e p then setBit (rowOf x.latch p) e.step (bpResult x e p) else rowOf x.latch p) := by
  have h := foldl_range_local (fun _ : Cluster => True) bpRows
    (fun y p => y.bpWrite p e.step (bpResult x e p) (bpCapture x e p) (bpLatches x e p))
    (fun p r => (setBit r.1 e.step (bpResult x e p), setBit r.2.1 e.step true, setBit r.2.2.1 e.step (bpCapture x e p),
      if bpLatches x e p then setBit r.2.2.2 e.step (bpResult x e p) else r.2.2.2)) 68
    (fun _ _ _ h => h) (fun y p _ _ => y.bpRows_bpWrite p _ _ _ _) (fun y p k hk => y.bpRows_bpWrite_other hk _ _ _ _) x trivial p
  rw [bpStep_eq, bpRows_prev, bpsRun, h, if_pos hp]
  rfl

/-! ### The WUs and the arrival queues -/

theorem foldl_setWu_frame (f : Cluster → Nat → Wu) (l : List Nat) :
    ∃ w, l.foldl (fun y pw => y.setWu pw (f y pw)) x = { x with wus := w } := by
  refine List.foldlRecOn (motive := fun y : Cluster => ∃ w, y = { x with wus := w }) _ _ ⟨x.wus, rfl⟩ ?_
  rintro y ⟨w, rfl⟩ pw -
  exact ⟨_, rfl⟩

theorem foldl_setWu (g : Nat → Wu → Wu) (n : Nat) {pw : Nat} (hp : pw < n) :
    ((List.range n).foldl (fun y pw => y.setWu pw (g pw (y.wu pw))) x).wu pw = g pw (x.wu pw) := by
  have h := foldl_range_local (fun _ : Cluster => True) wu (fun y pw => y.setWu pw (g pw (y.wu pw))) g n
    (fun _ _ _ h => h) (fun y pw _ _ => y.wu_setWu _ _) (fun y pw k hk => y.wu_setWu_other hk _) x trivial pw
  rwa [if_pos hp] at h

/-- The queues that the lane-table entry of x reads lose their heads. -/
def popped (y : Cluster) : Cluster :=
  (List.range 4).foldl (fun y j => if ird x.laneWord j then y.setQueue j ((y.queue j).drop 1) else y) y

theorem popped_frame (y : Cluster) : ∃ l, x.popped y = { y with inq := l } := by
  refine List.foldlRecOn (motive := fun z : Cluster => ∃ l, z = { y with inq := l }) _ _ ⟨y.inq, rfl⟩ ?_
  rintro z ⟨l, rfl⟩ j -
  split
  · exact ⟨_, rfl⟩
  · exact ⟨l, rfl⟩

theorem popped_queue (y : Cluster) {j : Nat} (hj : j < 4) :
    (x.popped y).queue j = if ird x.laneWord j then (y.queue j).drop 1 else y.queue j := by
  have h := foldl_range_local (fun _ : Cluster => True) queue
    (fun y j => if ird x.laneWord j then y.setQueue j ((y.queue j).drop 1) else y)
    (fun j q => if ird x.laneWord j then q.drop 1 else q) 4 (fun _ _ _ h => h) (fun z j _ _ => ?_) (fun z j k hk => ?_) y trivial j
  · rw [if_pos hj] at h
    exact h
  · split
    · exact z.queue_setQueue _ _
    · rfl
  · split
    · exact z.queue_setQueue_other hk _
    · rfl

theorem popped_wu (y : Cluster) (w : Nat) : (x.popped y).wu w = y.wu w := by
  obtain ⟨l, h⟩ := x.popped_frame y
  rw [h]; rfl

/-- The cluster at the start of step st, once the one before has ended. -/
def endStep (st : Nat) : Cluster := { x with step := st, turned := false, waited := 0, compared := false }

theorem wu_endStep (st w : Nat) : (x.endStep st).wu w = x.wu w := rfl
theorem queue_endStep (st j : Nat) : (x.endStep st).queue j = x.queue j := rfl
theorem bpRows_with_wus_inq (w : Tab Wu) (q : Tab (List LaneByte)) (p : Nat) :
    ({ x with wus := w, inq := q } : Cluster).bpRows p = x.bpRows p := rfl
theorem bpRows_endStep (st p : Nat) : (x.endStep st).bpRows p = x.bpRows p := rfl

/-! ### The commit (R60, R68, R104) -/

theorem getLsbD_ffMask (len p : Nat) {k : Nat} (hk : k < 1024) :
    (ffMask x len p).getLsbD k = (decide (k < len) && (x.insAt p k).getLsbD 8) := by
  rw [ffMask, BitVec.getLsbD_ofNat, decide_eq_true hk, Bool.true_and, testBit_numOf]

/-- The flop rows after the commit. -/
def flopNext (len : Nat) : Tab (BitVec 1024) :=
  (List.range 68).foldl (fun f p =>
    tput (fun _ => 0) p ((rowOf f p &&& ~~~ffMask x len p) ||| (rowOf x.latch p &&& ffMask x len p)) f) x.flop

theorem rowOf_flopNext (len : Nat) {p : Nat} (hp : p < 68) : rowOf (x.flopNext len) p =
    (rowOf x.flop p &&& ~~~ffMask x len p) ||| (rowOf x.latch p &&& ffMask x len p) := by
  have h := foldl_range_local (fun _ : Tab (BitVec 1024) => True) rowOf
    (fun f p => tput (fun _ => 0) p ((rowOf f p &&& ~~~ffMask x len p) ||| (rowOf x.latch p &&& ffMask x len p)) f)
    (fun p r => (r &&& ~~~ffMask x len p) ||| (rowOf x.latch p &&& ffMask x len p)) 68
    (fun _ _ _ h => h) (fun f p _ _ => tget_tput_same _ _ _ _) (fun f p k hk => tget_tput_other _ hk _ _) x.flop trivial p
  rwa [if_pos hp] at h

/-- A flop of a slot below L whose word has FF = 1 takes its latch, every other flop stays (R68). -/
theorem getLsbD_flopNext (len : Nat) {p k : Nat} (hp : p < 68) (hk : k < 1024) : (rowOf (x.flopNext len) p).getLsbD k =
    if k < len ∧ (x.insAt p k).getLsbD 8 = true then (rowOf x.latch p).getLsbD k else (rowOf x.flop p).getLsbD k := by
  rw [x.rowOf_flopNext len hp]
  simp only [BitVec.getLsbD_or, BitVec.getLsbD_and, BitVec.getLsbD_not, x.getLsbD_ffMask len p hk, hk, decide_true, Bool.true_and]
  by_cases h1 : k < len <;> cases h2 : (x.insAt p k).getLsbD 8 <;> simp [h1]

/-- The cluster with its flops committed and the rest of the cycle's state cleared (R60, R68). -/
def flopsCommitted (len : Nat) : Cluster :=
  { x with flop := x.flopNext len, res := [], resW := [], cap := [], capW := [], prev := 0, step := 0, done := true }

theorem commit_eq (len : Nat) : x.commit len =
    (List.range 5).foldl (fun y pw => y.setWu pw ((y.wu pw).commit (len - 1))) (x.flopsCommitted len) := rfl

theorem commit_frame (len : Nat) : ∃ l, x.commit len = { x.flopsCommitted len with wus := l } := by
  rw [commit_eq]
  exact (x.flopsCommitted len).foldl_setWu_frame (fun y pw => (y.wu pw).commit (len - 1)) _

theorem commit_wu (len : Nat) {pw : Nat} (hp : pw < 5) : (x.commit len).wu pw = (x.wu pw).commit (len - 1) := by
  rw [commit_eq, (x.flopsCommitted len).foldl_setWu (fun _ u => u.commit (len - 1)) 5 hp]
  rfl

/-! ### Orphans (R27) -/

theorem orphan_eq_none_iff (par : Bool) : orphan x par = none ↔ ∀ j, j < 4 → ∀ b ∈ x.queue j, b.getLsbD 11 ≠ par := by
  simp [orphan, List.findSome?_eq_none_iff]

end Cluster

namespace State

variable (s : State) (t c : Nat) (x : Cluster) (e : BpEnv)

/-! ### The cluster after its step -/

/-- What a WU of the cluster becomes at the step. -/
def wuNext (pw : Nat) : Wu :=
  wuStep (x.wu pw) x.step (s.mullat t c pw) (BitVec.ofNat 64 (castWord x e 64)) e.lanes (xgetPeer x (s.wuSkip t c) (x.wu pw))

theorem wusStep_eq (y : Cluster) : s.wusStep t c x y e = (List.range 5).foldl (fun y pw => y.setWu pw (s.wuNext t c x e pw)) y := rfl

/-- The cluster after the step that it has turned to, before any commit. -/
def steppedCluster : Cluster :=
  (x.popped (s.wusStep t c x (x.bpStep e) e)).endStep (x.step + 1)

theorem wusStep_frame (y : Cluster) : ∃ w, s.wusStep t c x y e = { y with wus := w } := by
  rw [wusStep_eq]
  exact y.foldl_setWu_frame (fun _ pw => s.wuNext t c x e pw) _

/-- What the step of a cluster can change in it. -/
theorem steppedCluster_frame : ∃ w q, s.steppedCluster t c x e = ({ x.bpStep e with wus := w, inq := q } : Cluster).endStep (x.step + 1) := by
  obtain ⟨w, hw⟩ := s.wusStep_frame t c x e (x.bpStep e)
  obtain ⟨q, hq⟩ := x.popped_frame (s.wusStep t c x (x.bpStep e) e)
  exact ⟨w, q, by rw [steppedCluster, hq, hw]⟩

theorem wusStep_wu (y : Cluster) {pw : Nat} (hp : pw < 5) : (s.wusStep t c x y e).wu pw = s.wuNext t c x e pw :=
  y.foldl_setWu (fun pw _ => s.wuNext t c x e pw) 5 hp

theorem steppedCluster_wu {pw : Nat} (hp : pw < 5) : (s.steppedCluster t c x e).wu pw = s.wuNext t c x e pw := by
  rw [steppedCluster, Cluster.wu_endStep, x.popped_wu, s.wusStep_wu t c x e _ hp]

theorem steppedCluster_rows (p : Nat) : (s.steppedCluster t c x e).bpRows p = (x.bpStep e).bpRows p := by
  obtain ⟨w, q, h⟩ := s.steppedCluster_frame t c x e
  rw [h, Cluster.bpRows_endStep, Cluster.bpRows_with_wus_inq]

theorem steppedCluster_queue {j : Nat} (hj : j < 4) :
    (s.steppedCluster t c x e).queue j = if ird x.laneWord j then (x.queue j).drop 1 else x.queue j := by
  have hq : (s.wusStep t c x (x.bpStep e) e).queue j = x.queue j := by
    obtain ⟨_, _, _, _, _, hb⟩ := x.bpStep_frame e
    obtain ⟨w, hw⟩ := s.wusStep_frame t c x e (x.bpStep e)
    rw [hw, hb]
    rfl
  rw [steppedCluster, Cluster.queue_endStep, x.popped_queue _ hj, hq]

end State

end Sys2Proof.Machine
end

section
/-! PROOFS. CLUSTER_STEP (R21): what its step does to the block, the commit at the last step, the faults and the waits. -/

namespace Sys2Proof.Machine

namespace State

variable {s s' s'' : State} {t c : Nat}

/-! ### Before the cluster itself advances -/

/-- From s to s' the step of cluster x has sent its lane-bytes and pushed its HBM requests; nothing else that a step rests on has
changed. -/
structure StepSent (t c : Nat) (x : Cluster) (e : BpEnv) (s s' : State) : Prop where
  kept : StepKept t c s s'
  places : ∀ j, j < 4 → owr x.laneWord j = true → (s'.lane (outLane t c j)).place 0 = some (s.sentByte t c x e j)
  lanes : s.LanesKept s' (((List.range 4).filter (owr x.laneWord)).map fun j => laneKey (outLane t c j))
  wants : ∀ pw, pw < 5 → (s'.master (tileNode t) (wuMid c pw)).want =
    (s.master (tileNode t) (wuMid c pw)).want ++ s.pushed t c x pw

theorem StepKept.sentByte (h : StepKept t c s s') (x : Cluster) (e : BpEnv) (j : Nat) : s'.sentByte t c x e j = s.sentByte t c x e j := by
  rw [State.sentByte, State.sentByte, h.cycle, h.wuSkip]

theorem StepKept.pushed (h : StepKept t c s s') (x : Cluster) (pw : Nat) : s'.pushed t c x pw = s.pushed t c x pw := by
  unfold State.pushed
  split
  · rw [h.wuPacket]
  · rfl

theorem StepSent.of_aside {x : Cluster} {e : BpEnv} (ha : StepAside t c s s') (h : StepSent t c x e s' s'') : StepSent t c x e s s'' where
  kept := ha.toStepKept.trans h.kept
  places j hj ho := by rw [h.places j hj ho, ha.toStepKept.sentByte]
  lanes k hk := by rw [h.lanes k hk, ha.lanes]
  wants pw hp := by rw [h.wants pw hp, ha.toStepKept.pushed, State.master, State.master, ha.masters]

theorem StepSent.then_aside {x : Cluster} {e : BpEnv} (h : StepSent t c x e s s') (ha : StepAside t c s' s'') : StepSent t c x e s s'' where
  kept := h.kept.trans ha.toStepKept
  places j hj ho := by rw [lane, ha.lanes]; exact h.places j hj ho
  lanes k hk := by rw [ha.lanes]; exact h.lanes k hk
  wants pw hp := by rw [master, ha.masters]; exact h.wants pw hp

theorem stepSent (ht : t < 64) (hc : c < 72) (s : State) (x : Cluster) (e : BpEnv) :
    StepSent t c x e s ((s.sendLanes t c x e).pushHbm t c x) := by
  obtain ⟨hk, hl⟩ := pushHbm_kept ht hc (s.sendLanes t c x e) x
  obtain ⟨l, hs⟩ := sendLanes_frame (t := t) (c := c) s x e
  have hsent : StepKept t c s (s.sendLanes t c x e) := by
    rw [hs]
    exact ⟨fun _ _ => rfl, rfl, rfl, rfl, rfl, rfl, rfl⟩
  refine ⟨hsent.trans hk, fun j hj ho => ?_, fun k hk => ?_, fun pw hp => ?_⟩
  · rw [lane, hl]
    exact sendLanes_place s x e hj ho
  · rw [hl]
    exact sendLanes_lanesKept s x e k hk
  · rw [pushHbm_want ht hc _ _ hp, hsent.pushed, show (s.sendLanes t c x e).master (tileNode t) (wuMid c pw) =
      s.master (tileNode t) (wuMid c pw) by rw [hs]; rfl]

/-- With every BP word right the step sends and pushes, and the cluster advances (R21, R82). -/
theorem beginStep_of_right (ht : t < 64) (hc : c < 72) (s : State) (x : Cluster) (ue : List SramErr)
    (hp : bpParityFault x (s.bpEnv t c x ue) = none) : ∃ u, StepSent t c x (s.bpEnv t c x ue) s u ∧
      s.beginStep t c x ue = u.advanceCluster t c x (s.bpEnv t c x ue) := by
  have h1 := sramErrors_stepAside ht hc s ue
  have h2 := h1.trans (countWaits_stepAside ht hc _ x)
  have h3 := h2.trans (spCmps_stepAside ht hc _ x)
  refine ⟨_, (StepSent.of_aside h3 (stepSent ht hc _ x _)).then_aside (countStep_stepAside _ x), ?_⟩
  simp only [beginStep, hp]

theorem beginStep_of_wrong (ht : t < 64) (hc : c < 72) (hrun : s.seq.run = true) (x : Cluster) (ue : List SramErr) {p : Nat}
    (hp : bpParityFault x (s.bpEnv t c x ue) = some p) : ClusterStops t c x 29 3 s (s.beginStep t c x ue) := by
  have h := sramErrors_stepAside ht hc s ue
  simp only [beginStep, hp]
  exact (iparFault_stops ht (h.run.trans hrun) x _ _ _).of_aside h

/-! ### The advance of the cluster -/

/-- The commit of cluster y after step st, with the search for orphans (R27). -/
def commitCluster (s : State) (t c : Nat) (y : Cluster) (st : Nat) : State :=
  let z := y.commit s.len
  let s := s.probeCommit t c z
  match orphan z s.par with
  | some (j, tag) => (s.setClu t c z).tagFault t c z true j st 0 tag
  | none => s.setClu t c z

theorem advanceCluster_eq (s : State) (x : Cluster) (e : BpEnv) : s.advanceCluster t c x e =
    if x.step + 1 = (s.probeStep t c (s.steppedCluster t c x e) x.step).len then
      (s.probeStep t c (s.steppedCluster t c x e) x.step).commitCluster t c (s.steppedCluster t c x e) x.step
    else (s.probeStep t c (s.steppedCluster t c x e) x.step).setClu t c (s.steppedCluster t c x e) := rfl

/-- Before the last step the cluster stands at the next one. -/
theorem advanceCluster_of_ne (s : State) (x : Cluster) (e : BpEnv) (hl : x.step + 1 ≠ s.len) :
    ClusterSet t c (s.steppedCluster t c x e) s (s.advanceCluster t c x e) ∧ (s.advanceCluster t c x e).seq.faulted = s.seq.faulted := by
  have hp := probeStep_stepAside (t := t) (c := c) s (s.steppedCluster t c x e) x.step
  rw [advanceCluster_eq, hp.len, if_neg hl]
  exact ⟨(ClusterSet.setClu _).of_aside hp, hp.faulted⟩

/-- The commit puts the committed cluster in place; a lane-byte of the cycle's parity that is left stops it (R27). -/
theorem commitCluster_spec (ht : t < 64) (s : State) (hrun : s.seq.run = true) (y : Cluster) (st : Nat) :
    (orphan (y.commit s.len) s.par = none →
      ClusterSet t c (y.commit s.len) s (s.commitCluster t c y st) ∧ (s.commitCluster t c y st).seq.faulted = s.seq.faulted) ∧
    (orphan (y.commit s.len) s.par ≠ none → ClusterStops t c (y.commit s.len) 30 1 s (s.commitCluster t c y st)) := by
  have hp := probeCommit_stepAside (t := t) (c := c) s (y.commit s.len)
  unfold commitCluster
  dsimp only
  rw [hp.par]
  cases orphan (y.commit s.len) s.par with
  | none => exact ⟨fun _ => ⟨(ClusterSet.setClu _).of_aside hp, hp.faulted⟩, fun h => absurd rfl h⟩
  | some p =>
    refine ⟨fun h => by simp at h, fun _ => ?_⟩
    exact (ClusterStops.of_set (ClusterSet.setClu _)
      (orphanFault_stops ht (s := (s.probeCommit t c _).setClu t c _) (hp.run.trans hrun) _ _ _ _ _)).of_aside hp

/-- The last step ends with the commit. -/
theorem advanceCluster_of_eq (ht : t < 64) (s : State) (hrun : s.seq.run = true) (x : Cluster) (e : BpEnv) (hl : x.step + 1 = s.len) :
    (orphan ((s.steppedCluster t c x e).commit s.len) s.par = none →
      ClusterSet t c ((s.steppedCluster t c x e).commit s.len) s (s.advanceCluster t c x e) ∧
        (s.advanceCluster t c x e).seq.faulted = s.seq.faulted) ∧
    (orphan ((s.steppedCluster t c x e).commit s.len) s.par ≠ none →
      ClusterStops t c ((s.steppedCluster t c x e).commit s.len) 30 1 s (s.advanceCluster t c x e)) := by
  have hp := probeStep_stepAside (t := t) (c := c) s (s.steppedCluster t c x e) x.step
  have h := commitCluster_spec (c := c) ht _ (hp.run.trans hrun) (s.steppedCluster t c x e) x.step
  rw [hp.len, hp.par] at h
  rw [advanceCluster_eq, hp.len, if_pos hl]
  obtain ⟨hset, hstop⟩ := h
  exact ⟨fun ho => ⟨ClusterSet.of_aside hp (hset ho).1, (hset ho).2.trans hp.faulted⟩, fun ho => ClusterStops.of_aside hp (hstop ho)⟩

/-! ### CLUSTER_STEP (R21, R22, R94) -/

/-- The state in which the step comparators have seen the step of cluster x (R501). -/
def compared (s : State) (t c : Nat) (x : Cluster) : State := if x.compared then s else s.stepCmps t c x.step

theorem compared_stepAside (ht : t < 64) (hc : c < 72) (s : State) (x : Cluster) : StepAside t c s (s.compared t c x) := by
  unfold compared
  split
  · exact StepAside.refl
  · exact stepCmps_stepAside ht hc _ _

/-- A cluster that waits on nothing, whose heads are right and whose comparators do not hold it, begins its step. -/
theorem cluStep_of_free (ue : List SramErr) (hm : s.mayStep t c (s.clu t c) = true)
    (hh : headFault (s.clu t c) (stepTag s.seq.cycle (s.clu t c).step) = none)
    (hr : (s.compared t c (s.clu t c)).runHeld t c (s.clu t c) = false) :
    s.cluStep t c ue = (s.compared t c (s.clu t c)).beginStep t c { s.clu t c with compared := true } ue := by
  have hr : (s.compared t c (s.clu t c)).runHeld t c { s.clu t c with compared := true } = false := hr
  simp only [cluStep, hm, hh]
  exact if_neg (by rw [← Bool.not_eq_true] at hr; exact hr)

/-- A cluster that waits stays as it is, and notes on what (R94). -/
theorem cluStep_of_waits (ue : List SramErr) (hw : s.inWave t c (s.clu t c) = true) (hm : s.mayStep t c (s.clu t c) = false)
    (hh : (s.clu t c).turned = false ∨ s.runHeld t c (s.clu t c) = true ∨
      headFault (s.clu t c) (stepTag s.seq.cycle (s.clu t c).step) = none) :
    s.cluStep t c ue = s.setClu t c { s.clu t c with waited := (s.clu t c).waited ||| s.waits t c (s.clu t c) } := by
  simp only [cluStep, hm, hw, if_true, if_false, Bool.false_eq_true]
  split
  · next h =>
    refine compareHeads_of_right ?_
    rw [clu_setClu, setClu_seq]
    simp only [Bool.and_eq_true, Bool.not_eq_true'] at h
    rcases hh with hh | hh | hh
    · rw [hh] at h; exact absurd h.1 (by decide)
    · rw [hh] at h; exact absurd h.2 (by decide)
    · exact hh
  · rfl

theorem cluStep_of_not_inWave (ue : List SramErr) (hw : s.inWave t c (s.clu t c) = false) : s.cluStep t c ue = s := by
  simp [cluStep, mayStep, hw]

end State

theorem exec_clusterStep (t row col : Nat) (ue : List SramErr) (s : State) :
    exec (.clusterStep t row col ue) s = .next (s.cluStep t (8 * row + col) ue) := rfl

end Sys2Proof.Machine
end

section
/-! PROOFS. CLUSTER_STEP settled: the cluster after a step and after its commit, read by its parts. -/

namespace Sys2Proof.Machine

namespace Cluster

variable (x : Cluster)

/-- What the commit keeps of the arrival queues, and where it leaves the cluster (R60). -/
theorem commit_stands (len : Nat) : (x.commit len).turned = x.turned ∧ (x.commit len).done = true ∧ (x.commit len).step = 0 ∧
    (x.commit len).res = [] ∧ (x.commit len).cap = [] ∧ (x.commit len).faulted = x.faulted ∧ (x.commit len).flop = x.flopNext len ∧
    ∀ j, (x.commit len).queue j = x.queue j := by
  obtain ⟨l, h⟩ := x.commit_frame len
  rw [h]
  exact ⟨rfl, rfl, rfl, rfl, rfl, rfl, rfl, fun _ => rfl⟩

/-- An orphan is a lane-byte of the cycle's parity in a queue (R27). -/
theorem orphan_ne_none_iff (par : Bool) : orphan x par ≠ none ↔ ∃ j, j < 4 ∧ ∃ b ∈ x.queue j, b.getLsbD 11 = par := by
  rw [Ne, x.orphan_eq_none_iff]
  push Not
  rfl

end Cluster

namespace State

variable {s s' s'' : State} {t c : Nat}

theorem run_of_mayStep {x : Cluster} (h : s.mayStep t c x = true) : s.seq.run = true := by
  simp only [mayStep, Bool.and_eq_true] at h
  exact run_of_inWave h.1.1

/-- Where the step leaves the cluster, and what it keeps. -/
theorem steppedCluster_stands (s : State) (t c : Nat) (x : Cluster) (e : BpEnv) :
    (s.steppedCluster t c x e).turned = false ∧ (s.steppedCluster t c x e).step = x.step + 1 ∧
    (s.steppedCluster t c x e).done = x.done ∧ (s.steppedCluster t c x e).flop = x.flop ∧
    (s.steppedCluster t c x e).faulted = x.faulted ∧ (s.steppedCluster t c x e).ins = x.ins ∧
    (s.steppedCluster t c x e).prev = BitVec.ofNat 68 (numOf (bpResult x e) 68) := by
  obtain ⟨w, q, h⟩ := s.steppedCluster_frame t c x e
  obtain ⟨_, _, _, _, _, hb⟩ := x.bpStep_frame e
  rw [h, hb]
  exact ⟨rfl, rfl, rfl, rfl, rfl, rfl, rfl⟩

/-- A latch after the step: the result, at the step of a word with FF = 1 (R68). -/
theorem getLsbD_steppedCluster_latch (s : State) (t c : Nat) (x : Cluster) (e : BpEnv) {p k : Nat} (hp : p < 68) (hk : k < 1024) :
    (rowOf (s.steppedCluster t c x e).latch p).getLsbD k =
      if k = e.step ∧ bpLatches x e p = true then bpResult x e p else (rowOf x.latch p).getLsbD k := by
  have h : rowOf (s.steppedCluster t c x e).latch p = ((s.steppedCluster t c x e).bpRows p).2.2.2 := rfl
  rw [h, s.steppedCluster_rows, x.bpStep_rows e hp]
  cases bpLatches x e p with
  | false => simp
  | true => simp [getLsbD_setBit _ _ _ hk]

/-- Result and capture of a BP stand at the step (R57, R60). -/
theorem getLsbD_steppedCluster_rows (s : State) (t c : Nat) (x : Cluster) (e : BpEnv) {p : Nat} (hp : p < 68) (he : e.step < 1024) :
    (rowOf (s.steppedCluster t c x e).res p).getLsbD e.step = bpResult x e p ∧
    (rowOf (s.steppedCluster t c x e).resW p).getLsbD e.step = true ∧
    (rowOf (s.steppedCluster t c x e).cap p).getLsbD e.step = bpCapture x e p := by
  have h : (rowOf (s.steppedCluster t c x e).res p, rowOf (s.steppedCluster t c x e).resW p, rowOf (s.steppedCluster t c x e).cap p,
      rowOf (s.steppedCluster t c x e).latch p) = (x.bpStep e).bpRows p := s.steppedCluster_rows t c x e p
  rw [x.bpStep_rows e hp, Prod.mk.injEq, Prod.mk.injEq, Prod.mk.injEq] at h
  obtain ⟨hr, hw, hc, -⟩ := h
  rw [hr, hw, hc]
  simp [getLsbD_setBit _ _ _ he]

/-- Cluster z is cluster x of state s after the step that x had turned to, before any commit. -/
structure Stepped (s : State) (t c : Nat) (x : Cluster) (e : BpEnv) (z : Cluster) : Prop where
  turned : z.turned = false
  step : z.step = x.step + 1
  done : z.done = x.done
  flop : z.flop = x.flop
  faulted : z.faulted = x.faulted
  ins : z.ins = x.ins
  queue : ∀ j, j < 4 → z.queue j = if ird x.laneWord j then (x.queue j).drop 1 else x.queue j
  wu : ∀ pw, pw < 5 → z.wu pw = s.wuNext t c x e pw
  latch : ∀ p k, p < 68 → k < 1024 → (rowOf z.latch p).getLsbD k =
    if k = e.step ∧ bpLatches x e p = true then bpResult x e p else (rowOf x.latch p).getLsbD k
  res : ∀ p, p < 68 → e.step < 1024 → (rowOf z.res p).getLsbD e.step = bpResult x e p
  resW : ∀ p, p < 68 → e.step < 1024 → (rowOf z.resW p).getLsbD e.step = true
  cap : ∀ p, p < 68 → e.step < 1024 → (rowOf z.cap p).getLsbD e.step = bpCapture x e p
  prev : ∀ p, p < 68 → z.prev.getLsbD p = bpResult x e p

theorem steppedCluster_stepped (s : State) (t c : Nat) (x : Cluster) (e : BpEnv) : s.Stepped t c x e (s.steppedCluster t c x e) := by
  obtain ⟨hturned, hstep, hdone, hflop, hfaulted, hins, hprev⟩ := s.steppedCluster_stands t c x e
  refine ⟨hturned, hstep, hdone, hflop, hfaulted, hins, fun j hj => s.steppedCluster_queue t c x e hj,
    fun pw hp => s.steppedCluster_wu t c x e hp, fun p k hp hk => s.getLsbD_steppedCluster_latch t c x e hp hk,
    fun p hp he => ?_, fun p hp he => ?_, fun p hp he => ?_, fun p hp => ?_⟩
  · exact (s.getLsbD_steppedCluster_rows t c x e hp he).1
  · exact (s.getLsbD_steppedCluster_rows t c x e hp he).2.1
  · exact (s.getLsbD_steppedCluster_rows t c x e hp he).2.2
  · rw [hprev, BitVec.getLsbD_ofNat, testBit_numOf]
    simp [hp]

/-- The step does not hang on whether the comparators have seen it. -/
theorem Stepped.of_compared {x z : Cluster} {e : BpEnv} (h : s.Stepped t c { x with compared := true } e z) : s.Stepped t c x e z :=
  ⟨h.turned, h.step, h.done, h.flop, h.faulted, h.ins, h.queue, h.wu, h.latch, h.res, h.resW, h.cap, h.prev⟩

theorem StepKept.wuNext (h : StepKept t c s s') (x : Cluster) (e : BpEnv) {pw : Nat} (hp : pw < 5) :
    s'.wuNext t c x e pw = s.wuNext t c x e pw := by
  rw [State.wuNext, State.wuNext, h.mullat hp, h.wuSkip]

theorem Stepped.of_kept {x z : Cluster} {e : BpEnv} (hk : StepKept t c s s') (h : s'.Stepped t c x e z) : s.Stepped t c x e z :=
  { h with wu := fun pw hp => (h.wu pw hp).trans (hk.wuNext x e hp) }

/-- What a step sends and pushes does not hang on it either. -/
theorem StepSent.of_compared {x : Cluster} {e : BpEnv} (h : StepSent t c { x with compared := true } e s s') : StepSent t c x e s s' :=
  ⟨h.kept, h.places, h.lanes, h.wants⟩

/-- What a step has sent and pushed still stands once the cluster is put in place. -/
theorem StepSent.then_set {x z : Cluster} {e : BpEnv} (h : StepSent t c x e s s') (hz : ClusterSet t c z s' s'') :
    (∀ j, j < 4 → owr x.laneWord j = true → (s''.lane (outLane t c j)).place 0 = some (s.sentByte t c x e j)) ∧
    (∀ pw, pw < 5 → (s''.master (tileNode t) (wuMid c pw)).want =
      (s.master (tileNode t) (wuMid c pw)).want ++ s.pushed t c x pw) ∧
    s.ClustersKept s'' t c ∧ s.LanesKept s'' (((List.range 4).filter (owr x.laneWord)).map fun j => laneKey (outLane t c j)) ∧
    s.MemoryKept s'' := by
  refine ⟨fun j hj ho => ?_, fun pw hp => ?_, fun k hk => ?_, fun k hk => ?_, ⟨fun a => ?_, fun a => ?_⟩⟩
  · rw [lane, hz.lanes]; exact h.places j hj ho
  · rw [master, hz.masters]; exact h.wants pw hp
  · rw [hz.clustersKept k hk, h.kept.clus]
  · rw [hz.lanes]; exact h.lanes k hk
  · rw [hz.spad, h.kept.spad]
  · rw [hz.hbm, h.kept.hbm]

/-- A cluster whose BP words are right sends and pushes, steps to z, and then stands at the next step or at its commit (R21, R27). -/
theorem beginStep_ends (ht : t < 64) (hc : c < 72) {h : State} {x : Cluster} {e : BpEnv} (ue : List SramErr) (hside : StepAside t c s h)
    (hrun : s.seq.run = true) (he : s.bpEnv t c x ue = e) (hp : bpParityFault x e = none) :
    ∃ u z, StepSent t c x e s u ∧ s.Stepped t c x e z ∧
      let s' := h.beginStep t c { x with compared := true } ue
      (x.step + 1 ≠ s.len → ClusterSet t c z u s' ∧ s'.seq.faulted = u.seq.faulted) ∧
      (x.step + 1 = s.len →
        (orphan (z.commit s.len) s.par = none → ClusterSet t c (z.commit s.len) u s' ∧ s'.seq.faulted = u.seq.faulted) ∧
        (orphan (z.commit s.len) s.par ≠ none → ClusterStops t c (z.commit s.len) 30 1 u s')) := by
  have he : h.bpEnv t c { x with compared := true } ue = e := (hside.toStepKept.bpEnv x ue).trans he
  obtain ⟨u, hu, hadv⟩ := beginStep_of_right ht hc h { x with compared := true } ue (by rw [he]; exact hp)
  rw [he] at hu hadv
  have hu := (StepSent.of_aside hside hu).of_compared
  refine ⟨u, _, hu, (steppedCluster_stepped u t c { x with compared := true } e).of_compared.of_kept hu.kept, ?_⟩
  rw [hadv]
  refine ⟨fun hl => advanceCluster_of_ne u _ e fun hl' => hl (hl'.trans hu.kept.len), fun hl => ?_⟩
  have hend := advanceCluster_of_eq (c := c) ht u (hu.kept.run.trans hrun) { x with compared := true } e (hl.trans hu.kept.len.symm)
  rwa [hu.kept.len, hu.kept.par] at hend

end State

end Sys2Proof.Machine

open Sys2Proof Sys2Proof.Machine

/-- Settles O10: `State.beginStep_ends` says what the step sends and where it puts the cluster, `State.Stepped` and
`Cluster.commit_stands` what the cluster is then. -/
theorem clusterStepAndCommit : Obligations.ClusterStepAndCommit := by
  intro s t row col ue ht hrow hcol c x e h cast wuAfter queue latch
  have hc : c < 72 := by omega
  rw [exec_clusterStep, show 8 * row + col = c from rfl]
  have hside : State.StepAside t c s h := State.compared_stepAside ht hc s x
  refine ⟨fun hm hh hr hst => ?_, fun hw hm hh => ?waits, fun hw => ?idle⟩
  case waits =>
    rw [State.cluStep_of_waits ue hw hm hh]
    have hset := State.ClusterSet.setClu (s := s) (t := t) (c := c) { x with waited := x.waited ||| s.waits t c x }
    exact ⟨_, rfl, rfl, hset.clustersKept, hset.clu⟩
  case idle => rw [State.cluStep_of_not_inWave ue hw]
  have hbegin : s.cluStep t c ue = h.beginStep t c { x with compared := true } ue := State.cluStep_of_free ue hm hh hr
  rw [hbegin]
  have hrun := State.run_of_mayStep hm
  refine ⟨fun hp => ?right, fun p hp => ?wrong⟩
  case wrong =>
    have he : h.bpEnv t c { x with compared := true } ue = e := hside.toStepKept.bpEnv x ue
    have hstop := (State.beginStep_of_wrong ht hc (hside.run.trans hrun) { x with compared := true } ue (by rw [he]; exact hp)).of_aside
      hside
    exact ⟨_, rfl, by rw [hstop.clu], by rw [hstop.clu], hstop.cluFault, hstop.seqFault, hstop.stopped, hstop.clustersKept,
      hstop.lanes, hstop.memoryKept⟩
  case right =>
    obtain ⟨u, z, hsent, hz, hnext, hlast⟩ := State.beginStep_ends (e := e) ht hc ue hside hrun rfl hp
    have hes : e.step = x.step := rfl
    generalize h.beginStep t c { x with compared := true } ue = s' at *
    clear_value e x
    by_cases hl : x.step + 1 = s.len
    · obtain ⟨hnone, hsome⟩ := hlast hl
      obtain ⟨cturned, cdone, cstep, cres, ccap, cfaulted, cflop, cqueue⟩ := z.commit_stands s.len
      have cwu : ∀ pw, pw < 5 → (z.commit s.len).wu pw = (wuAfter pw).commit x.step := fun pw hp => by
        rw [z.commit_wu _ hp, hz.wu pw hp, ← hl, Nat.add_sub_cancel]
        rfl
      generalize z.commit s.len = y at *
      obtain ⟨f, hset⟩ : ∃ f, State.ClusterSet t c { y with faulted := f } u s' := by
        by_cases ho : orphan y s.par = none
        · exact ⟨y.faulted, (hnone ho).1⟩
        · exact ⟨true, (hsome ho).toClusterSet⟩
      obtain ⟨hplaces, hwants, hclus, hlanes, hmem⟩ := hsent.then_set hset
      refine ⟨_, rfl, fun j hj => ?_, ?_, hplaces, hwants, hclus, hlanes, hmem, fun h => absurd hl h,
        fun _ => ⟨?_, ?_, ?_, ?_, fun p k hp hk => ?_, fun pw hp => ?_, fun ho => ?_, fun ho => ?_⟩⟩
      · rw [hset.clu]
        exact (cqueue j).trans (hz.queue j hj)
      · rw [hset.clu, ← hz.turned, ← cturned]
      · rw [hset.clu, cdone]
      · rw [hset.clu, cstep]
      · rw [hset.clu, cres]
      · rw [hset.clu, ccap]
      · rw [hset.clu, cflop, z.getLsbD_flopNext _ hp hk, hz.latch p k hp hk, hz.flop, Cluster.insAt, hz.ins, hes]
        rfl
      · rw [hset.clu, ← cwu pw hp]
        rfl
      · have ho : orphan y s.par = none := by
          rw [Cluster.orphan_eq_none_iff]
          exact fun j hj => by rw [cqueue, hz.queue j hj]; exact ho j hj
        obtain ⟨hs, hstops⟩ := hnone ho
        rw [hs.clu, cfaulted, hz.faulted, hstops, hsent.kept.faulted]
        exact ⟨rfl, rfl⟩
      · have ho : orphan y s.par ≠ none := by
          rw [Cluster.orphan_ne_none_iff]
          obtain ⟨j, hj, hb⟩ := ho
          exact ⟨j, hj, by rw [cqueue, hz.queue j hj]; exact hb⟩
        have hs := hsome ho
        rw [hs.clu]
        exact ⟨hs.stopped, rfl, hs.cluFault, hs.seqFault⟩
    · obtain ⟨hset, hstops⟩ := hnext hl
      obtain ⟨hplaces, hwants, hclus, hlanes, hmem⟩ := hsent.then_set hset
      rw [← hset.clu] at hz
      refine ⟨_, rfl, hz.queue, hz.turned, hplaces, hwants, hclus, hlanes, hmem, fun _ => ⟨hz.step, hz.done, hz.flop, ?_,
        fun p hp => ?_, hz.wu⟩, fun h => absurd h hl⟩
      · rw [hstops, hsent.kept.faulted]
      · rw [← hes] at hst ⊢
        refine ⟨hz.res p hp hst, hz.resW p hp hst, hz.cap p hp hst, hz.prev p hp, fun k hk => (hz.latch p k hp hk).trans ?_⟩
        rw [hes]
end

section
/-! PROOFS. Local midnight and the release (R27): what a token that leaves, and a task that becomes due, leave alone. -/

namespace Sys2Proof.Machine

namespace State

variable (s : State)

/-! ### Tokens (R329, R338) -/

/-- What a discarded token can change. -/
theorem tokenDrop_frame (e : Bool) (dst src reason : Nat) (cyc : BitVec 32) :
    ∃ r x l, s.tokenDrop e dst src reason cyc = { s with regs := r, net := x, ledger := l } := by
  obtain ⟨r, x, l, h⟩ := s.record_frame 1 6 9 ceNode (reason * 2 ^ 12 + b2n e * 2 ^ 11 + src) cyc.toNat dst
  rw [tokenDrop, h, irqIf_frame]
  exact ⟨_, _, _, rfl⟩

/-- What a token that is routed can change. -/
theorem tokenRoute_frame (e : Bool) (dst src : Nat) (cyc : BitVec 32) : ∃ r x l k p, s.tokenRoute e dst src cyc =
    { s with regs := r, net := x, ledger := l, seq := { s.seq with tok := k }, ports := p } := by
  have hdrop : ∀ reason, ∃ r x l k p, s.tokenDrop e dst src reason cyc =
      { s with regs := r, net := x, ledger := l, seq := { s.seq with tok := k }, ports := p } := fun reason => by
    obtain ⟨r, x, l, h⟩ := s.tokenDrop_frame e dst src reason cyc
    exact ⟨r, x, l, s.seq.tok, s.ports, h⟩
  unfold tokenRoute
  split
  · unfold tokenTake
    dsimp only
    split
    · exact hdrop 0
    · split
      · exact ⟨s.regs, s.net, s.ledger, _, s.ports, rfl⟩
      · exact hdrop 1
  · dsimp only
    split
    · exact ⟨s.regs, s.net, s.ledger, s.seq.tok, _, rfl⟩
    · exact hdrop 2

/-- What the tokens that leave can change. -/
theorem tokensOut_frame : ∃ r x l k o p, s.tokensOut =
    { s with regs := r, net := x, ledger := l, seq := { s.seq with tok := k, tokOut := o }, ports := p } := by
  unfold tokensOut
  split
  · refine List.foldlRecOn (motive := fun u : State => ∃ r x l k o p, u =
      { s with regs := r, net := x, ledger := l, seq := { s.seq with tok := k, tokOut := o }, ports := p }) _ _
      ⟨s.regs, s.net, s.ledger, s.seq.tok, [], s.ports, rfl⟩ ?_
    rintro u ⟨r, x, l, k, o, p, rfl⟩ a -
    obtain ⟨r', x', l', k', p', h⟩ := tokenRoute_frame
      { s with regs := r, net := x, ledger := l, seq := { s.seq with tok := k, tokOut := o }, ports := p } _ a.src _ a.cyc
    exact ⟨r', x', l', k', o, p', h⟩
  · exact ⟨s.regs, s.net, s.ledger, s.seq.tok, s.seq.tokOut, s.ports, rfl⟩

theorem tokensOut_of_none (h : s.seq.tokOut = []) : s.tokensOut = s := by
  have hs : { s with seq := { s.seq with tokOut := [] } } = s := by rw [← h]
  unfold tokensOut
  dsimp only
  rw [h, hs]
  exact ite_self _

/-! ### Local midnight (R27 step 3) -/

/-- What passing the cycle's samples changes. -/
theorem passSamples_frame : ∃ b, s.passSamples = { s with
      tiles := tmap (fun _ => Tile.empty) (fun x => { x with probe := [] }) s.tiles,
      tio := { s.tio with chans := s.cycleChans }, tt := { s.tt with buf := s.tt.buf ++ b } } ∧
    b.map (·.cyc) = if s.domState 78 = 2 ∨ s.domState 78 = 3 then [s.seq.cycle] else [] := by
  unfold passSamples
  dsimp only
  by_cases h : s.domState 78 = 2 ∨ s.domState 78 = 3
  · rw [if_pos h]
    exact ⟨_, if_pos h, rfl⟩
  · rw [if_neg h]
    refine ⟨[], ?_, rfl⟩
    rw [List.append_nil]
    exact if_neg h

/-- What a waiting tick changes when it pairs. -/
theorem pairTick_frame : ∃ r p, s.pairTick = { s with regs := r, tio := { s.tio with paired := p } } := by
  unfold pairTick
  split
  · exact ⟨_, _, rfl⟩
  · exact ⟨s.regs, s.tio.paired, rfl⟩

theorem pairTick_reg_other {k : Nat} (h : k ≠ Reg.tioCadStat) : s.pairTick.reg k = s.reg k := by
  unfold pairTick
  split
  · exact (reg_of_regs rfl k).trans (s.reg_setFlag_other h _ _)
  · rfl

/-- The tokens of the present cycle, one for each midnight neighbour. -/
def midnightToks : List Tok := s.seq.neigh.map fun a => { src := a, cyc := s.seq.cycle.setWidth 32 }

/-- The device at its midnight, the samples of the cycle passed. -/
def midnightSampled : State :=
  State.pairTick (State.passSamples { s with
    seq := { s.seq with midnight := true, settled := false }, tio := { s.tio with instant := false, paired := false } })

theorem localMidnight_of_done (hr : s.seq.run = true) (hm : s.seq.midnight = false) (hf : s.seq.faulted = false)
    (ht : s.seq.stalled = false) (hd : s.tilesDone = true) : s.localMidnight =
      State.tokensOut { s.midnightSampled with
        seq := { s.midnightSampled.seq with tokOut := s.midnightSampled.seq.tokOut ++ s.midnightSampled.midnightToks } } := by
  unfold localMidnight
  rw [hr, hm, hf, ht, hd]
  rfl

/-- What local midnight changes before its tokens leave. -/
theorem midnightSampled_frame : ∃ r p b, s.midnightSampled = { s with
      regs := r,
      seq := { s.seq with midnight := true, settled := false },
      tiles := tmap (fun _ => Tile.empty) (fun x => { x with probe := [] }) s.tiles,
      tio := { s.tio with instant := false, paired := p, chans := s.cycleChans },
      tt := { s.tt with buf := s.tt.buf ++ b } } ∧
    b.map (·.cyc) = (if s.domState 78 = 2 ∨ s.domState 78 = 3 then [s.seq.cycle] else []) ∧
    s.RegsKept s.midnightSampled [Reg.tioCadStat] := by
  obtain ⟨b, hb, hc⟩ := passSamples_frame { s with
    seq := { s.seq with midnight := true, settled := false }, tio := { s.tio with instant := false, paired := false } }
  obtain ⟨u, hu, hs⟩ : ∃ u : State, u = { s with
      seq := { s.seq with midnight := true, settled := false },
      tiles := tmap (fun _ => Tile.empty) (fun x => { x with probe := [] }) s.tiles,
      tio := { s.tio with instant := false, paired := false, chans := s.cycleChans },
      tt := { s.tt with buf := s.tt.buf ++ b } } ∧ s.midnightSampled = u.pairTick := ⟨_, rfl, congrArg pairTick hb⟩
  obtain ⟨r, p, hp⟩ := u.pairTick_frame
  refine ⟨r, p, b, ?_, hc, fun k hk => ?_⟩
  · rw [hs, hp, hu]
  · rw [hs, u.pairTick_reg_other (fun e => hk (List.mem_singleton.mpr e)), hu]
    exact reg_of_regs rfl k

/-! ### Tasks that become due at the release (R430 to R433, R542) -/

/-- From s to s' the scheduler and the PM have worked: the count, the clusters, the lanes, the memories, the steps of the window and
SEQ_WAIT are as they were. -/
structure DueKept (s s' : State) : Prop where
  wait : s'.reg Reg.seqWait = s.reg Reg.seqWait
  seq : s'.seq = s.seq
  clus : s'.clus = s.clus
  lanes : s'.lanes = s.lanes
  spad : s'.spad = s.spad
  hbm : s'.hbm = s.hbm
  steps : s'.steps = s.steps

variable {s} {s' s'' : State}

theorem DueKept.refl : DueKept s s := ⟨rfl, rfl, rfl, rfl, rfl, rfl, rfl⟩

theorem DueKept.trans (h : DueKept s s') (h' : DueKept s' s'') : DueKept s s'' where
  wait := h'.wait.trans h.wait
  seq := h'.seq.trans h.seq
  clus := h'.clus.trans h.clus
  lanes := h'.lanes.trans h.lanes
  spad := h'.spad.trans h.spad
  hbm := h'.hbm.trans h.hbm
  steps := h'.steps.trans h.steps

theorem DueKept.foldl {α : Type} (f : State → α → State) (l : List α) (h : ∀ u, ∀ a ∈ l, DueKept u (f u a)) (s : State) :
    DueKept s (l.foldl f s) :=
  List.foldlRecOn l f DueKept.refl fun u hu a ha => hu.trans (h u a ha)

/-- What has the same registers but for the network, the scheduler and the PM. -/
theorem DueKept.of_regs (hr : s'.regs = s.regs) (hq : s'.seq = s.seq) (hc : s'.clus = s.clus) (hl : s'.lanes = s.lanes)
    (hp : s'.spad = s.spad) (hh : s'.hbm = s.hbm) (hs : s'.steps = s.steps) : DueKept s s' :=
  ⟨reg_of_regs hr _, hq, hc, hl, hp, hh, hs⟩

/-- A write of a register other than SEQ_WAIT. -/
theorem DueKept.setReg {k : Nat} (hk : k ≠ Reg.seqWait) (s : State) (v : BitVec 32) : DueKept s (s.setReg k v) :=
  ⟨s.reg_setReg_other hk.symm v, rfl, rfl, rfl, rfl, rfl, rfl⟩

theorem DueKept.setFlag {k : Nat} (hk : k ≠ Reg.seqWait) (s : State) (i : Nat) (b : Bool) : DueKept s (s.setFlag k i b) :=
  DueKept.setReg hk s _

theorem DueKept.setFld {k : Nat} (hk : k ≠ Reg.seqWait) (s : State) (hi lo v : Nat) : DueKept s (s.setFld k hi lo v) :=
  DueKept.setReg hk s _

theorem DueKept.count {k : Nat} (hk : k ≠ Reg.seqWait) (s : State) (hi lo n : Nat) : DueKept s (s.count k hi lo n) :=
  DueKept.setReg hk s _

theorem DueKept.irqIf (s : State) (b : Bool) (v : Nat) : DueKept s (s.irqIf b v) := by
  rw [irqIf_frame]
  exact ⟨rfl, rfl, rfl, rfl, rfl, rfl, rfl⟩

theorem ssDstat_ne_seqWait {d : Nat} (hd : d < 1024) : Reg.ssDstat d ≠ Reg.seqWait := by
  unfold Reg.ssDstat Reg.seqWait; omega

theorem ssEng_ne_seqWait {e : Nat} (he : e < 16) : Reg.ssEng e ≠ Reg.seqWait := by
  unfold Reg.ssEng Reg.seqWait; omega

theorem ssDesc_ne_seqWait {d w : Nat} (hd : d < 1024) (hw : w < 16) : Reg.ssDesc d w ≠ Reg.seqWait := by
  unfold Reg.ssDesc Reg.seqWait; omega

theorem setDState_dueKept (s : State) {d : Nat} (hd : d < 1024) (st : Nat) : DueKept s (s.setDState d st) :=
  DueKept.setFld (ssDstat_ne_seqWait hd) s _ _ _

theorem setSlot_dueKept (s : State) {e : Nat} (he : e < 16) (d : Option Nat) : DueKept s (s.setSlot e d) := by
  cases d <;> exact (DueKept.setFlag (ssEng_ne_seqWait he) s _ _).trans (DueKept.setFld (ssEng_ne_seqWait he) _ _ _ _)

theorem setSsQueue_dueKept (s : State) (l : Nat) (q : List Nat) : DueKept s (s.setSsQueue l q) := DueKept.of_regs rfl rfl rfl rfl rfl rfl rfl

theorem fillSlot_dueKept (s : State) {e : Nat} (he : e < 16) : DueKept s (s.fillSlot e) := by
  have htake : ∀ l d, DueKept s ((s.setSsQueue l ((s.ssQueue l).erase d)).setSlot e (some d)) := fun l d =>
    (setSsQueue_dueKept s _ _).trans (setSlot_dueKept _ he _)
  unfold fillSlot
  split
  · exact DueKept.refl
  · dsimp only
    split
    · exact htake _ _
    · split
      · exact (htake _ _).trans (setSsQueue_dueKept _ _ _)
      · exact DueKept.refl

theorem enqueue_dueKept (s : State) {d : Nat} (hd : d < 1024) : DueKept s (s.enqueue d) :=
  (setDState_dueKept s hd 2).trans (setSsQueue_dueKept _ _ _)

theorem makeDue_dueKept (s : State) (l : List Nat) (hl : ∀ d ∈ l, d < 1024) : DueKept s (s.makeDue l) := by
  unfold makeDue fillSlots
  exact (DueKept.foldl _ l (fun u d hd => enqueue_dueKept u (hl d hd)) s).trans
    (DueKept.foldl _ _ (fun u e _ => fillSlot_dueKept u (Nat.mod_lt e (by decide))) _)

theorem ssRefuse_dueKept (s : State) (op d : Nat) : DueKept s (s.ssRefuse op d) := by
  unfold ssRefuse
  split
  · exact DueKept.refl
  · exact (DueKept.setReg (by decide) s _).trans (DueKept.irqIf _ _ _)

theorem ckTaskEnd_dueKept (s : State) (d code : Nat) : DueKept s (s.ckTaskEnd d code) := by
  have herr : DueKept s (if code = 0 then s else s.setFlag Reg.modeStat 25 true) := by
    split
    · exact DueKept.refl
    · exact DueKept.setFlag (by decide) s _ _
  have hpm : ∀ (u : State) ck, DueKept u { u with pm := { u.pm with ck := ck } } := fun u ck => DueKept.of_regs rfl rfl rfl rfl rfl rfl rfl
  unfold ckTaskEnd
  split
  · exact DueKept.refl
  · split
    · dsimp only
      split
      · split
        · exact ((herr.trans (hpm _ none)).trans (DueKept.setReg (by decide) _ _)).trans (DueKept.setReg (by decide) _ _)
        · exact herr.trans (hpm _ none)
      · exact herr.trans (hpm _ _)
    · exact DueKept.refl

/-- The task's status and the counts of the scheduler, once it has ended. -/
def taskCounted (s : State) (d code : Nat) : State :=
  let u := ((s.ckTaskEnd d code).setDState d (if code = 0 then 4 else 5)).setFld (Reg.ssDstat d) 7 0 code
  if code = 0 then u.count Reg.ssCnt 31 16 1 else (u.count Reg.ssCnt 15 0 1).irqIf (u.flag Reg.ssCtrl 2) 5

theorem taskEnd_eq (s : State) (d code : Nat) : s.taskEnd d code =
    if code ≠ 0 ∧ (s.taskCounted d code).dBar d = true then
      if ((s.taskCounted d code).setFlag Reg.ssStat 31 true).dType d = 6 ∧ code = 0x14 then
        (s.taskCounted d code).setFlag Reg.ssStat 31 true
      else ((s.taskCounted d code).setFlag Reg.ssStat 31 true).setFlag Reg.seqLoss 5 true
    else s.taskCounted d code := rfl

theorem taskEnd_dueKept (s : State) {d : Nat} (hd : d < 1024) (code : Nat) : DueKept s (s.taskEnd d code) := by
  have hcount : DueKept s (s.taskCounted d code) := by
    have hstat := ((ckTaskEnd_dueKept s d code).trans (setDState_dueKept _ hd (if code = 0 then 4 else 5))).trans
      (DueKept.setFld (ssDstat_ne_seqWait hd) _ 7 0 code)
    unfold taskCounted
    dsimp only
    by_cases hc : code = 0
    · rw [if_pos hc]
      exact hstat.trans (DueKept.count (by decide) _ _ _ _)
    · rw [if_neg hc]
      exact (hstat.trans (DueKept.count (by decide) _ _ _ _)).trans (DueKept.irqIf _ _ _)
  have hflag := hcount.trans (DueKept.setFlag (k := Reg.ssStat) (by decide) _ 31 true)
  rw [taskEnd_eq]
  split
  · split
    · exact hflag
    · exact hflag.trans (DueKept.setFlag (by decide) _ _ _)
  · exact hcount

theorem submit_dueKept (s : State) {d : Nat} (hd : d < 1024) (op : Nat) : DueKept s (s.submit d op) := by
  have hdue : DueKept s (s.makeDue [d]) := makeDue_dueKept s _ fun a ha => (List.mem_singleton.mp ha).symm ▸ hd
  unfold submit
  split_ifs
  · exact ssRefuse_dueKept s _ _
  · exact taskEnd_dueKept s hd _
  · exact taskEnd_dueKept s hd _
  · exact hdue
  · exact setDState_dueKept s hd _
  · exact taskEnd_dueKept s hd _
  · exact hdue
  · exact setDState_dueKept s hd _

theorem ckSubmit_dueKept (s : State) (cyc : BitVec 48) : DueKept s (s.ckSubmit cyc) := by
  unfold ckSubmit
  dsimp only
  split
  · exact DueKept.refl
  · generalize hm : List.map (fun m => (m, s.ckMask m)) _ = masks
    have hlt : ∀ p ∈ masks, 1020 + p.1 < 1024 := fun p hp => by
      rw [← hm] at hp
      simp only [List.mem_map, List.mem_filter, List.mem_range] at hp
      obtain ⟨m, ⟨⟨hlt, -⟩, -⟩, rfl⟩ := hp
      omega
    generalize decide (List.length _ = List.length _) = all
    have herr : DueKept s (if all = true then s else s.ckError) := by
      split
      · exact DueKept.refl
      · exact DueKept.setFlag (by decide) s _ _
    refine DueKept.trans ?_ (DueKept.foldl _ _ (fun u p hp => submit_dueKept u (hlt p hp) 1) _)
    refine DueKept.trans ?_ (DueKept.foldl _ _ (fun u p hp => DueKept.foldl _ _ (fun v w hw =>
      DueKept.setReg (ssDesc_ne_seqWait (hlt p hp) (List.mem_range.mp hw)) v _) u) _)
    exact herr.trans (DueKept.of_regs rfl rfl rfl rfl rfl rfl rfl)

theorem ckDue_dueKept (s : State) : DueKept s s.ckDue := by
  unfold ckDue
  split
  · split
    · exact ckSubmit_dueKept s _
    · exact ((DueKept.setFld (by decide) s _ _ _).trans (DueKept.count (by decide) _ _ _ _)).trans (ckSubmit_dueKept _ _)
    · exact DueKept.of_regs rfl rfl rfl rfl rfl rfl rfl
  · exact DueKept.refl

theorem lt_of_mem_tasksDueAt {cyc : BitVec 48} {d : Nat} (h : d ∈ s.tasksDueAt cyc) : d < 1024 := by
  simp only [tasksDueAt, usedTasks, List.mem_filter, List.mem_filterMap] at h
  obtain ⟨⟨e, -, he⟩, -⟩ := h
  split at he
  · next hk =>
    simp only [Option.some.injEq] at he
    unfold Reg.ssDstat at hk he
    omega
  · exact absurd he (by simp)

/-! ### The release (R27 steps 5 and 6) -/

/-- The parity of the count alternates (R33). -/
theorem getLsbD_zero_add_one (c : BitVec 48) : (c + 1).getLsbD 0 = !c.getLsbD 0 := by
  rw [BitVec.getLsbD_add (by decide)]
  simp

theorem done_of_mem_clustersNext {e : Nat × Cluster} (h : e ∈ s.clustersNext.clus) : e.2.done = false := by
  simp only [clustersNext, tmap, List.mem_filter, List.mem_map] at h
  obtain ⟨⟨a, -, rfl⟩, -⟩ := h
  rfl

theorem phaseSteps_frame (s : State) : ∃ n, s.phaseSteps = { s with steps := n } := by
  unfold phaseSteps
  refine List.foldlRecOn (motive := fun u : State => ∃ n, u = { s with steps := n }) _ _ ⟨s.steps, rfl⟩ ?_
  rintro u ⟨n, rfl⟩ k -
  split
  · exact ⟨_, rfl⟩
  · exact ⟨n, rfl⟩

theorem phaseSteps_reg (s : State) (k : Nat) : s.phaseSteps.reg k = s.reg k := by
  obtain ⟨n, hn⟩ := s.phaseSteps_frame
  rw [hn]
  exact reg_of_regs rfl k

theorem stepsOf_addSteps (s : State) (t n : Nat) : (s.addSteps t n).stepsOf t = s.stepsOf t + n := by
  unfold stepsOf addSteps
  exact tget_tput_same _ _ _ _

theorem stepsOf_addSteps_other (s : State) {t k : Nat} (h : k ≠ t) (n : Nat) : (s.addSteps t n).stepsOf k = s.stepsOf k := by
  unfold stepsOf addSteps
  exact tget_tput_other _ h _ _

/-- Eight steps more for every participating tile (R36). -/
theorem stepsOf_phaseSteps (s : State) {k : Nat} (hk : k < 64) : s.phaseSteps.stepsOf k = s.stepsOf k + if s.tileActive k then 8 else 0 := by
  have h := foldl_range_local (fun u : State => u.regs = s.regs) stepsOf (fun u t => if u.tileActive t then u.addSteps t 8 else u)
    (fun t n => n + if s.tileActive t then 8 else 0) 64 (fun u t _ hu => ?keep) (fun u t _ hu => ?same) (fun u t j hj => ?other) s rfl k
  · rwa [if_pos hk] at h
  case keep =>
    split
    · exact hu
    · exact hu
  case same =>
    have ha : u.tileActive t = s.tileActive t := by
      rw [tileActive, tileActive, rgnState, rgnState, fld, fld, reg_of_regs hu]
    rw [ha]
    split
    · exact stepsOf_addSteps u t 8
    · rfl
  case other =>
    split
    · exact stepsOf_addSteps_other u hj 8
    · rfl

/-- The state of the release before tasks become due. -/
def released (s : State) (w : Nat) : State :=
  let u := s.setReg Reg.seqWait (BitVec.ofNat 32 (max (s.reg Reg.seqWait).toNat (min w (2 ^ 32 - 1))))
  { u with seq := { u.seq with cycle := s.seq.cycle + 1, midnight := false,
                               tok := u.seq.tok.filter fun t => t.cyc != s.seq.cycle.setWidth 32 } }.weltsNext.clustersNext

theorem released_reg (s : State) (w k : Nat) : (s.released w).reg k =
    (s.setReg Reg.seqWait (BitVec.ofNat 32 (max (s.reg Reg.seqWait).toNat (min w (2 ^ 32 - 1))))).reg k := reg_of_regs rfl k

theorem tileActive_released (s : State) (w : Nat) {k : Nat} (hk : k < 64) : (s.released w).tileActive k = s.tileActive k := by
  have hb := tileNode_bounds hk
  have hne : Reg.rgnStat k ≠ Reg.seqWait := by
    unfold Reg.rgnStat Reg.seqWait
    omega
  rw [tileActive, tileActive, rgnState, rgnState, fld, fld, released_reg, s.reg_setReg_other hne]

theorem midnightRelease_of_free (w : Nat) (due : State → List Nat → State) (hm : s.seq.midnight = true) (hf : s.seq.faulted = false)
    (hs : s.seq.stalled = false) (hh : s.seqHold = 0) : s.midnightRelease w due =
      due (s.released w).phaseSteps ((s.released w).phaseSteps.tasksDueAt (s.seq.cycle + 1)) := by
  unfold midnightRelease
  rw [hm, hf, hs, hh]
  rfl

theorem midnightRelease_of_held (w : Nat) (due : State → List Nat → State) (hh : s.seqHold ≠ 0) : s.midnightRelease w due = s := by
  unfold midnightRelease
  rw [beq_false_of_ne hh, Bool.and_false]
  rfl

end State

theorem exec_localMidnight (s : State) : exec .localMidnight s = .next s.localMidnight := rfl

theorem exec_midnightRelease (w : Nat) (s : State) :
    exec (.midnightRelease w) s = .next (s.midnightRelease w fun s l => (s.makeDue l).ckDue) := rfl

end Sys2Proof.Machine

open Sys2Proof Sys2Proof.Machine

/-- Settles O7: `State.midnightSampled_frame` and `State.tokensOut_frame` say what local midnight changes, `State.DueKept` what the tasks
due at a release leave alone. -/
theorem midnightStandsAndReleases : Obligations.MidnightStandsAndReleases := by
  intro s hf hst
  refine ⟨fun hr hm hd => ?_, fun w hm => ⟨fun hh => ?_, fun hh => ?_⟩⟩
  · obtain ⟨r, p, b, hs, hb, hregs⟩ := s.midnightSampled_frame
    rw [exec_localMidnight, s.localMidnight_of_done hr hm hf hst hd]
    obtain ⟨u, hu⟩ : ∃ u : State, u = { s.midnightSampled with
      seq := { s.midnightSampled.seq with tokOut := s.midnightSampled.seq.tokOut ++ s.midnightSampled.midnightToks } } := ⟨_, rfl⟩
    obtain ⟨r', x, l, k, o, p', ht⟩ := u.tokensOut_frame
    rw [← hu]
    refine ⟨_, rfl, ?_, ?_, ?_, ?_, ?_, ?_, ?_, ⟨fun a => ?_, fun a => ?_⟩, ?_, fun hn ho => ?_⟩
    · rw [ht, hu, hs]
    · rw [ht, hu, hs]
    · rw [ht, hu, hs]
      exact hr
    · rw [ht, hu, hs]
    · rw [ht, hu, hs]
    · rw [ht, hu, hs]
    · rw [ht, hu, hs]
    · rw [ht, hu, hs]
    · rw [ht, hu, hs]
    · rw [ht, hu, hs, ← hb, ← List.map_append]
    · have hnone : u.seq.tokOut = [] := by
        rw [hu, hs, State.midnightToks, hn, ho]
        rfl
      rw [u.tokensOut_of_none hnone]
      refine ⟨?_, fun k hk => ?_⟩
      · rw [hu, hs]
      · rw [hu]
        exact (State.reg_of_regs rfl k).trans (hregs k hk)
  · rw [exec_midnightRelease, State.midnightRelease_of_free w _ hm hf hst hh]
    obtain ⟨n, hn⟩ := (s.released w).phaseSteps_frame
    have hdue := (State.makeDue_dueKept (s.released w).phaseSteps _ fun d hd => State.lt_of_mem_tasksDueAt hd).trans
      (State.ckDue_dueKept (((s.released w).phaseSteps).makeDue ((s.released w).phaseSteps.tasksDueAt (s.seq.cycle + 1))))
    refine ⟨_, rfl, ?_, ?_, ?_, ?_, ?_, ⟨fun a => ?_, fun a => ?_⟩, ?_, fun k hk => ?_⟩
    · rw [hdue.seq, hn]; rfl
    · rw [State.par, hdue.seq, hn]
      exact State.getLsbD_zero_add_one s.seq.cycle
    · rw [hdue.seq, hn]; rfl
    · rw [hdue.clus, hn]
      exact fun e he => State.done_of_mem_clustersNext he
    · rw [hdue.lanes, hn]; rfl
    · rw [hdue.spad, hn]; rfl
    · rw [hdue.hbm, hn]; rfl
    · rw [hdue.wait, State.phaseSteps_reg, State.released_reg, State.reg_setReg_same]
    · rw [State.stepsOf, hdue.steps, ← State.stepsOf, (s.released w).stepsOf_phaseSteps hk, s.tileActive_released w hk]
      rfl
  · rw [exec_midnightRelease, State.midnightRelease_of_held w _ hh]
end

section
/-! PROOFS. The device reset (R51, R257, R300, R564, R575): the registers it keeps, and what it leaves. -/

namespace Sys2Proof.Machine

namespace State

variable {s s' s'' : State} {ks ks' : List Nat}

/-! ### Commands that write registers only -/

theorem OnlyRegs.refl : s.OnlyRegs s ks := ⟨rfl, fun _ _ => rfl⟩

theorem OnlyRegs.trans (h : s.OnlyRegs s' ks) (h' : s'.OnlyRegs s'' ks) : s.OnlyRegs s'' ks := by
  obtain ⟨he, hk⟩ := h
  obtain ⟨he', hk'⟩ := h'
  exact ⟨by rw [he', he], fun k hn => (hk' k hn).trans (hk k hn)⟩

theorem OnlyRegs.mono (h : s.OnlyRegs s' ks) (hs : ∀ k ∈ ks, k ∈ ks') : s.OnlyRegs s' ks' :=
  ⟨h.1, fun k hn => h.2 k fun hk => hn (hs k hk)⟩

theorem OnlyRegs.setReg {k : Nat} (hk : k ∈ ks) (s : State) (v : BitVec 32) : s.OnlyRegs (s.setReg k v) ks :=
  ⟨rfl, fun _ hn => s.reg_setReg_other (by rintro rfl; exact hn hk) v⟩

theorem OnlyRegs.setFld {k : Nat} (hk : k ∈ ks) (s : State) (hi lo v : Nat) : s.OnlyRegs (s.setFld k hi lo v) ks :=
  OnlyRegs.setReg hk s _

theorem OnlyRegs.setFlag {k : Nat} (hk : k ∈ ks) (s : State) (i : Nat) (b : Bool) : s.OnlyRegs (s.setFlag k i b) ks :=
  OnlyRegs.setReg hk s _

theorem OnlyRegs.foldl {α : Type} (f : State → α → State) (l : List α) (h : ∀ u : State, ∀ a ∈ l, u.OnlyRegs (f u a) ks)
    (s : State) : s.OnlyRegs (l.foldl f s) ks :=
  List.foldlRecOn (motive := fun u : State => s.OnlyRegs u ks) l f OnlyRegs.refl fun u hu a ha => OnlyRegs.trans hu (h u a ha)

/-! ### The registers that a device reset keeps (R257, R512, R559, R564) -/

/-- SPR_AGE_k (R564). -/
def ageRegs : List Nat := (List.range 64).map Reg.sprAge

/-- The ledger's (R559). -/
def ledgerRegs : List Nat := [Reg.sprLgWr, Reg.sprLgRd, Reg.sprLgLost]

/-- DBG_AWL, and the geometry and state of each controller (R257, R512). -/
def awlRegs : List Nat := Reg.dbgAwl :: (List.range 6).map Reg.mcGeom ++ (List.range 6).map Reg.mcStat

def keptRegs (log awl : Bool) : List Nat := ageRegs ++ (if log then ledgerRegs else []) ++ if awl then awlRegs else []

def keepAges (s old : State) : State := (List.range 64).foldl (fun (s : State) t => s.keepReg old (Reg.sprAge t)) s

def keepLedger (s old : State) : State := ((s.keepReg old Reg.sprLgWr).keepReg old Reg.sprLgRd).keepReg old Reg.sprLgLost

/-- One controller's. -/
def keepMc (s old : State) (m : Nat) : State :=
  ((s.keepReg old (Reg.mcGeom m)).setFld (Reg.mcStat m) 2 0 (if old.mcState m = 5 ∨ old.mcState m = 1 then old.mcState m else 4)).setFlag
    (Reg.mcStat m) 5 (old.mcState m != 5 && old.mcState m != 1)

def keepAwl (s old : State) : State :=
  (List.range 6).foldl (fun s m => s.keepMc old m) (s.setFld Reg.dbgAwl 29 27 (old.fld Reg.dbgAwl 29 27))

theorem keepRegs_eq (s old : State) (log awl : Bool) : s.keepRegs old log awl =
    if awl then (if log then (s.keepAges old).keepLedger old else s.keepAges old).keepAwl old
    else if log then (s.keepAges old).keepLedger old else s.keepAges old := rfl

theorem keepAges_onlyRegs (s old : State) : s.OnlyRegs (s.keepAges old) ageRegs :=
  OnlyRegs.foldl _ _ (fun u _ hi => OnlyRegs.setReg (List.mem_map_of_mem hi) u _) s

theorem keepLedger_onlyRegs (s old : State) : s.OnlyRegs (s.keepLedger old) ledgerRegs :=
  ((OnlyRegs.setReg (by decide) s _).trans (OnlyRegs.setReg (by decide) _ _)).trans (OnlyRegs.setReg (by decide) _ _)

theorem keepMc_onlyRegs (s old : State) (m : Nat) : s.OnlyRegs (s.keepMc old m) [Reg.mcGeom m, Reg.mcStat m] :=
  ((OnlyRegs.setReg (by simp) s _).trans (OnlyRegs.setFld (by simp) _ _ _ _)).trans (OnlyRegs.setFlag (by simp) _ _ _)

theorem keepMcs_onlyRegs (s old : State) : s.OnlyRegs ((List.range 6).foldl (fun s m => s.keepMc old m) s)
    ((List.range 6).map Reg.mcGeom ++ (List.range 6).map Reg.mcStat) := by
  refine OnlyRegs.foldl _ _ (fun u m hm => (u.keepMc_onlyRegs old m).mono fun k hk => ?_) s
  simp only [List.mem_cons, List.not_mem_nil, or_false] at hk
  rcases hk with rfl | rfl
  · exact List.mem_append_left _ (List.mem_map_of_mem hm)
  · exact List.mem_append_right _ (List.mem_map_of_mem hm)

theorem keepAwl_onlyRegs (s old : State) : s.OnlyRegs (s.keepAwl old) awlRegs :=
  (OnlyRegs.setFld List.mem_cons_self s _ _ _).trans ((keepMcs_onlyRegs _ old).mono fun _ hk => List.mem_cons_of_mem _ hk)

theorem keepRegs_onlyRegs (s old : State) (log awl : Bool) : s.OnlyRegs (s.keepRegs old log awl) (keptRegs log awl) := by
  have hage : s.OnlyRegs (s.keepAges old) (keptRegs log awl) := (keepAges_onlyRegs s old).mono fun _ hk =>
    List.mem_append_left _ (List.mem_append_left _ hk)
  have hlog : s.OnlyRegs (if log then (s.keepAges old).keepLedger old else s.keepAges old) (keptRegs log awl) := by
    cases log with
    | false => exact hage
    | true => exact hage.trans ((keepLedger_onlyRegs _ old).mono fun _ hk => List.mem_append_left _ (List.mem_append_right _ hk))
  rw [keepRegs_eq]
  cases awl with
  | false => exact hlog
  | true => exact hlog.trans ((keepAwl_onlyRegs _ old).mono fun _ hk => List.mem_append_right _ hk)

theorem keepAges_reg (s old : State) {i : Nat} (hi : i < 64) : (s.keepAges old).reg (Reg.sprAge i) = old.reg (Reg.sprAge i) := by
  have h := foldl_range_local (fun _ : State => True) (fun (u : State) i => u.reg (Reg.sprAge i)) (fun u t => u.keepReg old (Reg.sprAge t))
    (fun t _ => old.reg (Reg.sprAge t)) 64 (fun _ _ _ h => h) (fun u t _ _ => u.reg_setReg_same _ _)
    (fun u t k hk => u.reg_setReg_other (by unfold Reg.sprAge; omega) _) s trivial i
  rwa [if_pos hi] at h

theorem keepLedger_reg_sprLgWr (s old : State) : (s.keepLedger old).reg Reg.sprLgWr = old.reg Reg.sprLgWr := by
  unfold keepLedger keepReg
  rw [reg_setReg_other _ (by decide), reg_setReg_other _ (by decide), reg_setReg_same]

theorem not_mem_awlRegs {k : Nat} (hk : k ≠ Reg.dbgAwl) (hn : ∀ m, k / 0x100000 ≠ mcNode m) : k ∉ awlRegs := by
  intro h
  simp only [awlRegs, List.cons_append, List.mem_cons, List.mem_append, List.mem_map, List.mem_range] at h
  rcases h with h | ⟨m, -, h⟩ | ⟨m, -, h⟩
  · exact hk h
  · refine hn m ?_
    rw [← h, Reg.mcGeom]
    omega
  · refine hn m ?_
    rw [← h, Reg.mcStat]
    omega

/-- The PM is no controller's node (R264). -/
theorem mcNode_ne_pmNode (m : Nat) : (94 : Nat) ≠ mcNode m := by
  unfold mcNode
  split <;> omega

theorem sprAge_not_mem_awlRegs {i : Nat} (hi : i < 64) : Reg.sprAge i ∉ awlRegs := by
  refine not_mem_awlRegs ?_ fun m => ?_
  · unfold Reg.sprAge Reg.dbgAwl
    omega
  · rw [show Reg.sprAge i / 0x100000 = 94 by unfold Reg.sprAge; omega]
    exact mcNode_ne_pmNode m

theorem sprAge_not_mem_ledgerRegs (i : Nat) : Reg.sprAge i ∉ ledgerRegs := by
  simp only [ledgerRegs, List.mem_cons, List.not_mem_nil, or_false, Reg.sprAge, Reg.sprLgWr, Reg.sprLgRd, Reg.sprLgLost]
  omega

/-- Every device reset keeps the aging losses (R564). -/
theorem keepRegs_reg_sprAge (s old : State) (log awl : Bool) {i : Nat} (hi : i < 64) :
    (s.keepRegs old log awl).reg (Reg.sprAge i) = old.reg (Reg.sprAge i) := by
  have hlog : (if log then (s.keepAges old).keepLedger old else s.keepAges old).reg (Reg.sprAge i) = old.reg (Reg.sprAge i) := by
    cases log with
    | false => exact keepAges_reg s old hi
    | true => exact ((keepLedger_onlyRegs _ old).2 _ (sprAge_not_mem_ledgerRegs i)).trans (keepAges_reg s old hi)
  rw [keepRegs_eq]
  cases awl with
  | false => exact hlog
  | true => exact ((keepAwl_onlyRegs _ old).2 _ (sprAge_not_mem_awlRegs hi)).trans hlog

/-- An awl reset keeps the ledger's write index (R559) and DBG_AWL.FAILS (R512). -/
theorem keepRegs_awl (s old : State) : (s.keepRegs old true true).reg Reg.sprLgWr = old.reg Reg.sprLgWr ∧
    (s.keepRegs old true true).fld Reg.dbgAwl 29 27 = old.fld Reg.dbgAwl 29 27 := by
  have hwr : Reg.sprLgWr ∉ awlRegs := not_mem_awlRegs (by decide) fun m => by
    rw [show Reg.sprLgWr / 0x100000 = 94 by decide]
    exact mcNode_ne_pmNode m
  have hawl : Reg.dbgAwl ∉ (List.range 6).map Reg.mcGeom ++ (List.range 6).map Reg.mcStat := by decide
  rw [keepRegs_eq, if_pos rfl, if_pos rfl]
  refine ⟨((keepAwl_onlyRegs _ old).2 _ hwr).trans (keepLedger_reg_sprLgWr _ old), ?_⟩
  rw [fld, keepAwl, (keepMcs_onlyRegs _ old).2 _ hawl, ← fld, fld_setFld _ _ _ _ _ (by decide) (by decide)]
  exact Nat.mod_eq_of_lt (bits_lt _ _ _)

/-! ### What a device reset leaves -/

/-- The state of a device reset before the registers that it keeps. -/
def resetBase (s : State) (log : Bool) : State :=
  let fuses := match s.dbg.fuse with
    | some (g, w, v) => tput (fun _ => 0) (64 * g + w)
        (tget (fun _ => 0) s.fuses (64 * g + w) ||| (v &&& s.drawn.setWidth 32)) s.fuses
    | none => s.fuses
  let ramping := if s.fld Reg.modeStat 7 0 = presetReq 0 then s.pm.ramping else [0, 1, 2, 3]
  { State.reset with
    pending := s.pending, free := s.free + 1, bus := s.bus, msix := s.msix, spad := s.spad, hbm := s.hbm, hbmBad := s.hbmBad, fuses := fuses,
    fusesIn := fuses, dev := s.dev, devIn := s.dev, store := { s.store with op := none }, fabId := s.store.record.id, load := none,
    ledger := if log then s.ledger else [], us := if log then s.us else 0, overt := s.overt,
    tio := { Tio.empty with levels := s.tio.levels, safe := s.overt }, pm := { Pm.empty with ramping := ramping, bring := true },
    mcs := tmap (fun _ => Mc.empty) (fun x => { Mc.empty with rfm := x.rfm }) s.mcs, pkg := s.pkg }

theorem deviceReset_eq (s : State) (log awl : Bool) : s.deviceReset log awl = (s.resetBase log).keepRegs s log awl := rfl

theorem deviceReset_frame (s : State) (log awl : Bool) : ∃ r, s.deviceReset log awl = { s.resetBase log with regs := r } :=
  ⟨_, ((s.resetBase log).keepRegs_onlyRegs s log awl).1⟩

theorem deviceReset_reg (s : State) (log awl : Bool) {k : Nat} (hk : k ∉ keptRegs log awl) :
    (s.deviceReset log awl).reg k = resetWord k :=
  ((s.resetBase log).keepRegs_onlyRegs s log awl).2 k hk

theorem deviceReset_sprAge (s : State) (log awl : Bool) {i : Nat} (hi : i < 64) :
    (s.deviceReset log awl).reg (Reg.sprAge i) = s.reg (Reg.sprAge i) := (s.resetBase log).keepRegs_reg_sprAge s log awl hi

/-- What a reset of the device leaves of state s: every register but those of ks at its Reset value, the run over, clusters and lanes at
their defaults, no packet, no load, and the domains to be brought on. -/
def CleanAfter (s t : State) (ks : List Nat) : Prop :=
  (∀ k, k ∉ ks → t.reg k = resetWord k) ∧ t.seq = Seq.reset ∧
    (∀ i c, t.clu i c = Cluster.empty) ∧ (∀ l, t.lane l = Lane.empty) ∧ t.net = [] ∧ t.pending = s.pending ∧
    t.store = { s.store with op := none } ∧ t.dev = s.dev ∧ t.dbg = Dbg.empty ∧ t.load = none ∧ t.pm.bring = true ∧
    t.masters = [] ∧ t.locks = [] ∧ t.fabId = s.store.record.id

theorem deviceReset_clean (s : State) (log awl : Bool) (p : Pkg) :
    s.CleanAfter { s.deviceReset log awl with pkg := p } (keptRegs log awl) := by
  obtain ⟨r, hr⟩ := s.deviceReset_frame log awl
  refine ⟨fun k hk => (reg_of_regs rfl k).trans (s.deviceReset_reg log awl hk), ?_⟩
  rw [hr]
  exact ⟨rfl, fun _ _ => rfl, fun _ => rfl, rfl, rfl, rfl, rfl, rfl, rfl, rfl, rfl, rfl, rfl⟩

end State

end Sys2Proof.Machine
end

section
/-! PROOFS. Writes of the HBM that an awl reset cuts short (R257): the bytes they may change. -/

namespace Sys2Proof.Machine

namespace State

variable {s s' s'' : State} {P Q : Nat → Prop}

/-- From s to s' only content of the HBM and its check bits change, and free values are drawn; every byte outside P stays. -/
def HbmCut (P : Nat → Prop) (s s' : State) : Prop :=
  (∃ h b f, s' = { s with hbm := h, hbmBad := b, free := f }) ∧ ∀ y, ¬ P y → Memory.get s'.hbm y = Memory.get s.hbm y

theorem HbmCut.refl : HbmCut P s s := ⟨⟨s.hbm, s.hbmBad, s.free, rfl⟩, fun _ _ => rfl⟩

theorem HbmCut.trans (h : HbmCut P s s') (h' : HbmCut P s' s'') : HbmCut P s s'' := by
  obtain ⟨⟨m, b, f, rfl⟩, hk⟩ := h
  obtain ⟨⟨m', b', f', he⟩, hk'⟩ := h'
  exact ⟨⟨m', b', f', he⟩, fun y hy => (hk' y hy).trans (hk y hy)⟩

theorem HbmCut.mono (hp : ∀ y, P y → Q y) (h : HbmCut P s s') : HbmCut Q s s' := ⟨h.1, fun y hy => h.2 y fun hp' => hy (hp y hp')⟩

theorem HbmCut.foldl {α : Type} (f : State → α → State) (l : List α)
    (h : ∀ u, HbmCut P s u → ∀ a ∈ l, HbmCut P u (f u a)) : HbmCut P s (l.foldl f s) :=
  List.foldlRecOn (motive := fun u : State => HbmCut P s u) l f HbmCut.refl fun u hu a ha => hu.trans (h u hu a ha)

/-- Byte y lies in the burst that starts at user byte address a, or in the spare that it is migrating to (R236, R240). -/
def inBurst (s : State) (a y : Nat) : Prop :=
  (s.hbmFlat a ≤ y ∧ y < s.hbmFlat a + 32) ∨ ∃ z, s.hbmTwin a = some z ∧ z ≤ y ∧ y < z + 32

theorem HbmCut.inBurst (h : HbmCut P s s') (a : Nat) : s'.inBurst a = s.inBurst a := by
  obtain ⟨⟨m, b, f, rfl⟩, -⟩ := h
  rfl

theorem hbmFlatPut_get_other (s : State) (f : Nat) (l : List (BitVec 8)) {y : Nat} (h : y < f ∨ f + l.length ≤ y) :
    Memory.get (s.hbmFlatPut f l).hbm y = Memory.get s.hbm y := Memory.get_putN_other _ _ _ _ h

/-- A burst written, or none, changes no byte outside it. -/
theorem hbmPut_hbmCut (s : State) (a : Nat) (l : List (BitVec 8)) (hl : l.length ≤ 32) : HbmCut (s.inBurst a) s (s.hbmPut a l) := by
  obtain ⟨m, b, hf⟩ := s.hbmPut_frame a l
  refine ⟨⟨m, b, s.free, hf⟩, fun y hy => ?_⟩
  rw [State.inBurst, not_or] at hy
  obtain ⟨hflat, htwin⟩ := hy
  have hout : y < s.hbmFlat a ∨ s.hbmFlat a + l.length ≤ y := by omega
  unfold hbmPut
  dsimp only
  split
  · next z hz =>
    have hzout : y < z ∨ z + l.length ≤ y := by
      by_contra hc
      exact htwin ⟨z, hz, by omega, by omega⟩
    rw [hbmFlatPut_get_other _ _ _ hzout, hbmFlatPut_get_other _ _ _ hout]
  · exact hbmFlatPut_get_other _ _ _ hout

theorem setBad_hbmCut (s : State) (k : Nat) (b : Bool) :
    HbmCut P s { s with hbmBad := tput (fun _ => false) k b s.hbmBad } := ⟨⟨s.hbm, _, s.free, rfl⟩, fun _ _ => rfl⟩

theorem flatMap_bytesOf_length (f : Nat → Nat) : ((List.range 4).flatMap fun i => bytesOf 8 (f i)).length = 32 := by
  simp [List.length_flatMap, bytesOf_length]

/-- User byte address of burst j of a write (R242). -/
def burstAddr (pk : Packet) (j : Nat) : Nat := aHbm pk.addr / 32 * 32 + 32 * j

/-- The bytes that a write of burst j puts (R245). -/
def burstNew (s : State) (pk : Packet) (j : Nat) : List (BitVec 8) :=
  if pk.cmd = 1 then (pk.data.map fun d => bytesOf 32 d.toNat).getD j []
  else
    ((List.range 4).map fun k =>
      let w := s.hbmWord (burstAddr pk j) [] k
      if k = aHbm pk.addr % 32 / 8 then mergeBytes pk.be w (flitWord (pk.data.getD 0 0) 0) 8 else w).flatMap fun w => bytesOf 8 w.toNat

theorem burstNew_length_le (s : State) (pk : Packet) (j : Nat) : (s.burstNew pk j).length ≤ 32 := by
  unfold burstNew
  split
  · rw [List.getD_eq_getElem?_getD, List.getElem?_map]
    cases pk.data[j]? <;> simp [bytesOf_length]
  · simp [List.length_flatMap, Function.comp_def, bytesOf_length]

/-- A burst of undefined data. -/
def burstUndefined (s : State) (pk : Packet) (j : Nat) (u : Nat → BitVec 64) : State :=
  (List.range 4).foldl (fun (s : State) i =>
      { s with hbmBad := tput (fun _ => false) (s.hbmFlat (burstAddr pk j + 8 * i)) ((u (4 + i)).getLsbD 0) s.hbmBad })
    (s.hbmPut (burstAddr pk j) ((List.range 4).flatMap fun i => bytesOf 8 (u i).toNat))

theorem cutBurst_eq (s : State) (pk : Packet) (j : Nat) : s.cutBurst pk j =
    match s.drawn.toNat % 3 with
    | 0 => { s with free := s.free + 9 }
    | 1 => ({ s with free := s.free + 9 } : State).hbmPut (burstAddr pk j) (({ s with free := s.free + 9 } : State).burstNew pk j)
    | _ => ({ s with free := s.free + 9 } : State).burstUndefined pk j fun i => Config.freeValue (s.free + 1 + i) := rfl

theorem cutBurst_hbmCut (s : State) (pk : Packet) (j : Nat) : HbmCut (s.inBurst (burstAddr pk j)) s (s.cutBurst pk j) := by
  have hdraw : HbmCut (s.inBurst (burstAddr pk j)) s { s with free := s.free + 9 } := ⟨⟨s.hbm, s.hbmBad, _, rfl⟩, fun _ _ => rfl⟩
  rw [cutBurst_eq]
  split
  · exact hdraw
  · exact hdraw.trans (hbmPut_hbmCut _ _ _ (burstNew_length_le _ _ _))
  · have hput := hbmPut_hbmCut { s with free := s.free + 9 } (burstAddr pk j) _
      (flatMap_bytesOf_length fun i => (Config.freeValue (s.free + 1 + i)).toNat).le
    exact (hdraw.trans hput).trans (HbmCut.foldl _ _ fun u _ i _ => setBad_hbmCut u _ _)

/-- Byte y lies in a burst of a write that some controller has accepted and not acknowledged. -/
def inCutWrite (s : State) (y : Nat) : Prop :=
  ∃ e ∈ s.mcs, ∃ r ∈ (e.2.queue.flatMap fun q => q.2) ++ e.2.ready, r.pk.cmd % 2 = 1 ∧
    ∃ j, j < (if r.pk.cmd = 1 then r.pk.len else 1) ∧ s.inBurst (burstAddr r.pk j) y

theorem cutWrites_hbmCut (s : State) : HbmCut s.inCutWrite s s.cutWrites := by
  refine HbmCut.foldl _ _ fun u hu e he => ?_
  refine HbmCut.foldl _ _ fun v hv r hr => ?_
  refine HbmCut.foldl _ _ fun w hw j hj => ?_
  obtain ⟨hr, hc⟩ := List.mem_filter.mp hr
  refine (cutBurst_hbmCut w r.pk j).mono fun y hy => ⟨e, he, r, hr, of_decide_eq_true hc, j, List.mem_range.mp hj, ?_⟩
  rwa [((hu.trans hv).trans hw).inBurst] at hy

end State

end Sys2Proof.Machine
end

section
/-! PROOFS. The end of a device reset (R351, R369, R397): the copies read, and the load that starts. -/

namespace Sys2Proof.Machine

namespace State

variable {s s' s'' : State}

/-! ### What a start leaves alone -/

/-- The registers that the end of a reset is told by: the aging losses, DBG_STAT, CE_CTRL, CE_STAT. -/
def startReads (k : Nat) : Prop := k = Reg.dbgStat ∨ k = Reg.ceCtrl ∨ k = Reg.ceStat ∨ ∃ i, i < 64 ∧ k = Reg.sprAge i

/-- From s to s' the loader reads and the PM works: of what the end of a reset is told by, nothing changes. -/
structure StartKept (s s' : State) : Prop where
  reads : ∀ k, startReads k → s'.reg k = s.reg k
  seq : s'.seq = s.seq
  spad : s'.spad = s.spad
  hbm : s'.hbm = s.hbm
  pkg : s'.pkg = s.pkg
  fabId : s'.fabId = s.fabId
  dev : s'.dev = s.dev
  load : s'.load = s.load
  sel : s'.store.dir.sel = s.store.dir.sel
  record : s'.store.record = s.store.record
  factoryUsed : s'.store.factoryUsed = s.store.factoryUsed

theorem StartKept.refl : StartKept s s := ⟨fun _ _ => rfl, rfl, rfl, rfl, rfl, rfl, rfl, rfl, rfl, rfl, rfl⟩

theorem StartKept.trans (h : StartKept s s') (h' : StartKept s' s'') : StartKept s s'' where
  reads k hk := (h'.reads k hk).trans (h.reads k hk)
  seq := h'.seq.trans h.seq
  spad := h'.spad.trans h.spad
  hbm := h'.hbm.trans h.hbm
  pkg := h'.pkg.trans h.pkg
  fabId := h'.fabId.trans h.fabId
  dev := h'.dev.trans h.dev
  load := h'.load.trans h.load
  sel := h'.sel.trans h.sel
  record := h'.record.trans h.record
  factoryUsed := h'.factoryUsed.trans h.factoryUsed

theorem StartKept.foldl {α : Type} (f : State → α → State) (l : List α) (h : ∀ u, ∀ a ∈ l, StartKept u (f u a)) (s : State) :
    StartKept s (l.foldl f s) :=
  List.foldlRecOn (motive := fun u : State => StartKept s u) l f StartKept.refl fun u hu a ha => hu.trans (h u a ha)

/-- What changes no register, and no part of the state that the end of a reset is told by. -/
theorem StartKept.of_regs (hr : s'.regs = s.regs) (hq : s'.seq = s.seq) (hs : s'.spad = s.spad) (hh : s'.hbm = s.hbm)
    (hp : s'.pkg = s.pkg) (hf : s'.fabId = s.fabId) (hd : s'.dev = s.dev) (hl : s'.load = s.load)
    (he : s'.store.dir.sel = s.store.dir.sel) (hc : s'.store.record = s.store.record)
    (hu : s'.store.factoryUsed = s.store.factoryUsed) : StartKept s s' :=
  ⟨fun k _ => reg_of_regs hr k, hq, hs, hh, hp, hf, hd, hl, he, hc, hu⟩

theorem StartKept.setReg {k : Nat} (hk : ¬ startReads k) (s : State) (v : BitVec 32) : StartKept s (s.setReg k v) :=
  ⟨fun _ hj => s.reg_setReg_other (by rintro rfl; exact hk hj) v, rfl, rfl, rfl, rfl, rfl, rfl, rfl, rfl, rfl, rfl⟩

theorem StartKept.setFld {k : Nat} (hk : ¬ startReads k) (s : State) (hi lo v : Nat) : StartKept s (s.setFld k hi lo v) :=
  StartKept.setReg hk s _

theorem StartKept.setFlag {k : Nat} (hk : ¬ startReads k) (s : State) (i : Nat) (b : Bool) : StartKept s (s.setFlag k i b) :=
  StartKept.setReg hk s _

theorem StartKept.irqIf (s : State) (b : Bool) (v : Nat) : StartKept s (s.irqIf b v) := by
  rw [irqIf_frame]
  exact ⟨fun _ _ => rfl, rfl, rfl, rfl, rfl, rfl, rfl, rfl, rfl, rfl, rfl⟩

/-- A register at an offset where none of those stands. -/
theorem not_startReads_of_offset {k o : Nat} (ho : k % 0x100000 = o) (h : o ≠ 0 ∧ o ≠ 4 ∧ (o < 0x20100 ∨ 0x20200 ≤ o)) :
    ¬ startReads k := by
  unfold startReads Reg.dbgStat Reg.ceCtrl Reg.ceStat Reg.sprAge
  rintro (rfl | rfl | rfl | ⟨i, hi, rfl⟩) <;> omega

/-- MC_STAT shares an offset with two of them, and no node. -/
theorem not_startReads_mcStat (m : Nat) : ¬ startReads (Reg.mcStat m) := by
  have h : mcNode m ≠ 9 ∧ mcNode m ≠ 90 ∧ mcNode m ≠ 94 := by
    unfold mcNode
    split <;> omega
  obtain ⟨h9, h90, h94⟩ := h
  unfold startReads Reg.dbgStat Reg.ceCtrl Reg.ceStat Reg.sprAge Reg.mcStat
  rintro (h | h | h | ⟨i, hi, h⟩) <;> omega

theorem record_startKept (s : State) (sev cls code node det0 det1 det2 : Nat) :
    StartKept s (s.record sev cls code node det0 det1 det2) := by
  have hk : ∀ k, startReads k → (s.record sev cls code node det0 det1 det2).reg k = s.reg k := fun k hk =>
    record_reg _ _ _ _ _ _ _ _ _
      (by rintro rfl; exact not_startReads_of_offset (o := 0x20020) (by decide) (by decide) hk)
      (by rintro rfl; exact not_startReads_of_offset (o := 0x20028) (by decide) (by decide) hk)
  obtain ⟨r, x, l, hr⟩ := s.record_frame sev cls code node det0 det1 det2
  exact ⟨hk, by rw [hr], by rw [hr], by rw [hr], by rw [hr], by rw [hr], by rw [hr], by rw [hr], by rw [hr], by rw [hr], by rw [hr]⟩

/-! ### Reads of the store's regions (R351, R388) -/

theorem dirWrite_startKept (s : State) (f : Directory → Directory) (hf : (f s.store.dir).sel = s.store.dir.sel) : StartKept s (s.dirWrite f) :=
  StartKept.of_regs rfl rfl rfl rfl rfl rfl rfl rfl hf rfl rfl

theorem movePages_startKept (s : State) (a b : Nat) : StartKept s (s.movePages a b) :=
  StartKept.of_regs rfl rfl rfl rfl rfl rfl rfl rfl rfl rfl rfl

theorem moveBlock_startKept (s : State) (h : Nat) : StartKept s (s.moveBlock h) := by
  unfold moveBlock
  split
  · next q _ =>
    exact ((movePages_startKept s (s.blockOf h) q).trans
      (dirWrite_startKept _ (fun d => { d with bmap := tput (fun h => h) h q d.bmap }) rfl)).trans
      (StartKept.of_regs rfl rfl rfl rfl rfl rfl rfl rfl rfl rfl rfl)
  · exact StartKept.refl

theorem countRead_startKept (s : State) (h : Nat) : StartKept s (s.countRead h) := by
  have hmove : StartKept s (if 100000 ≤ tget (fun _ => 0) s.store.reads (s.blockOf h) then s.relocate h else s) := by
    split
    · exact (moveBlock_startKept s h).trans (StartKept.setReg (not_startReads_of_offset (o := 0x64) (by decide) (by decide)) _ _)
    · exact StartKept.refl
  unfold countRead
  dsimp only
  exact hmove.trans (StartKept.of_regs rfl rfl rfl rfl rfl rfl rfl rfl rfl rfl rfl)

/-- The copies of the store's regions that are lost give way. -/
def copiesGive (s : State) (lost : List LostCopy) : State := (allCopies.filter lost.contains).foldl State.copyLost s

theorem readCopies_startKept (s : State) (lost : List LostCopy) : StartKept (s.copiesGive lost) (s.readCopies lost) :=
  StartKept.foldl _ _ (fun u _ _ => countRead_startKept u _) _

theorem copyLost_frame (s : State) (c : LostCopy) : ∃ d t, s.copyLost c = { s with dev := d, store := t } ∧
    (c ≠ ⟨.repairMap, true⟩ → d = s.dev) := by
  obtain ⟨r, f⟩ := c
  unfold copyLost
  cases r <;> cases f <;> dsimp only
  case repairMap.true => split <;> exact ⟨_, _, rfl, fun h => absurd rfl h⟩
  case directory.true => split <;> exact ⟨s.dev, _, rfl, fun _ => rfl⟩
  case record.true => split <;> exact ⟨s.dev, _, rfl, fun _ => rfl⟩
  all_goals exact ⟨s.dev, _, rfl, fun _ => rfl⟩

/-- The copies that give way change the device only where the repair map's in force does. -/
theorem copiesGive_frame (s : State) (lost : List LostCopy) : ∃ d t, s.copiesGive lost = { s with dev := d, store := t } ∧
    (⟨.repairMap, true⟩ ∉ lost → d = s.dev) := by
  unfold copiesGive
  refine List.foldlRecOn
    (motive := fun u : State => ∃ d t, u = { s with dev := d, store := t } ∧ (⟨.repairMap, true⟩ ∉ lost → d = s.dev))
    _ _ ⟨s.dev, s.store, rfl, fun _ => rfl⟩ ?_
  rintro u ⟨d, t, rfl, hd⟩ c hc
  obtain ⟨d', t', he, hd'⟩ := copyLost_frame { s with dev := d, store := t } c
  refine ⟨d', t', he, fun hn => (hd' ?_).trans (hd hn)⟩
  rintro rfl
  exact hn (by simpa using (List.mem_filter.mp hc).2)

/-- One copy that gives way. -/
theorem copiesGive_singleton (s : State) (r : StoreRegion) : s.copiesGive [⟨r, true⟩] = s.copyLost ⟨r, true⟩ := by
  cases r <;> rfl

/-! ### The start of a load (R352, R370) -/

theorem slotsFound_startKept (s : State) : StartKept s s.slotsFound := by
  unfold slotsFound
  dsimp only
  split
  · exact StartKept.refl
  · exact dirWrite_startKept s _ rfl

theorem not_startReads_tilePlace (t : Nat) : ¬ startReads (Reg.tilePlace t) :=
  not_startReads_of_offset (o := 0x50020) (by unfold Reg.tilePlace; omega) (by decide)

theorem not_startReads_cluMap (k : Nat) : ¬ startReads (Reg.cluMap (k / 72) (k % 72)) :=
  not_startReads_of_offset (o := 0x80004 + 0x800 * (k % 72)) (by unfold Reg.cluMap; omega) (by omega)

theorem not_startReads_mcPcmap (m : Nat) {i : Nat} (hi : i < 62) : ¬ startReads (Reg.mcPcmap m i) :=
  not_startReads_of_offset (o := 0x100 + 4 * i) (by unfold Reg.mcPcmap; omega) (by omega)

theorem applyClusterMap_startKept (s : State) (p : Nat → Bool) : StartKept s (s.applyClusterMap p) := by
  unfold applyClusterMap
  dsimp only
  refine StartKept.trans (StartKept.foldl _ _ (fun u e _ => ?_) s) (StartKept.foldl _ _ (fun u e _ => ?_) _)
  · have hk := not_startReads_cluMap e.1
    split
    · exact (((StartKept.setFld hk u _ _ _).trans (StartKept.setFld hk _ _ _ _)).trans (StartKept.setFld hk _ _ _ _)).trans
        (StartKept.setFld hk _ _ _ _)
    · exact StartKept.refl
  · split
    · exact StartKept.setFld (not_startReads_cluMap e.1) u _ _ _
    · exact StartKept.refl

theorem migAbort_startKept (s : State) (m : Nat) : StartKept s (s.migAbort m) := by
  have hk : ¬ startReads (Reg.mcMigstat m) :=
    not_startReads_of_offset (o := 0x3C) (by unfold Reg.mcMigstat; omega) (by decide)
  unfold migAbort
  split
  · unfold migBit
    dsimp only
    refine StartKept.trans (StartKept.trans (StartKept.trans (s' := s.setMc m { s.mc m with mig := none }) ?_ (StartKept.setFlag hk _ _ _))
      (StartKept.setFlag hk _ _ _)) (StartKept.irqIf _ _ _)
    exact StartKept.of_regs rfl rfl rfl rfl rfl rfl rfl rfl rfl rfl rfl
  · exact StartKept.refl

theorem respond_startKept (s : State) (n : Nat) (pk : Packet) (c : Nat) (d : List (BitVec 256)) : StartKept s (s.respond n pk c d) :=
  StartKept.of_regs rfl rfl rfl rfl rfl rfl rfl rfl rfl rfl rfl

theorem mcFail_startKept (s : State) (m cause : Nat) : StartKept s (s.mcFail m cause) := by
  unfold mcFail
  dsimp only
  refine StartKept.trans (StartKept.trans (StartKept.trans (StartKept.trans (migAbort_startKept s m) ?_)
    (StartKept.setFld (not_startReads_mcStat m) _ _ _ _)) (record_startKept _ _ _ _ _ _ _ _))
    (StartKept.foldl _ _ (fun u r _ => respond_startKept u _ _ _ _) _)
  exact StartKept.of_regs rfl rfl rfl rfl rfl rfl rfl rfl rfl rfl rfl

/-- One step of the assignment of pseudo-channels: a failing one takes the next spare (R239). -/
def pcTake (bad : List Nat) (r : Option (List Nat × List Nat)) (p : Nat) : Option (List Nat × List Nat) :=
  r.bind fun x =>
    if bad.contains p then
      match x.2 with
      | q :: rest => some (x.1 ++ [q], rest)
      | [] => none
    else some (x.1 ++ [p], x.2)

theorem length_of_foldl_pcTake (bad cur : List Nat) (r : Option (List Nat × List Nat)) (n : Nat)
    (hr : ∀ x, r = some x → x.1.length = n) (x : List Nat × List Nat) (hx : cur.foldl (pcTake bad) r = some x) :
    x.1.length = n + cur.length := by
  induction cur generalizing r n with
  | nil => exact hr x hx
  | cons p cur ih =>
    rw [List.foldl_cons] at hx
    rw [ih (pcTake bad r p) (n + 1) ?_ hx, List.length_cons]
    · omega
    · intro y hy
      cases r with
      | none => simp [pcTake] at hy
      | some z =>
        have hz := hr z rfl
        simp only [pcTake, Option.bind_some] at hy
        split at hy
        · split at hy
          · simp only [Option.some.injEq] at hy
            rw [← hy]
            simp [hz]
          · simp at hy
        · simp only [Option.some.injEq] at hy
          rw [← hy]
          simp [hz]

/-- Every logical pseudo-channel of a stack gets one (R239). -/
theorem length_of_pcAssign {d : Device} {m : Nat} {l : List Nat} (h : pcAssign d m = some l) : l.length = 62 := by
  have he : pcAssign d m = (((List.range 62).map fun k => tget (fun k => k % 62) d.pcmap (62 * m + k)).foldl
      (pcTake (tget (fun _ => []) d.badPc m)) (some ([], (List.range 64).filter fun p =>
        !((List.range 62).map fun k => tget (fun k => k % 62) d.pcmap (62 * m + k)).contains p &&
          !(tget (fun _ => []) d.badPc m).contains p))).map fun x => x.1 := rfl
  rw [he, Option.map_eq_some_iff] at h
  obtain ⟨x, hx, rfl⟩ := h
  rw [length_of_foldl_pcTake _ _ _ 0 (fun y hy => by rw [← Option.some.inj hy]; rfl) x hx, List.length_map, List.length_range]

theorem applyRepairMap_startKept (s : State) : StartKept s s.applyRepairMap := by
  unfold applyRepairMap
  dsimp only
  refine StartKept.trans (StartKept.trans (StartKept.foldl _ _ (fun u e _ => ?_) s) (applyClusterMap_startKept _ _))
    (StartKept.foldl _ _ (fun u m _ => ?_) _)
  · exact StartKept.setFld (not_startReads_tilePlace e.1) u _ _ _
  · split
    · next l hl =>
      refine StartKept.foldl _ _ (fun v e he => StartKept.setFld (not_startReads_mcPcmap m ?_) v _ _ _) u
      rw [← length_of_pcAssign hl]
      exact List.snd_lt_of_mem_zipIdx he
    · split
      · exact StartKept.refl
      · exact mcFail_startKept u _ _

/-- The load begun, before the repair map takes effect. -/
def loadOpened (s : State) (src : Nat) : State :=
  let s := { s.slotsFound with load := some (Load.start none src 0), devIn := s.dev }
  let pass := s.flag Reg.sprCtrl 30
  let s := { s with pm := { s.pm with pass := if pass then List.range 64 else [] } }
  let s := (s.setFld Reg.sprStat 31 29 (b2n pass)).setFld Reg.sprStat 6 0 (if pass then 0 else 127)
  s.setFlag Reg.modeCklastHi 31 false

theorem loadStart_eq (s : State) (src : Nat) : s.loadStart src =
    (((((s.loadOpened src).applyRepairMap).ceState 0).setFld Reg.ceStat 28 24 0).setFlag Reg.ceStat 23
      (s.loadOpened src).store.factoryUsed).setReg Reg.ceProg 0 := rfl

/-- A load from a source begins, with nothing else changed. -/
theorem loadOpened_startKept (s : State) (src : Nat) :
    StartKept { s with load := some (Load.start none src 0) } (s.loadOpened src) := by
  have hfound := slotsFound_startKept s
  have hload : StartKept { s with load := some (Load.start none src 0) }
      { s.slotsFound with load := some (Load.start none src 0), devIn := s.slotsFound.dev } :=
    ⟨hfound.reads, hfound.seq, hfound.spad, hfound.hbm, hfound.pkg, hfound.fabId, hfound.dev, rfl, hfound.sel, hfound.record,
      hfound.factoryUsed⟩
  unfold loadOpened
  dsimp only
  refine StartKept.trans (StartKept.trans (StartKept.trans (hload.trans ?_)
    (StartKept.setFld (not_startReads_of_offset (o := 0x20004) (by decide) (by decide)) _ _ _ _))
    (StartKept.setFld (not_startReads_of_offset (o := 0x20004) (by decide) (by decide)) _ _ _ _))
    (StartKept.setFlag (not_startReads_of_offset (o := 0x10034) (by decide) (by decide)) _ _ _)
  exact StartKept.of_regs rfl rfl rfl rfl rfl rfl rfl rfl rfl rfl rfl

end State

end Sys2Proof.Machine
end

section
/-! PROOFS. Resets of the device settled (R51, R257, R351, R369, R397, R575). -/

namespace Sys2Proof.Machine

namespace State

variable {s s' s'' : State}

/-! ### The load that starts (R369, R370) -/

theorem StartKept.setReg_both (h : StartKept s s') (k : Nat) (v : BitVec 32) : StartKept (s.setReg k v) (s'.setReg k v) where
  reads j hj := by rw [reg_setReg, reg_setReg, h.reads j hj]
  seq := h.seq
  spad := h.spad
  hbm := h.hbm
  pkg := h.pkg
  fabId := h.fabId
  dev := h.dev
  load := h.load
  sel := h.sel
  record := h.record
  factoryUsed := h.factoryUsed

theorem StartKept.setFld_both (h : StartKept s s') {k : Nat} (hk : startReads k) (hi lo v : Nat) :
    StartKept (s.setFld k hi lo v) (s'.setFld k hi lo v) := by
  rw [State.setFld, State.setFld, h.reads k hk]
  exact h.setReg_both k _

/-- The state with a load begun, and said so in CE_STAT. -/
def loadMarked (s : State) (src : Nat) : State :=
  ((({ s with load := some (Load.start none src 0) } : State).setFld Reg.ceStat 31 29 0).setFld Reg.ceStat 28 24 0).setFld Reg.ceStat 23 23
    (b2n s.store.factoryUsed)

theorem loadStart_startKept (s : State) (src : Nat) : StartKept (s.loadMarked src) (s.loadStart src) := by
  have hce : startReads Reg.ceStat := Or.inr (Or.inr (Or.inl rfl))
  have hopen := loadOpened_startKept s src
  rw [loadStart_eq, hopen.factoryUsed]
  exact ((((hopen.trans (applyRepairMap_startKept _)).setFld_both hce 31 29 0).setFld_both hce 28 24 0).setFld_both hce 23 23
    (b2n s.store.factoryUsed)).trans (StartKept.setReg (not_startReads_of_offset (o := 0x10) (by decide) (by decide)) _ _)

theorem loadMarked_frame (s : State) (src : Nat) :
    ∃ r, s.loadMarked src = { s with load := some (Load.start none src 0), regs := r } := ⟨_, rfl⟩

theorem loadMarked_reg_other (s : State) (src : Nat) {k : Nat} (hk : k ≠ Reg.ceStat) : (s.loadMarked src).reg k = s.reg k := by
  rw [loadMarked, reg_setFld_other _ hk, reg_setFld_other _ hk, reg_setFld_other _ hk]
  exact reg_of_regs rfl k

theorem loadMarked_ceStat (s : State) (src : Nat) : (s.loadMarked src).fld Reg.ceStat 31 29 = 0 ∧
    (s.loadMarked src).flag Reg.ceStat 23 = s.store.factoryUsed := by
  constructor
  · rw [loadMarked, fld_setFld_other _ _ _ _ _ _ _ (by decide) (by decide), fld_setFld_other _ _ _ _ _ _ _ (by decide) (by decide),
      fld_setFld _ _ _ _ _ (by decide) (by decide)]
    rfl
  · exact flag_setFlag _ _ _ _ (by decide)

/-! ### Copies that give way, one by one (R351) -/

theorem copyLost_directory (s : State) :
    (s.copyLost ⟨.directory, true⟩).store.dir = s.store.dirPrev.getD s.store.dir := by
  unfold copyLost
  dsimp only
  cases s.store.dirPrev <;> rfl

theorem copyLost_record (s : State) :
    (s.copyLost ⟨.record, true⟩).store.record = s.store.recordPrev.getD s.store.record := by
  unfold copyLost
  dsimp only
  cases s.store.recordPrev <;> rfl

theorem copyLost_repairMap (s : State) : (s.copyLost ⟨.repairMap, true⟩).dev = s.store.mapPrev.getD s.store.factoryMap ∧
    (s.copyLost ⟨.repairMap, true⟩).store.factoryUsed = (s.store.factoryUsed || s.store.mapPrev.isNone) := by
  unfold copyLost
  dsimp only
  cases s.store.mapPrev <;> simp

/-! ### The end of a reset -/

/-- The device just out of reset, before the copies of the store's regions are read. -/
def outOfReset (s : State) (awl : Bool) : State :=
  { s.deviceReset true awl with pkg := { (s.deviceReset true awl).pkg with por := false, awl := false, pwrgd := true } }

theorem resetEnd_eq (s : State) (awl : Bool) (lost : List LostCopy) : s.resetEnd awl lost =
    State.loadStart { (s.outOfReset awl).readCopies lost with fabId := ((s.outOfReset awl).readCopies lost).store.record.id }
      ((s.outOfReset awl).readCopies lost).loadSource := rfl

theorem outOfReset_frame (s : State) (awl : Bool) : ∃ r, s.outOfReset awl =
    { s.resetBase true with regs := r, pkg := { s.pkg with por := false, awl := false, pwrgd := true } } := by
  obtain ⟨r, hr⟩ := s.deviceReset_frame true awl
  exact ⟨r, by rw [outOfReset, hr]; rfl⟩

theorem outOfReset_reg (s : State) (awl : Bool) {k : Nat} (hk : k ∉ keptRegs true awl) : (s.outOfReset awl).reg k = resetWord k :=
  (reg_of_regs rfl k).trans (s.deviceReset_reg true awl hk)

theorem outOfReset_sprAge (s : State) (awl : Bool) {i : Nat} (hi : i < 64) :
    (s.outOfReset awl).reg (Reg.sprAge i) = s.reg (Reg.sprAge i) :=
  (reg_of_regs rfl _).trans (s.deviceReset_sprAge true awl hi)

/-- Out of reset CE_CTRL names no source, and the device is not halted. -/
theorem outOfReset_idle (s : State) (awl : Bool) :
    (s.outOfReset awl).fld Reg.ceCtrl 30 29 = 0 ∧ (s.outOfReset awl).flag Reg.dbgStat 31 = false := by
  have hce : Reg.ceCtrl ∉ keptRegs true awl := by cases awl <;> decide
  have hdbg : Reg.dbgStat ∉ keptRegs true awl := by cases awl <;> decide
  rw [fld, flag, s.outOfReset_reg awl hce, s.outOfReset_reg awl hdbg]
  decide

/-- A reset of state s has ended in t: a load has begun from the slot that the boot selection names. u is the device out of reset with
the lost copies of the store's regions given way. -/
structure ResetEnded (s u t : State) : Prop where
  pkg : t.pkg = { s.pkg with por := false, awl := false, pwrgd := true }
  load : t.load = some (Load.start none (if t.store.dir.sel then 2 else 1) 0)
  seq : t.seq = Seq.reset
  halted : t.flag Reg.dbgStat 31 = false
  state : t.fld Reg.ceStat 31 29 = 0
  factory : t.flag Reg.ceStat 23 = u.store.factoryUsed
  spad : t.spad = s.spad
  hbm : t.hbm = s.hbm
  ages : ∀ i, i < 64 → t.reg (Reg.sprAge i) = s.reg (Reg.sprAge i)
  dev : t.dev = u.dev
  sel : t.store.dir.sel = u.store.dir.sel
  fabId : t.fabId = u.store.record.id

theorem ResetEnded.startKept {u t t' : State} (h : ResetEnded s u t) (hk : StartKept t t') : ResetEnded s u t' where
  pkg := hk.pkg.trans h.pkg
  load := by rw [hk.load, h.load, hk.sel]
  seq := hk.seq.trans h.seq
  halted := by rw [flag, hk.reads _ (Or.inl rfl), ← flag, h.halted]
  state := by rw [fld, hk.reads _ (Or.inr (Or.inr (Or.inl rfl))), ← fld, h.state]
  factory := by rw [flag, hk.reads _ (Or.inr (Or.inr (Or.inl rfl))), ← flag, h.factory]
  spad := hk.spad.trans h.spad
  hbm := hk.hbm.trans h.hbm
  ages i hi := by rw [hk.reads _ (Or.inr (Or.inr (Or.inr ⟨i, hi, rfl⟩))), h.ages i hi]
  dev := hk.dev.trans h.dev
  sel := hk.sel.trans h.sel
  fabId := hk.fabId.trans h.fabId

theorem resetEnd_ended (s : State) (awl : Bool) (lost : List LostCopy) :
    ResetEnded s ((s.outOfReset awl).copiesGive lost) (s.resetEnd awl lost) := by
  obtain ⟨r, ho⟩ := s.outOfReset_frame awl
  obtain ⟨d, st, hu, -⟩ := (s.outOfReset awl).copiesGive_frame lost
  have hv := readCopies_startKept (s.outOfReset awl) lost
  have hreads : ∀ k, startReads k → ((s.outOfReset awl).readCopies lost).reg k = (s.outOfReset awl).reg k := fun k hk =>
    (hv.reads k hk).trans (by rw [hu]; exact reg_of_regs rfl k)
  obtain ⟨hce, hdbg⟩ := s.outOfReset_idle awl
  rw [resetEnd_eq]
  refine ResetEnded.startKept ?_ (loadStart_startKept _ _)
  generalize (s.outOfReset awl).readCopies lost = v at *
  have hsrc : v.loadSource = if v.store.dir.sel then 2 else 1 := by
    rw [loadSource, fld, hreads _ (Or.inr (Or.inl rfl)), ← fld, hce]
    rfl
  obtain ⟨rg, hm⟩ := loadMarked_frame { v with fabId := v.store.record.id } v.loadSource
  obtain ⟨h31, h23⟩ := loadMarked_ceStat { v with fabId := v.store.record.id } v.loadSource
  have hreg : ∀ k, startReads k → k ≠ Reg.ceStat →
      (loadMarked { v with fabId := v.store.record.id } v.loadSource).reg k = (s.outOfReset awl).reg k := fun k hk hn =>
    (loadMarked_reg_other _ _ hn).trans ((reg_of_regs rfl k).trans (hreads k hk))
  refine ⟨?_, ?_, ?_, ?_, h31, ?_, ?_, ?_, fun i hi => ?_, ?_, ?_, ?_⟩
  · rw [hm]; exact hv.pkg.trans (by rw [hu, ho])
  · rw [hm, ← hsrc]
  · rw [hm]; exact hv.seq.trans (by rw [hu, ho]; rfl)
  · rw [flag, hreg _ (Or.inl rfl) (by decide), ← flag, hdbg]
  · rw [h23]; exact hv.factoryUsed
  · rw [hm]; exact hv.spad.trans (by rw [hu, ho]; rfl)
  · rw [hm]; exact hv.hbm.trans (by rw [hu, ho]; rfl)
  · rw [hreg _ (Or.inr (Or.inr (Or.inr ⟨i, hi, rfl⟩))) (by unfold Reg.sprAge Reg.ceStat; omega), s.outOfReset_sprAge awl hi]
  · rw [hm]; exact hv.dev
  · rw [hm]; exact hv.sel
  · rw [hm]; exact congrArg DevRecord.id hv.record

/-- The copies that give way change the store and the device only, which out of reset are those of before (R351). -/
theorem outOfReset_store (s : State) (awl : Bool) :
    (s.outOfReset awl).store = { s.store with op := none } ∧ (s.outOfReset awl).dev = s.dev := by
  obtain ⟨r, ho⟩ := s.outOfReset_frame awl
  rw [ho]
  exact ⟨rfl, rfl⟩

/-- What state t shows of the end of a reset of state s, lost copies of the store's regions given way. -/
def EndsIn (s t : State) (lost : List LostCopy) : Prop :=
  t.pkg = { s.pkg with por := false, awl := false, pwrgd := true } ∧
    t.load = some (Load.start none (if t.store.dir.sel then 2 else 1) 0) ∧ t.seq = Seq.reset ∧ t.seqState = 0 ∧
    t.fld Reg.ceStat 31 29 = 0 ∧ t.spad = s.spad ∧ t.hbm = s.hbm ∧ (∀ i, i < 64 → t.reg (Reg.sprAge i) = s.reg (Reg.sprAge i)) ∧
    t.dev = (if LostCopy.mk .repairMap true ∈ lost then t.dev else s.dev) ∧
    (lost = [] → t.store.dir.sel = s.store.dir.sel ∧ t.fabId = s.store.record.id) ∧
    (lost = [⟨.directory, true⟩] → t.store.dir.sel = (s.store.dirPrev.getD s.store.dir).sel) ∧
    (lost = [⟨.record, true⟩] → t.fabId = (s.store.recordPrev.getD s.store.record).id) ∧
    (lost = [⟨.repairMap, true⟩] → t.dev = s.store.mapPrev.getD s.store.factoryMap ∧
      t.flag Reg.ceStat 23 = (s.store.factoryUsed || s.store.mapPrev.isNone))

theorem ResetEnded.endsIn {awl : Bool} {lost : List LostCopy} {t : State} (h : ResetEnded s ((s.outOfReset awl).copiesGive lost) t) :
    s.EndsIn t lost := by
  obtain ⟨hstore, hdev⟩ := s.outOfReset_store awl
  refine ⟨h.pkg, h.load, h.seq, ?_, h.state, h.spad, h.hbm, h.ages, ?_, ?_, ?_, ?_, ?_⟩
  · rw [seqState, h.seq, h.halted]
    rfl
  · split
    · rfl
    · next hn =>
      obtain ⟨d, st, hu, hd⟩ := (s.outOfReset awl).copiesGive_frame lost
      rw [h.dev, hu]
      exact (hd hn).trans hdev
  · rintro rfl
    have hu : (s.outOfReset awl).copiesGive [] = s.outOfReset awl := rfl
    rw [h.sel, h.fabId, hu, hstore]
    exact ⟨rfl, rfl⟩
  · rintro rfl
    rw [h.sel, copiesGive_singleton, copyLost_directory, hstore]
  · rintro rfl
    rw [h.fabId, copiesGive_singleton, copyLost_record, hstore]
  · rintro rfl
    obtain ⟨hd, hf⟩ := copyLost_repairMap (s.outOfReset awl)
    rw [h.dev, h.factory, copiesGive_singleton, hd, hf, hstore]
    exact ⟨rfl, rfl⟩

/-- At the end of an awl reset every stack leaves self-refresh (R257). -/
theorem awlEnd_endsIn (s : State) (lost : List LostCopy) (ha : s.pkg.awl = true) : s.EndsIn (s.awlEnd lost) lost := by
  unfold awlEnd
  rw [if_pos ha]
  refine ((s.resetEnd_ended true lost).startKept (StartKept.foldl _ _ (fun u m _ => ?_) _)).endsIn
  split
  · exact StartKept.setFld (not_startReads_mcStat m) u _ _ _
  · exact StartKept.refl

theorem porEnd_endsIn (s : State) (acks : BitVec 4) (lost : List LostCopy) (hp : s.pkg.por = true) (hv : s.pkg.vaon = true) :
    s.EndsIn (s.porEnd acks lost) lost := by
  unfold porEnd nacks
  rw [hp, hv]
  refine ((s.resetEnd_ended false lost).startKept (StartKept.foldl _ _ (fun u k _ => ?_) _)).endsIn
  split
  · exact StartKept.refl
  · exact record_startKept u _ _ _ _ _ _ _

/-! ### The beginnings of the resets (R483, R575) -/

/-- What state t shows of a power-on reset of state s. -/
def ColdIn (s t : State) (pwrgd : Bool) (cause : Nat) : Prop :=
  s.CleanAfter t ageRegs ∧ (∀ i, i < 64 → t.reg (Reg.sprAge i) = s.reg (Reg.sprAge i)) ∧ t.hbm = [] ∧ t.hbmBad = [] ∧
    t.spad = s.spad ∧ t.ledger = [] ∧ t.overt = false ∧ t.pkg =
      Pkg.mk s.pkg.vaon pwrgd true false (if s.pkg.overtPin then 4 else cause) 0 false s.pkg.straps none [] none none

theorem keptRegs_cold : keptRegs false false = ageRegs := by
  unfold keptRegs
  rw [if_neg (by decide), if_neg (by decide), List.append_nil, List.append_nil]

/-- A power-on reset loses the HBM, the requests of its controllers and the over-temperature hold. -/
def porCut (s : State) : State :=
  { s with hbm := [], hbmBad := [], mcs := tmap (fun _ => Mc.empty) (fun x => { x with queue := [], ready := [] }) s.mcs, overt := false }

theorem porBegin_eq (s : State) (cause : Nat) (pwrgd : Bool) : s.porBegin cause pwrgd =
    { s.porCut.deviceReset false false with
      pkg := { (s.porCut.deviceReset false false).pkg with
        por := true, awl := false, pwrgd := pwrgd, cause := if s.pkg.overtPin then 4 else cause, awlN := 0, overtPin := false, smb := none,
        awlOut := [], awlWant := none, awlPart := none } } := rfl

theorem porCut_reg (s : State) (k : Nat) : s.porCut.reg k = s.reg k := rfl

theorem cleanAfter_porCut (s t : State) (ks : List Nat) : s.porCut.CleanAfter t ks ↔ s.CleanAfter t ks := Iff.rfl

theorem reg_with_pkg (s : State) (p : Pkg) (k : Nat) : ({ s with pkg := p } : State).reg k = s.reg k := rfl

theorem porBegin_reg (s : State) (cause : Nat) (pwrgd : Bool) (k : Nat) :
    (s.porBegin cause pwrgd).reg k = (s.porCut.deviceReset false false).reg k := by
  rw [porBegin_eq]
  exact reg_with_pkg (s.porCut.deviceReset false false) _ k

theorem porBegin_coldIn (s : State) (cause : Nat) (pwrgd : Bool) : s.ColdIn (s.porBegin cause pwrgd) pwrgd cause := by
  obtain ⟨r, hr⟩ := s.porCut.deviceReset_frame false false
  refine ⟨?_, fun i hi => ?_, ?_⟩
  · rw [porBegin_eq, ← keptRegs_cold]
    exact (cleanAfter_porCut s _ _).mp (s.porCut.deviceReset_clean false false _)
  · rw [porBegin_reg, s.porCut.deviceReset_sprAge false false hi, porCut_reg]
  · rw [porBegin_eq, hr]
    exact ⟨rfl, rfl, rfl, rfl, rfl, rfl⟩

/-! ### An awl reset (R483) -/

theorem awlBegin_of_up (hr : s.inReset = false) (hv : s.pkg.vaon = true) : s.awlBegin =
    { s.cutWrites.deviceReset true true with
      pkg := { (s.cutWrites.deviceReset true true).pkg with
        awl := true, cause := 3, awlN := (s.cutWrites.deviceReset true true).pkg.awlN + 1, awlOut := [], awlWant := none,
        awlPart := none } } := by
  unfold awlBegin
  rw [hr, hv]
  rfl

theorem awlBegin_of_down (h : s.inReset = true ∨ s.pkg.vaon = false) : s.awlBegin = s := by
  unfold awlBegin
  rcases h with h | h <;> simp [h]

/-- What state t shows of an awl reset of state s. -/
def WarmIn (s t : State) : Prop :=
  s.CleanAfter t (keptRegs true true) ∧ (∀ i, i < 64 → t.reg (Reg.sprAge i) = s.reg (Reg.sprAge i)) ∧ t.spad = s.spad ∧
    t.ledger = s.ledger ∧ (∀ y, ¬ s.inCutWrite y → Memory.get t.hbm y = Memory.get s.hbm y) ∧
    t.reg Reg.sprLgWr = s.reg Reg.sprLgWr ∧ t.fld Reg.dbgAwl 29 27 = s.fld Reg.dbgAwl 29 27 ∧
    t.pkg = { s.pkg with awl := true, cause := 3, awlN := s.pkg.awlN + 1, awlOut := [], awlWant := none, awlPart := none }

theorem keptRegs_warm : keptRegs true true = (List.range 64).map Reg.sprAge ++ [Reg.sprLgWr, Reg.sprLgRd, Reg.sprLgLost, Reg.dbgAwl] ++
    (List.range 6).map Reg.mcGeom ++ (List.range 6).map Reg.mcStat := by
  simp only [keptRegs, ledgerRegs, awlRegs, ageRegs, if_true, List.append_assoc, List.cons_append, List.nil_append]

theorem awlBegin_warmIn (hr : s.inReset = false) (hv : s.pkg.vaon = true) : s.WarmIn s.awlBegin := by
  obtain ⟨⟨m, b, f, hcut⟩, hkept⟩ := s.cutWrites_hbmCut
  have hregs : ∀ k, s.cutWrites.reg k = s.reg k := fun k => reg_of_regs (by rw [hcut]) k
  obtain ⟨r, hd⟩ := s.cutWrites.deviceReset_frame true true
  obtain ⟨hwr, hfails⟩ := (s.cutWrites.resetBase true).keepRegs_awl s.cutWrites
  rw [← deviceReset_eq] at hwr hfails
  have hclean := s.cutWrites.deviceReset_clean true true { (s.cutWrites.deviceReset true true).pkg with
        awl := true, cause := 3, awlN := (s.cutWrites.deviceReset true true).pkg.awlN + 1, awlOut := [], awlWant := none,
        awlPart := none }
  rw [← awlBegin_of_up hr hv] at hclean
  have hreg : ∀ k, s.awlBegin.reg k = (s.cutWrites.deviceReset true true).reg k := fun k =>
    reg_of_regs (by rw [awlBegin_of_up hr hv]) k
  refine ⟨?_, fun i hi => ?_, ?_, ?_, fun y hy => ?_, ?_, ?_, ?_⟩
  · rw [hcut] at hclean
    exact hclean
  · rw [hreg, s.cutWrites.deviceReset_sprAge true true hi, hregs]
  · rw [awlBegin_of_up hr hv, hd, hcut]
    rfl
  · rw [awlBegin_of_up hr hv, hd, hcut]
    rfl
  · rw [awlBegin_of_up hr hv, hd]
    exact hkept y hy
  · rw [hreg, hwr, hregs]
  · rw [fld, hreg, ← fld, hfails, fld, hregs, ← fld]
  · rw [awlBegin_of_up hr hv, hd, hcut]
    rfl

/-! ### VAON (R554, R559, R574, R575) -/

theorem porEnd_of_down (acks : BitVec 4) (lost : List LostCopy) (h : s.pkg.por = false ∨ s.pkg.vaon = false) : s.porEnd acks lost = s := by
  unfold porEnd
  rcases h with h | h <;> simp [h]

/-- What state t shows of a loss of VAON in state s. -/
def DarkIn (s t : State) : Prop :=
  t.pkg.vaon = false ∧ t.pkg.por = true ∧ s.CleanAfter t [] ∧ (∀ a, Memory.get t.spad a = 0) ∧ (∀ a, Memory.get t.hbm a = 0) ∧
    t.ledger = []

theorem vaonLoss_darkIn (hv : s.pkg.vaon = true) : s.DarkIn s.vaonLoss := by
  obtain ⟨⟨-, hclean⟩, -, hhbm, -, -, hledger, -, hpkg⟩ := s.porBegin_coldIn 1 false
  unfold vaonLoss
  rw [if_pos hv]
  generalize s.porBegin 1 false = r at *
  refine ⟨rfl, ?_, ⟨fun k _ => rfl, hclean⟩, fun a => rfl, fun a => ?_, hledger⟩
  · exact congrArg Pkg.por hpkg
  · have h0 : Memory.get r.hbm a = 0 := by rw [hhbm]; rfl
    exact h0

end State

theorem exec_awlReset (s : State) : exec .awlReset s = .next s.awlBegin := rfl
theorem exec_awlResetEnd (s : State) : exec .awlResetEnd s =
    .next (if s.pkg.awl then { s with free := s.free + 1 }.awlEnd (State.lostCopies s.drawn) else s) := rfl
theorem exec_powerOnReset (s : State) : exec .powerOnReset s = .next (s.porBegin 1 false) := rfl
theorem exec_undervoltage (rail : Nat) (s : State) : exec (.undervoltage rail) s =
    .next (if rail < 6 && s.pkg.pwrgd && !s.pkg.por then s.porBegin 2 true else s) := rfl
theorem exec_powerOnResetEnd (acks : BitVec 4) (lost : List LostCopy) (s : State) :
    exec (.powerOnResetEnd ⟨acks, lost⟩) s = .next (s.porEnd acks lost) := rfl
theorem exec_vaonLoss (s : State) : exec .vaonLoss s = .next s.vaonLoss := rfl
theorem exec_vaonRise (straps : Nat) (s : State) : exec (.vaonRise straps) s = .next (s.vaonRise straps) := rfl

end Sys2Proof.Machine

open Sys2Proof Sys2Proof.Machine

/-- Settles O57: `State.WarmIn`, `State.ColdIn` and `State.DarkIn` are what an awl reset, a power-on reset and a loss of VAON leave,
`State.EndsIn` what the end of a reset leaves. -/
theorem resetsOfTheDevice : Obligations.ResetsOfTheDevice := by
  intro s kept clean ages ended cold cuts
  refine ⟨fun hr hv => ?awl, fun h => ?noAwl, fun ha => ?awlEnd, fun ha => ?noAwlEnd, ?por,
    fun rail => ⟨fun hr hp hn => ?low, fun h => ?noLow⟩, fun acks lost => ⟨fun hp hv => ?porEnd, fun h => ?noPorEnd⟩, fun hv => ?vaon,
    fun hv => ?noVaon, fun straps => ⟨fun hv => ?noRise, fun hv => ?rise⟩⟩
  case awl =>
    obtain ⟨⟨hregs, hclean⟩, hwarm⟩ := State.awlBegin_warmIn hr hv
    refine ⟨_, exec_awlReset s, ⟨fun k hk => hregs k fun hm => hk ?_, hclean⟩, hwarm⟩
    rwa [State.keptRegs_warm] at hm
  case noAwl => rw [exec_awlReset, State.awlBegin_of_down h]
  case awlEnd =>
    rw [exec_awlResetEnd, if_pos ha]
    exact ⟨_, rfl, State.awlEnd_endsIn { s with free := s.free + 1 } _ ha⟩
  case noAwlEnd => rw [exec_awlResetEnd, if_neg (by rw [ha]; decide)]
  case por => exact ⟨_, exec_powerOnReset s, s.porBegin_coldIn 1 false⟩
  case low =>
    rw [exec_undervoltage, if_pos (by simp [hr, hp, hn])]
    exact ⟨_, rfl, s.porBegin_coldIn 2 true⟩
  case noLow =>
    rw [exec_undervoltage, if_neg ?_]
    rcases h with h | h | h
    · simp [Nat.not_lt.mpr h]
    · simp [h]
    · simp [h]
  case porEnd => exact ⟨_, exec_powerOnResetEnd acks lost s, s.porEnd_endsIn acks lost hp hv⟩
  case noPorEnd => rw [exec_powerOnResetEnd, State.porEnd_of_down acks lost h]
  case vaon => exact ⟨_, exec_vaonLoss s, State.vaonLoss_darkIn hv⟩
  case noVaon =>
    rw [exec_vaonLoss, State.vaonLoss, hv]
    rfl
  case noRise =>
    rw [exec_vaonRise, State.vaonRise, hv]
    rfl
  case rise =>
    rw [exec_vaonRise, State.vaonRise, hv]
    exact ⟨_, rfl, rfl, rfl⟩
end

section
/-! PROOFS. The results of BPs from their tables (R57) and of the WUs' sums and differences with their carries (R108, R109). -/

namespace Sys2Proof.Machine

/-! ### The table of a BP -/

theorem numOf_four (b : Nat → Bool) : numOf b 4 = b2n (b 0) + 2 * b2n (b 1) + 4 * b2n (b 2) + 8 * b2n (b 3) := by
  simp only [numOf]
  omega

/-- A BP outside MUXC mode takes the bit of its table that its operands select (R57, R81). -/
theorem bpResult_of_table {x : Cluster} {e : BpEnv} {p : Nat} (h : (bpWord x e p).getLsbD 7 = false) :
    bpResult x e p = (bpWord x e p).getLsbD (64 + numOf (bpOperand x e p) 4) := by
  have hm : inMux x e p = false := by rw [inMux, h, Bool.and_false]
  rw [bpResult, hm, if_neg Bool.false_ne_true]

/-! ### Sums and differences modulo N -/

/-- A number below 2N, modulo N, is the number less N times its carry. -/
theorem mod_eq_sub_carry {x N : Nat} (h : x < 2 * N) : ((x % N : Nat) : Int) = x - N * b2n (decide (N ≤ x)) := by
  by_cases hc : N ≤ x
  · rw [Nat.mod_eq_sub_mod hc, Nat.mod_eq_of_lt (by omega), decide_eq_true hc]
    simp only [b2n, if_true]
    omega
  · rw [Nat.mod_eq_of_lt (by omega), decide_eq_false hc]
    simp [b2n]

/-- A difference modulo N is the difference plus N times its borrow. -/
theorem sub_mod_eq_add_borrow {a b N : Nat} (ha : a < N) (hb : b ≤ N) :
    (((a + N - b) % N : Nat) : Int) = a - b + N * b2n (decide (a < b)) := by
  rw [mod_eq_sub_carry (by omega)]
  by_cases hc : a < b
  · rw [decide_eq_true hc, decide_eq_false (by omega : ¬ N ≤ a + N - b)]
    simp only [b2n, if_true, Bool.false_eq_true, if_false]
    omega
  · rw [decide_eq_false hc, decide_eq_true (by omega : N ≤ a + N - b)]
    simp only [b2n, if_true, Bool.false_eq_true, if_false]
    omega

/-! ### ADD, ADC, SUB, SBB on n bits (R108, R109) -/

theorem b2n_le_one (c : Bool) : b2n c ≤ 1 := by cases c <;> decide

section

variable {n a b : Nat} (c : Bool) (ha : a < 2 ^ n) (hb : b < 2 ^ n)
include ha hb

theorem arithOp_add : ((arithOp 1 n c a b).1 : Int) = a + b - 2 ^ n * b2n (decide (2 ^ n ≤ a + b)) := by
  have h := mod_eq_sub_carry (x := a + b) (N := 2 ^ n) (by omega)
  push_cast at h
  exact h

theorem arithOp_adc : ((arithOp 2 n c a b).1 : Int) = a + b + b2n c - 2 ^ n * b2n (decide (2 ^ n ≤ a + b + b2n c)) := by
  have hc := b2n_le_one c
  have h := mod_eq_sub_carry (x := a + b + b2n c) (N := 2 ^ n) (by omega)
  push_cast at h
  exact h

theorem arithOp_sub : ((arithOp 3 n c a b).1 : Int) = a - b + 2 ^ n * b2n (decide (a < b)) := by
  have h := sub_mod_eq_add_borrow ha hb.le
  push_cast at h
  exact h

theorem arithOp_sbb : ((arithOp 4 n c a b).1 : Int) = a - b - b2n c + 2 ^ n * b2n (decide (a < b + b2n c)) := by
  have hc := b2n_le_one c
  have hx : a + 2 ^ (n + 1) - b - b2n c = a + 2 ^ n - (b + b2n c) + 2 ^ n := by
    rw [Nat.pow_succ]
    omega
  have h := sub_mod_eq_add_borrow ha (by omega : b + b2n c ≤ 2 ^ n)
  rw [← Nat.add_mod_right, ← hx] at h
  push_cast at h
  rw [← sub_sub] at h
  exact h

end

theorem arithOp_lt (op n : Nat) (c : Bool) (a b : Nat) : (arithOp op n c a b).1 < 2 ^ n := by
  unfold arithOp
  split <;> exact Nat.mod_lt _ (Nat.two_pow_pos n)

theorem wWidth_le (w : BitVec 128) : wWidth w ≤ 64 := Nat.div_le_self _ _

/-- The operands of a word's arithmetic, on the word's width (R107). -/
def arithA (u : Wu) (w : BitVec 128) : Nat := (u.reg (wRa w)).toNat % 2 ^ wWidth w
def arithB (u : Wu) (w : BitVec 128) : Nat := (wOperandB u w).toNat % 2 ^ wWidth w

/-- The value and the carry of ADD, ADC, SUB and SBB are those of `arithOp` on the word's width; i is that value. -/
theorem wuResult_arith (u : Wu) (w : BitVec 128) (lat : Nat) (cast peer got popped : BitVec 64) (lanes : List (Option (BitVec 8)))
    {op : Nat} (hop : op ∈ [1, 2, 3, 4]) (h : wOp w = op) {i : Int}
    (hi : ((arithOp op (wWidth w) u.c (arithA u w) (arithB u w)).1 : Int) = i) :
    ∃ v, (wuResult u w lat cast lanes peer got popped).val = some v ∧ v.toNat < 2 ^ wWidth w ∧
      (wuResult u w lat cast lanes peer got popped).carry = some (arithOp op (wWidth w) u.c (arithA u w) (arithB u w)).2 ∧
      (v.toNat : Int) = i := by
  have hlt := arithOp_lt op (wWidth w) u.c (arithA u w) (arithB u w)
  have hr : wuResult u w lat cast lanes peer got popped =
      { val := some (BitVec.ofNat 64 (arithOp op (wWidth w) u.c (arithA u w) (arithB u w)).1), lat := 1,
        carry := some (arithOp op (wWidth w) u.c (arithA u w) (arithB u w)).2 } := by
    simp only [List.mem_cons, List.not_mem_nil, or_false] at hop
    rcases hop with rfl | rfl | rfl | rfl <;> simp only [wuResult, arithA, arithB, h]
  have hv : (BitVec.ofNat 64 (arithOp op (wWidth w) u.c (arithA u w) (arithB u w)).1).toNat = _ :=
    Nat.mod_eq_of_lt (hlt.trans_le (Nat.pow_le_pow_right (by decide) (wWidth_le w)))
  rw [hr]
  exact ⟨_, rfl, by rwa [hv], rfl, by rw [hv, hi]⟩

end Sys2Proof.Machine

open Sys2Proof Sys2Proof.Machine

/-- Settles O11: `bpResult_of_table`, and for the WUs `wuResult_arith` with the value of each operation. -/
theorem bpResultIsTheTableBit : Obligations.BpResultIsTheTableBit := by
  refine ⟨fun x e p h => ?table, fun u w lat cast peer got popped lanes => ?wu⟩
  case table => rw [bpResult_of_table h, numOf_four, ← Nat.add_assoc, ← Nat.add_assoc, ← Nat.add_assoc]
  case wu =>
    have ha : arithA u w < 2 ^ wWidth w := Nat.mod_lt _ (Nat.two_pow_pos _)
    have hb : arithB u w < 2 ^ wWidth w := Nat.mod_lt _ (Nat.two_pow_pos _)
    have hr {op : Nat} := wuResult_arith u w lat cast peer got popped lanes (op := op)
    exact ⟨fun h => hr (by decide) h (arithOp_add u.c ha hb), fun h => hr (by decide) h (arithOp_adc u.c ha hb),
      fun h => hr (by decide) h (arithOp_sub u.c ha hb), fun h => hr (by decide) h (arithOp_sbb u.c ha hb)⟩
end

section
/-! PROOFS. Accesses to a cluster's stores: an engine beyond the sixteen. The statement bounds tile, row and column but not the engine
that writes, and SS_ENG_e of an engine that does not exist can be any register. -/

namespace Sys2Proof.Machine

theorem exec_cluAccessStart (who : Who) (t row col : Nat) (v : BitVec 32) (s : State) :
    exec (.cluAccessStart who t row col v) s =
      .next (s.regAccess who (Reg.cluAccCtrl t (8 * row + col)) true false (setBit v 31 true) fun s =>
        s.cluAccStart who t (8 * row + col) (setBit v 31 true)) := rfl

/-- The engine whose SS_ENG_e would stand where CLU_ACC_CTRL of cluster 0 of tile 0 stands. -/
def farEngine : Nat := (Reg.cluAccCtrl 0 0 - Reg.ssEng 0) / 4

/-- A running device; CLU_ACC_CTRL of cluster 0 of tile 0 reads 1 in bit 31, so that `farEngine` looks busy with descriptor 0, which is
a barrier task's. -/
def farBusy : State :=
  { (State.reset.setReg (Reg.cluAccCtrl 0 0) 0x80000000#32).setReg (Reg.ssDesc 0 0) 0x1000000#32 with
    seq := { Seq.reset with run := true } }

/-- CLU_ACC_CTRL for a write of flop entries 0 to 31 of BP 0 (R95). -/
def flopWrite : BitVec 32 := accCmd true 1 0 0

/-- Before the write the engine counts as one at a barrier task; the write of CLU_ACC_CTRL clears bit 31, so that the access itself
loses the promise. -/
theorem farBusy_loses :
    farBusy.barrierWriter (.engine farEngine) = true ∧ farBusy.flag Reg.seqLoss 1 = false ∧
      (farBusy.cluAccStart (.engine farEngine) 0 0 (setBit flopWrite 31 true)).flag Reg.seqLoss 1 = true := by
  decide +kernel

end Sys2Proof.Machine

open Sys2Proof Sys2Proof.Machine

/-- Refutes O14: `farBusy`, where the writer of a flop counts as a barrier task before the access but not once CLU_ACC_CTRL is written.
Only a writer that is no engine of the device (R432) can be that. -/
theorem not_clusterStoreAccesses : ¬ Obligations.ClusterStoreAccesses := by
  intro h
  obtain ⟨hstart, -⟩ := h
  have hnow : farBusy.regNow (.engine farEngine) (Reg.cluAccCtrl 0 (8 * 0 + 0)) true false (setBit flopWrite 31 true) = true := by
    decide +kernel
  have hnone : (farBusy.clu 0 (8 * 0 + 0)).acc = none := rfl
  have hok : farBusy.cluAccessOk 0 (setBit flopWrite 31 true) = true := by decide +kernel
  obtain ⟨hallowed, -⟩ := hstart farBusy (.engine farEngine) 0 0 0 flopWrite (by decide) (by decide) (by decide) hnow
  obtain ⟨t, ht, -, -, -, -, hloss, -⟩ := hallowed hnone hok
  rw [exec_cluAccessStart, State.regAccess_of_regNow _ _ hnow] at ht
  obtain rfl := Host.Outcome.next.inj ht
  obtain ⟨hbarrier, hkept, hlost⟩ := farBusy_loses
  rw [hlost, hkept, hbarrier, show bits flopWrite 29 27 = 1 by decide +kernel] at hloss
  simp at hloss
end

section
/-! PROOFS. COPY: a source outside the data spaces. The statement does not ask that the descriptor has passed the check of R429, and
the request of a COPY from the control space meets nothing that stops it. -/

namespace Sys2Proof.Machine

/-- Engine 0 has a COPY of 32 bytes in hand: from the start of the CE's window in the control space, which R424 does not allow, to byte
0 of the HBM, where 77h stands. -/
def copyOfControl : State :=
  { ((((State.reset.setFld (Reg.mcStat 0) 2 0 2).setReg (Reg.ssEng 0) 0x80000000#32).setReg (Reg.ssDesc 0 5) 0x2420#32).setReg
      (Reg.ssDesc 0 7) 0x8000#32).setReg (Reg.ssDesc 0 8) 32#32 with hbm := [(0, 0x77)] }

/-- The addresses of the COPY's only chunk. -/
def controlSrc : BitVec 48 := atChunk (copyOfControl.dpair 0 4) 0
def hbmDst : BitVec 48 := atChunk (copyOfControl.dpair 0 6) 0

theorem copyOfControl_task : copyOfControl.engTask 0 0 = some 0 ∧ (copyOfControl.dword 0 8).toNat = 32 := by decide +kernel

/-- Neither access meets anything, and the CE's window gives no words. -/
theorem copyOfControl_meets : copyOfControl.engMeets (copyOfControl.engPacket 0 0 false controlSrc) = 0 ∧
    copyOfControl.engMeets (copyOfControl.engPacket 0 0 true hbmDst) = 0 ∧ (copyOfControl.engFetch controlSrc []).2.1 = [] := by
  decide +kernel

theorem hbmDst_place : aSpace hbmDst = 2 ∧ bits hbmDst 4 0 = 0 ∧ copyOfControl.hbmFlat (aHbm hbmDst) = 0 := by decide +kernel

/-- The state that the COPY leaves. -/
def controlCopied : State :=
  copyOfControl.work 0 0 fun d => copyOfControl.engDone 0 (Eng.copy 0 d (copyOfControl.dpair d 4) (copyOfControl.dpair d 6) [] none
    ((copyOfControl.dword d 8).toNat / 32) (Eng.start copyOfControl))

theorem exec_copyOfControl : exec (.copy 0 [] none) copyOfControl = .next controlCopied := rfl

/-- The COPY leaves the destination as it was. -/
theorem controlCopied_hbm : Memory.get controlCopied.hbm 0 = 0x77 := by decide +kernel

end Sys2Proof.Machine

open Sys2Proof Sys2Proof.Machine

/-- Refutes O47: `copyOfControl`, whose COPY reads no words and leaves byte 0 of the HBM at 77h, where the statement has the zeros that
it takes for words not read. -/
theorem not_enginesMoveData : ¬ Obligations.EnginesMoveData := by
  intro h
  obtain ⟨hcopy, -⟩ := h copyOfControl 0 0 []
  obtain ⟨htask, hlen⟩ := copyOfControl_task
  obtain ⟨hread, hwrite, hwords⟩ := copyOfControl_meets
  obtain ⟨hspace, halign, hflat⟩ := hbmDst_place
  obtain ⟨-, hdone⟩ := hcopy htask hlen
  obtain ⟨t, ht, -, hstored, -⟩ := hdone hread hwrite
  obtain ⟨-, hbytes, -⟩ := hstored hspace halign
  obtain rfl := Host.Outcome.next.inj (exec_copyOfControl.symm.trans ht)
  have hzero : Memory.get controlCopied.hbm (copyOfControl.hbmFlat (aHbm hbmDst) + 0) =
      ((copyOfControl.engFetch controlSrc []).2.1.getD 0 0).extractLsb' 0 8 := hbytes 0 (by decide)
  rw [hwords, hflat, controlCopied_hbm] at hzero
  exact absurd hzero (by decide)
end

section
/-! PROOFS. Accesses to a WU's stores: an engine beyond the sixteen. As in the statement about a cluster's stores, the engine that
writes is not bounded, and SS_ENG_e of an engine that does not exist can be the very register that starts the access. -/

namespace Sys2Proof.Machine

theorem exec_wuAccessStart (who : Who) (t row col pw : Nat) (v : BitVec 32) (s : State) :
    exec (.wuAccessStart who t row col pw v) s =
      .next (s.regAccess who (Reg.cluWaccCtrl t (8 * row + col) pw) true false (setBit v 31 true) fun s =>
        s.wuAccStart who t (8 * row + col) pw (setBit v 31 true)) := rfl

/-- The engine whose SS_ENG_e would stand where CLU_WACC_CTRL of WU 0 of cluster 0 of tile 0 stands. -/
def farWuEngine : Nat := (Reg.cluWaccCtrl 0 0 0 - Reg.ssEng 0) / 4

/-- A running device; CLU_WACC_CTRL of WU 0 of cluster 0 of tile 0 reads 1 in bit 31, so that `farWuEngine` looks busy with
descriptor 0, which is a barrier task's. -/
def farWuBusy : State :=
  { (State.reset.setReg (Reg.cluWaccCtrl 0 0 0) 0x80000000#32).setReg (Reg.ssDesc 0 0) 0x1000000#32 with
    seq := { Seq.reset with run := true } }

/-- CLU_WACC_CTRL for a write of register 0 (R139). -/
def wuRegWrite : BitVec 32 := accCmd true 1 0 0

/-- Before the write the engine counts as one at a barrier task; the write of CLU_WACC_CTRL clears bit 31, so that the access itself
loses the promise. -/
theorem farWuBusy_loses :
    farWuBusy.barrierWriter (.engine farWuEngine) = true ∧ farWuBusy.flag Reg.seqLoss 1 = false ∧
      (farWuBusy.wuAccStart (.engine farWuEngine) 0 0 0 (setBit wuRegWrite 31 true)).flag Reg.seqLoss 1 = true := by
  decide +kernel

end Sys2Proof.Machine

open Sys2Proof Sys2Proof.Machine

/-- Refutes O15: `farWuBusy`, where the writer of a WU's register counts as a barrier task before the access but not once CLU_WACC_CTRL
is written. Only a writer that is no engine of the device (R432) can be that. -/
theorem not_wuStoreAccesses : ¬ Obligations.WuStoreAccesses := by
  intro h
  obtain ⟨hstart, -⟩ := h
  have hnow : farWuBusy.regNow (.engine farWuEngine) (Reg.cluWaccCtrl 0 (8 * 0 + 0) 0) true false (setBit wuRegWrite 31 true) = true := by
    decide +kernel
  have hnone : ((farWuBusy.clu 0 (8 * 0 + 0)).wu 0).acc = none := rfl
  have hok : farWuBusy.wuAccessOk 0 (setBit wuRegWrite 31 true) = true := by decide +kernel
  obtain ⟨hallowed, -⟩ := hstart farWuBusy (.engine farWuEngine) 0 0 0 0 wuRegWrite (by decide) (by decide) (by decide) (by decide) hnow
  obtain ⟨t, ht, -, -, -, -, hloss, -⟩ := hallowed hnone hok
  rw [exec_wuAccessStart, State.regAccess_of_regNow _ _ hnow] at ht
  obtain rfl := Host.Outcome.next.inj ht
  obtain ⟨hbarrier, hkept, hlost⟩ := farWuBusy_loses
  rw [hlost, hkept, hbarrier, show bits wuRegWrite 29 27 = 1 by decide +kernel] at hloss
  simp at hloss
end

section
/-! PROOFS. The join of a region: a task beyond the 1,024 descriptors. The statement takes any region job that the loader holds, and
SS_DSTAT_d of a descriptor that does not exist can be the tile's RGN_STAT. -/

namespace Sys2Proof.Machine

/-- The descriptor whose SS_DSTAT_d would stand where RGN_STAT of tile 0 stands. -/
def farDesc : Nat := (Reg.rgnStat 0 - Reg.ssDstat 0) / 4

/-- A region load of `farDesc` that joins at the midnight of cycle 0. -/
def farJob : RegionJob := { join := 0, src := 1, base := 0, desc := farDesc, drained := true, order := 0 }

/-- At midnight of cycle 0 the region of tile 0 is under reconfiguration and loaded, by `farJob`. -/
def farJoin : State :=
  { (State.reset.setFld (Reg.rgnStat 0) 31 28 0b1001).setTile 0 { Tile.empty with job := some farJob } with
    seq := { Seq.reset with midnight := true } }

theorem exec_regionSwap (t : Nat) (s : State) : exec (.regionSwap t) s = .next (s.rgnSwap t) := rfl

/-- What ends the task says DONE in place of ACTIVE: RGN_STAT.STATE reads RELOAD. -/
theorem farJoin_rgnState : (farJoin.rgnSwap 0).rgnState 0 = 2 := by decide +kernel

end Sys2Proof.Machine

open Sys2Proof Sys2Proof.Machine

/-- Refutes O45: `farJoin`, where the end of the region's task is written into RGN_STAT, so that the region that joins is not ACTIVE. Only
a task of no descriptor of the device (R423) can be that. -/
theorem not_regionsLeaveAndJoin : ¬ Obligations.RegionsLeaveAndJoin := by
  intro h
  obtain ⟨-, -, -, -, hjoin, -⟩ := h farJoin 0 (by decide)
  have hstate : farJoin.rgnState 0 = 2 := by decide +kernel
  have hloaded : farJoin.flag (Reg.rgnStat 0) 28 = true := by decide +kernel
  obtain ⟨t, ht, hactive, -⟩ := hjoin farJob rfl hstate rfl rfl hloaded rfl
  rw [exec_regionSwap] at ht
  obtain rfl := Host.Outcome.next.inj ht
  rw [farJoin_rgnState] at hactive
  exact absurd hactive (by decide)
end

section
/-! PROOFS. A response reaches a WU (R129, R137, R242): the order in which a queue returns its responses, what a code other than OK does,
and the entry at the head. -/

namespace Sys2Proof.Machine

/-- A tile stands at its node (R264). -/
theorem nodeKind_tileNode {t : Nat} (ht : t < 64) : nodeKind (tileNode t) = .tile t := by
  have hn : ¬ tileNode t ≥ 100 := by unfold tileNode; omega
  have hb : 1 ≤ tileNode t % 10 ∧ tileNode t % 10 ≤ 8 ∧ 1 ≤ tileNode t / 10 ∧ tileNode t / 10 ≤ 8 := by unfold tileNode; omega
  have hk : 8 * (tileNode t / 10 - 1) + (tileNode t % 10 - 1) = t := by unfold tileNode; omega
  simp only [nodeKind, if_neg hn, if_pos hb, hk]

/-! ### The queue of a WU -/

@[simp] theorem Wu.queue_setQueue (u : Wu) (q : Nat) (l : List QEnt) : (u.setQueue q l).queue q = l := by
  unfold Wu.setQueue Wu.queue
  split <;> rfl

namespace State

/-- An entry of a WU's queue once the interface has the response to its slot (R242): it holds what the entry is to return. -/
def answeredBy (rsp : Packet) (e : QEnt) : QEnt :=
  if e.state = 1 ∧ e.slot = some rsp.slot then
    { e with
      resp := some (rsp.resp, if !e.wr && (rsp.resp == 0 || rsp.resp == 5) then (match rsp.data with
        | w :: _ => w.setWidth 64
        | [] => 0) else 0),
      slot := none }
  else e

/-- What such an entry then returns as its data: the first 64 bits for a read that is OK or of uncorrected data (R137). -/
theorem answeredBy_of_slot {rsp : Packet} {e : QEnt} (hs : e.state = 1) (hk : e.slot = some rsp.slot) :
    answeredBy rsp e = { e with
      resp := some (rsp.resp, if e.wr = false ∧ (rsp.resp = 0 ∨ rsp.resp = 5) then (rsp.data.headD 0).setWidth 64 else 0),
      slot := none } := by
  rw [answeredBy, if_pos ⟨hs, hk⟩]
  congr 3
  refine if_congr (by simp) ?_ rfl
  cases rsp.data <;> rfl

/-- Returning responses neither adds nor drops an entry. -/
theorem length_returnInOrder (l : List QEnt) : (returnInOrder l).1.length = l.length := by
  induction l with
  | nil => rfl
  | cons e l ih =>
    unfold returnInOrder
    split
    · split
      · exact congrArg (· + 1) ih
      · rfl
    · exact congrArg (· + 1) ih

/-- An entry at the head that has its response returns it (R242). -/
theorem returnInOrder_of_answered {e : QEnt} {code : Nat} {d : BitVec 64} (hs : e.state = 1) (hr : e.resp = some (code, d))
    (l : List QEnt) : returnInOrder (e :: l) =
      ({ e with state := if code = 0 then 2 else 8 + code % 8, data := d, resp := none } :: (returnInOrder l).1,
        code :: (returnInOrder l).2) := by
  rw [returnInOrder, if_pos hs, hr]

/-! ### A code other than OK -/

theorem cluWerr_ne_seqLoss {t : Nat} (ht : t < 64) (c pw : Nat) : Reg.seqLoss ≠ Reg.cluWerr t c pw := by
  have := tileNode_bounds ht
  unfold Reg.seqLoss Reg.cluWerr
  omega

variable (s : State) (t c pw code : Nat)

theorem wuErr_onlyRegs : s.OnlyRegs (s.wuErr t c pw code) [Reg.cluWerr t c pw, Reg.seqLoss] := by
  have hwerr : s.OnlyRegs ((s.setFld (Reg.cluWerr t c pw) 31 28 (code % 8)).count (Reg.cluWerr t c pw) 7 0 1)
      [Reg.cluWerr t c pw, Reg.seqLoss] :=
    (OnlyRegs.setFld (by simp) s _ _ _).trans (OnlyRegs.setFld (by simp) _ _ _ _)
  unfold wuErr
  split
  · exact OnlyRegs.refl
  · split
    · exact hwerr
    · exact hwerr.trans (OnlyRegs.setFlag (by simp) _ _ _)

/-- A code other than OK and uncorrected loses the promise (R38). -/
theorem flag_wuErr_of_error (h0 : code ≠ 0) (h5 : code ≠ 5) : (s.wuErr t c pw code).flag Reg.seqLoss 3 = true := by
  rw [wuErr, if_neg h0]
  exact (congrArg (fun u : State => u.flag Reg.seqLoss 3) (if_neg h5)).trans (flag_setFlag _ _ _ _ (by decide))

/-- No code gives the promise back. -/
theorem flag_wuErr_of_flag {t : Nat} (ht : t < 64) (h : s.flag Reg.seqLoss 3 = true) :
    (s.wuErr t c pw code).flag Reg.seqLoss 3 = true := by
  by_cases h0 : code = 0
  · rwa [wuErr, if_pos h0]
  by_cases h5 : code = 5
  · rw [wuErr, if_neg h0, if_pos h5, flag, reg_count_other _ (cluWerr_ne_seqLoss ht c pw),
      reg_setFld_other _ (cluWerr_ne_seqLoss ht c pw)]
    exact h
  · exact s.flag_wuErr_of_error t c pw code h0 h5

/-! ### The response at its WU -/

/-- The queue of a WU with what it can return once a response is there, and the codes returned. -/
def returned (u : Wu) (rsp : Packet) : List QEnt × List Nat :=
  returnInOrder ((u.queue (if rsp.q then 1 else 0)).map (answeredBy rsp))

theorem wuRespond_eq (rsp : Packet) : s.wuRespond t c pw rsp =
    (returned ((s.clu t c).wu pw) rsp).2.foldl (fun u code => u.wuErr t c pw code)
      (s.setClu t c ((s.clu t c).setWu pw
        (((s.clu t c).wu pw).setQueue (if rsp.q then 1 else 0) (returned ((s.clu t c).wu pw) rsp).1))) := rfl

theorem wuRespond_frame (rsp : Packet) : ∃ r, s.wuRespond t c pw rsp =
    { s.setClu t c ((s.clu t c).setWu pw
        (((s.clu t c).wu pw).setQueue (if rsp.q then 1 else 0) (returned ((s.clu t c).wu pw) rsp).1)) with regs := r } := by
  rw [wuRespond_eq]
  exact ⟨_, (OnlyRegs.foldl _ _ (fun u code _ => u.wuErr_onlyRegs t c pw code) _).1⟩

theorem wuRespond_regsKept (rsp : Packet) : s.RegsKept (s.wuRespond t c pw rsp) [Reg.cluWerr t c pw, Reg.seqLoss] := by
  rw [wuRespond_eq]
  exact (OnlyRegs.foldl _ _ (fun u code _ => u.wuErr_onlyRegs t c pw code) _).2

/-- What the head of a queue is once it has returned the response to its slot (R137, R140). -/
def returnedHead (rsp : Packet) (e : QEnt) : QEnt :=
  { e with
    state := if rsp.resp = 0 then 2 else 8 + rsp.resp % 8
    data := if e.wr = false ∧ (rsp.resp = 0 ∨ rsp.resp = 5) then (rsp.data.headD 0).setWidth 64 else 0
    slot := none
    resp := none }

/-- The head of the queue returns the response to its slot; no entry leaves (R242). -/
theorem returned_of_head {rsp : Packet} {e : QEnt} {rest : List QEnt} {u : Wu} (hq : u.queue (if rsp.q then 1 else 0) = e :: rest)
    (hs : e.state = 1) (hk : e.slot = some rsp.slot) :
    ∃ l codes, returned u rsp = (returnedHead rsp e :: l, rsp.resp :: codes) ∧ l.length = rest.length := by
  have ha := answeredBy_of_slot hs hk
  refine ⟨(returnInOrder (rest.map (answeredBy rsp))).1, (returnInOrder (rest.map (answeredBy rsp))).2, ?_,
    by rw [length_returnInOrder, List.length_map]⟩
  rw [returned, hq, List.map_cons, ha]
  exact returnInOrder_of_answered (by exact hs) rfl _

/-- A code returned that is neither OK nor uncorrected loses the promise, whatever is returned with it (R38, R129). -/
theorem flag_wuRespond {t : Nat} (ht : t < 64) {rsp : Packet} (hm : code ∈ (returned ((s.clu t c).wu pw) rsp).2) (h0 : code ≠ 0)
    (h5 : code ≠ 5) : (s.wuRespond t c pw rsp).flag Reg.seqLoss 3 = true := by
  obtain ⟨l, l', hl⟩ := List.append_of_mem hm
  rw [wuRespond_eq, hl, List.foldl_append, List.foldl_cons]
  exact List.foldlRecOn (motive := fun u : State => u.flag Reg.seqLoss 3 = true) _ _ (flag_wuErr_of_error _ t c pw code h0 h5)
    fun u hu k _ => u.flag_wuErr_of_flag c pw k ht hu

/-! ### Its way there -/

/-- The state in which response f at place i has left the network, and the request under its slot has ended (R265, R279). -/
def received (i : Nat) (f : Flight) : State :=
  (s.depart i f).setMaster (tileNode t) f.pk.mid { s.master (tileNode t) f.pk.mid with
    slots := tput (fun _ => Slot.empty) f.pk.slot
      { tget (fun _ => Slot.empty) (s.master (tileNode t) f.pk.mid).slots f.pk.slot with req := none }
      (s.master (tileNode t) f.pk.mid).slots }

theorem received_frame (i : Nat) (f : Flight) :
    ∃ w m, s.received t i f = { s with net := s.net.eraseIdx i, chanWait := w, masters := m } := ⟨_, _, rfl⟩

theorem received_slot (i : Nat) (f : Flight) :
    tget (fun _ => Slot.empty) ((s.received t i f).master (tileNode t) f.pk.mid).slots f.pk.slot =
      { tget (fun _ => Slot.empty) (s.master (tileNode t) f.pk.mid).slots f.pk.slot with req := none } := by
  rw [received, master_setMaster]
  exact tget_tput_same _ _ _ _

/-- A WU's response that has its turn is delivered (R266). -/
theorem respArrive_of_turn {t i : Nat} (ht : t < 64) {f : Flight} (hf : s.net[i]? = some f) (hc : f.pk.cmd = 7)
    (hd : 10 * f.pk.dy + f.pk.dx = tileNode t) (hp : f.pos = tileNode t) (hn : s.channelNext (outOf f) f.pk.cls = true)
    (hg : s.mastersGone (tileNode t) = false) : s.respArrive i true = (s.depart i f).deliver (tileNode t) f.pk := by
  have hg' : (s.depart i f).mastersGone (tileNode t) = false := hg
  simp only [respArrive, hf, hd, nodeKind_tileNode ht, hc, hp, hn, hg', and_self, if_true, Bool.false_eq_true, if_false]

/-- A response in time, at an interface that is not frozen, ends its request and goes to the WU (R279). -/
theorem deliver_of_open {t : Nat} (ht : t < 64) (i : Nat) {f : Flight}
    (hr : (tget (fun _ => Slot.empty) (s.master (tileNode t) f.pk.mid).slots f.pk.slot).req.isSome = true)
    (hg : (tget (fun _ => Slot.empty) (s.master (tileNode t) f.pk.mid).slots f.pk.slot).gen = f.pk.gen) (hc : f.pk.resp < 8)
    (hf : (s.master (tileNode t) f.pk.mid).frozen = false) :
    (s.depart i f).deliver (tileNode t) f.pk = (s.received t i f).wuRespond t (f.pk.mid / 5) (f.pk.mid % 5) f.pk := by
  have hm : (s.depart i f).master (tileNode t) f.pk.mid = s.master (tileNode t) f.pk.mid := rfl
  simp only [deliver, hm]
  rw [if_pos ⟨hg, hr, hc⟩, if_neg (by rw [hf]; exact Bool.false_ne_true)]
  simp only [handOver, nodeKind_tileNode ht, wuOfMid]
  rfl

end State

theorem exec_hbmResponseArrival (i : Nat) (s : State) : exec (.hbmResponseArrival i) s = .next (s.respArrive i true) := rfl

end Sys2Proof.Machine

open Sys2Proof Sys2Proof.Machine

/-- Settles O20: `State.respArrive_of_turn` and `State.deliver_of_open` bring the response to the queue, whose head then is
`State.returnedHead`. -/
theorem hbmResponseReachesTheQueue : Obligations.HbmResponseReachesTheQueue := by
  intro s i t f e rest ht node c pw q x hf hcmd hdest hpos hresp hturn hgone hfrozen hreq hgen hq hstate hslot
  rw [exec_hbmResponseArrival, s.respArrive_of_turn ht hf hcmd hdest hpos hturn hgone,
    s.deliver_of_open ht i hreq hgen hresp hfrozen]
  have hq' : (((s.received t i f).clu t c).wu pw).queue q = e :: rest := hq
  obtain ⟨l, codes, hr, hlen⟩ := State.returned_of_head hq' hstate hslot
  obtain ⟨r, hframe⟩ := (s.received t i f).wuRespond_frame t c pw f.pk
  obtain ⟨w, m, hv⟩ := s.received_frame t i f
  have hmem : f.pk.resp ∈ (State.returned (((s.received t i f).clu t c).wu pw) f.pk).2 := by
    rw [hr]
    exact List.mem_cons_self
  refine ⟨_, rfl, ?_, ⟨State.returnedHead f.pk e, l, ?_, ?_, hlen, rfl⟩, ?_, (s.received t i f).wuRespond_regsKept t c pw f.pk,
    (s.received t i f).flag_wuRespond c pw _ ht hmem, fun k hk => ?_⟩
  · rw [hframe, hv]; rfl
  · rw [hframe]
    refine (congrArg (fun y : Cluster => (y.wu pw).queue q) (State.clu_setClu (s.received t i f) t c _)).trans ?_
    rw [Cluster.wu_setWu, Wu.queue_setQueue, hr]
  · rw [State.returnedHead, Nat.mod_eq_of_lt hresp]
  · rw [hframe]
    exact s.received_slot t i f
  · rw [hframe]
    exact tget_tput_other _ hk _ _
end

section
/-! PROOFS. One access of the WU group at a bank (R121 to R125, R209, R221): the bytes a store writes, what the check bits of a word report,
and the violation of a WU whose cluster may not use the bank. -/

namespace Sys2Proof.Machine

/-! ### Words and bytes -/

theorem Memory.putMask_zero (m : List Host.Cell) (a : Nat) (v : BitVec 64) (n : Nat) : Memory.putMask m a 0 v n = m := by
  induction n with
  | zero => rfl
  | succ n ih => simpa [Memory.putMask] using ih

theorem getLsbD_mergeBytes (mask : BitVec 8) (old new : BitVec 64) (n : Nat) {j : Nat} (hj : j < 64) :
    (State.mergeBytes mask old new n).getLsbD j =
      if j / 8 < n ∧ mask.getLsbD (j / 8) = true then new.getLsbD j else old.getLsbD j := by
  induction n with
  | zero => simp [State.mergeBytes]
  | succ n ih =>
    simp only [State.mergeBytes]
    by_cases hn : j / 8 = n
    · have hin : 8 * n ≤ j ∧ j ≤ 8 * n + 7 := by omega
      have hbit : (bits new (8 * n + 7) (8 * n)).testBit (j - 8 * n) = new.getLsbD j := by
        rw [bits, BitVec.testBit_toNat, BitVec.getLsbD_extractLsb', decide_eq_true (by omega), Bool.true_and]
        congr 1
        omega
      rw [if_neg (by omega)] at ih
      rw [hn]
      cases mask.getLsbD n with
      | true => rw [if_pos rfl, setBits_getLsbD _ _ _ _ _ hj, if_pos hin, hbit, if_pos ⟨by omega, rfl⟩]
      | false => rw [if_neg Bool.false_ne_true, ih, if_neg (fun h => Bool.false_ne_true h.2)]
    · have hout : ¬ (8 * n ≤ j ∧ j ≤ 8 * n + 7) := by omega
      have hlt : (j / 8 < n + 1 ∧ mask.getLsbD (j / 8) = true) ↔ (j / 8 < n ∧ mask.getLsbD (j / 8) = true) :=
        and_congr_left' (by omega)
      rw [if_congr hlt rfl rfl, ← ih]
      split
      · rw [setBits_getLsbD _ _ _ _ _ hj, if_neg hout]
      · rfl

/-- Byte i of the word that a store in part leaves (R222). -/
theorem byte_mergeBytes (mask : BitVec 8) (old new : BitVec 64) {i : Nat} (hi : i < 8) :
    (State.mergeBytes mask old new 8).extractLsb' (8 * i) 8 =
      if mask.getLsbD i then new.extractLsb' (8 * i) 8 else old.extractLsb' (8 * i) 8 := by
  refine BitVec.eq_of_getLsbD_eq fun j hj => ?_
  have hd : (8 * i + j) / 8 = i := by omega
  rw [BitVec.getLsbD_extractLsb', getLsbD_mergeBytes _ _ _ _ (by omega), hd]
  by_cases hm : mask.getLsbD i = true
  · rw [if_pos ⟨hi, hm⟩, if_pos hm, BitVec.getLsbD_extractLsb']
  · rw [if_neg (fun h => hm h.2), if_neg hm, BitVec.getLsbD_extractLsb']

namespace State

/-! ### What stands beside the bank -/

/-- From s to s' no cluster, no lane, no master interface and no byte of memory changes. -/
structure UnitsKept (s s' : State) : Prop where
  clus : s'.clus = s.clus
  lanes : s'.lanes = s.lanes
  masters : s'.masters = s.masters
  spad : s'.spad = s.spad
  hbm : s'.hbm = s.hbm

variable {s s' s'' : State}

theorem UnitsKept.refl : UnitsKept s s := ⟨rfl, rfl, rfl, rfl, rfl⟩

theorem UnitsKept.trans (h : UnitsKept s s') (h' : UnitsKept s' s'') : UnitsKept s s'' where
  clus := h'.clus.trans h.clus
  lanes := h'.lanes.trans h.lanes
  masters := h'.masters.trans h.masters
  spad := h'.spad.trans h.spad
  hbm := h'.hbm.trans h.hbm

theorem UnitsKept.of_onlyRegs {ks : List Nat} (h : s.OnlyRegs s' ks) : UnitsKept s s' := by
  rw [h.1]
  exact ⟨rfl, rfl, rfl, rfl, rfl⟩

theorem UnitsKept.irqIf (s : State) (b : Bool) (v : Nat) : UnitsKept s (s.irqIf b v) := by
  rw [irqIf_frame]
  exact ⟨rfl, rfl, rfl, rfl, rfl⟩

theorem UnitsKept.setBank (s : State) (t b : Nat) (x : Bank) : UnitsKept s (s.setBank t b x) := ⟨rfl, rfl, rfl, rfl, rfl⟩

theorem UnitsKept.setSpWord_both (h : UnitsKept s s') (t b w : Nat) (mask : BitVec 8) (v : BitVec 64) :
    UnitsKept (s.setSpWord t b w mask v) (s'.setSpWord t b w mask v) where
  clus := h.clus
  lanes := h.lanes
  masters := h.masters
  spad := by rw [setSpWord, h.spad]; rfl
  hbm := h.hbm

theorem OnlyRegs.ite {ks : List Nat} {p : Prop} [Decidable p] (h : s.OnlyRegs s' ks) (h' : s.OnlyRegs s'' ks) :
    s.OnlyRegs (if p then s' else s'') ks := by
  split
  · exact h
  · exact h'

theorem ClusterSet.then_unitsKept {t c : Nat} {z : Cluster} (h : ClusterSet t c z s s') (h' : UnitsKept s' s'') :
    ClusterSet t c z s s'' where
  clus k := by rw [h'.clus, h.clus]
  lanes := h'.lanes.trans h.lanes
  masters := h'.masters.trans h.masters
  spad := h'.spad.trans h.spad
  hbm := h'.hbm.trans h.hbm

variable (s) (t b : Nat)

/-! ### Registers -/

/-- A counter that has counted. -/
theorem fld_count (k hi lo n : Nat) (h : hi < 32) (hl : lo ≤ hi) :
    (s.count k hi lo n).fld k hi lo = min (s.fld k hi lo + n) (2 ^ (hi + 1 - lo) - 1) := by
  have hp := Nat.two_pow_pos (hi + 1 - lo)
  rw [count, fld_setFld _ _ _ _ _ h hl]
  exact Nat.mod_eq_of_lt (by omega)

/-- The reports of a memory error write no register of a tile's window. -/
theorem not_mem_reportRegs_of_tile {t k : Nat} (ht : t < 64) (hk : k / 0x100000 = tileNode t) :
    k ∉ reportRegs ∧ k ≠ Reg.seqLoss := by
  have hb := tileNode_bounds ht
  simp only [reportRegs, List.mem_cons, List.not_mem_nil, or_false, Reg.sprLgWr, Reg.sprLgLost, Reg.seqFault, Reg.seqLoss]
  omega

theorem flag_memError (node : Nat) (tile : Option (Nat × Nat)) (det0 det1 det2 : Nat) :
    (s.memError node tile det0 det1 det2).flag Reg.seqFault 5 = true := by
  have h : (s.seqReport 5 5 node tile det0 det1 det2).flag Reg.seqFault 5 = true := s.flag_seqReport _ _ _ _ _ _ _ (by decide)
  have hl : ∀ u : State, (u.loss 2).flag Reg.seqFault 5 = u.flag Reg.seqFault 5 := fun u =>
    congrArg (fun v : BitVec 32 => v.getLsbD 5) (u.reg_setFlag_other (by decide) _ _)
  unfold memError
  dsimp only
  split
  · split
    · exact (hl _).trans h
    · exact (hl _).trans h
  · exact h

theorem memError_unitsKept (node : Nat) (tile : Option (Nat × Nat)) (det0 det1 det2 : Nat) :
    UnitsKept s (s.memError node tile det0 det1 det2) := by
  obtain ⟨r, x, l, u, he⟩ := s.memError_frame node tile det0 det1 det2
  rw [he]
  exact ⟨rfl, rfl, rfl, rfl, rfl⟩

/-! ### An uncorrected error of a word (R221) -/

variable (w src : Nat)

/-- An uncorrected error of a bank word noted at its bank: counted, and the first recorded. -/
def ueNoted (s : State) : State :=
  let s := s.count (Reg.bnkEcc t b) 15 8 1
  if s.flag (Reg.bnkUeaddr t b) 31 then s
  else ((s.setReg (Reg.bnkUeaddr t b) (BitVec.ofNat 32 (2 ^ 31 + src * 2 ^ 29 + w))).setReg (Reg.bnkUecyc t b)
    (s.seq.cycle.setWidth 32)).irqIf (s.flag (Reg.bnkCtrl t) 2) (tileNode t)

theorem bankUe_eq : s.bankUe t b w src = if (ueNoted t b w src s).bankOwn t b = 1 then
    (ueNoted t b w src s).memError (tileNode t) ((ueNoted t b w src s).lastTile t) b (src * 2 ^ 30 + w) 0
  else ueNoted t b w src s := rfl

theorem ueNoted_unitsKept : UnitsKept s (ueNoted t b w src s) := by
  have hreg : ∀ (u : State) k v, UnitsKept u (u.setReg k v) := fun u k v =>
    UnitsKept.of_onlyRegs (OnlyRegs.setReg (List.mem_singleton.mpr rfl) u v)
  unfold ueNoted
  dsimp only
  split
  · exact hreg s _ _
  · exact (hreg s _ _).trans ((hreg _ _ _).trans ((hreg _ _ _).trans (UnitsKept.irqIf _ _ _)))

theorem ueNoted_regsKept : s.RegsKept (ueNoted t b w src s) [Reg.bnkEcc t b, Reg.bnkUeaddr t b, Reg.bnkUecyc t b] := by
  intro k hk
  simp only [List.mem_cons, List.not_mem_nil, or_false, not_or] at hk
  obtain ⟨hecc, haddr, hcyc⟩ := hk
  unfold ueNoted
  dsimp only
  split
  · exact s.reg_count_other hecc _ _ _
  · rw [irqIf_reg, reg_setReg_other _ hcyc, reg_setReg_other _ haddr, reg_count_other _ hecc]

theorem ueNoted_count : (ueNoted t b w src s).fld (Reg.bnkEcc t b) 15 8 = min (s.fld (Reg.bnkEcc t b) 15 8 + 1) 255 := by
  have hc := s.fld_count (Reg.bnkEcc t b) 15 8 1 (by decide) (by decide)
  have haddr : Reg.bnkEcc t b ≠ Reg.bnkUeaddr t b := by unfold Reg.bnkEcc Reg.bnkUeaddr; omega
  have hcyc : Reg.bnkEcc t b ≠ Reg.bnkUecyc t b := by unfold Reg.bnkEcc Reg.bnkUecyc; omega
  unfold ueNoted
  dsimp only
  split
  · exact hc
  · rw [fld, irqIf_reg, reg_setReg_other _ hcyc, reg_setReg_other _ haddr]
    exact hc

/-- An address of R221 is a word within the bank. -/
theorem ueNoted_valid (hs : src < 4) (hw : w < 32768) : (ueNoted t b w src s).flag (Reg.bnkUeaddr t b) 31 = true := by
  have hcyc : Reg.bnkUeaddr t b ≠ Reg.bnkUecyc t b := by unfold Reg.bnkUeaddr Reg.bnkUecyc; omega
  unfold ueNoted
  dsimp only
  split
  · assumption
  · rw [flag, irqIf_reg, reg_setReg_other _ hcyc, reg_setReg_same, BitVec.getLsbD_ofNat, Nat.testBit_eq_decide_div_mod_eq]
    simp
    omega

/-- The report of a bank word's error in a bank of the WU group (R40, R221). -/
theorem bankUe_spec {t b : Nat} (ht : t < 64) (hb : b < 16) (ho : s.bankOwn t b = 1) (hs : src < 4) :
    (s.bankUe t b w src).fld (Reg.bnkEcc t b) 15 8 = min (s.fld (Reg.bnkEcc t b) 15 8 + 1) 255 ∧
      (w < 32768 → (s.bankUe t b w src).flag (Reg.bnkUeaddr t b) 31 = true) ∧ (s.bankUe t b w src).flag Reg.seqFault 5 = true := by
  have hown : (ueNoted t b w src s).bankOwn t b = 1 := by
    have hk : Reg.bnkOwner t b ∉ [Reg.bnkEcc t b, Reg.bnkUeaddr t b, Reg.bnkUecyc t b] := by
      simp only [List.mem_cons, List.not_mem_nil, or_false, Reg.bnkOwner, Reg.bnkEcc, Reg.bnkUeaddr, Reg.bnkUecyc]
      omega
    rw [bankOwn, fld, s.ueNoted_regsKept t b w src _ hk]
    exact ho
  have hecc := not_mem_reportRegs_of_tile (k := Reg.bnkEcc t b) ht (by unfold Reg.bnkEcc; omega)
  have haddr := not_mem_reportRegs_of_tile (k := Reg.bnkUeaddr t b) ht (by unfold Reg.bnkUeaddr; omega)
  rw [bankUe_eq, if_pos hown]
  refine ⟨?_, fun hw => ?_, flag_memError _ _ _ _ _ _⟩
  · rw [fld, memError_reg_other _ _ _ _ _ _ hecc.1 hecc.2]
    exact s.ueNoted_count t b w src
  · rw [flag, memError_reg_other _ _ _ _ _ _ haddr.1 haddr.2]
    exact s.ueNoted_valid t b w src hs hw

theorem bankUe_unitsKept : UnitsKept s (s.bankUe t b w src) := by
  rw [bankUe_eq]
  split
  · exact (s.ueNoted_unitsKept t b w src).trans (memError_unitsKept _ _ _ _ _ _)
  · exact s.ueNoted_unitsKept t b w src

theorem bankRead_unitsKept (e : Ecc) : UnitsKept s (s.bankRead t b w src e) := by
  cases e with
  | ok => exact UnitsKept.refl
  | onDie => exact UnitsKept.refl
  | corrected => exact UnitsKept.of_onlyRegs (OnlyRegs.setFld (List.mem_singleton.mpr rfl) s _ _ _)
  | uncorrected f => exact s.bankUe_unitsKept t b w src

/-! ### The grant -/

variable (c pw st : Nat) (r : SpReq)

/-- The cluster whose WU's request has been granted, with what it got. -/
def servedClu (got : BitVec 64) : Cluster :=
  (s.clu t c).setWu pw { (s.clu t c).wu pw with sp := some { r with granted := true, got := got } }

theorem sp_servedClu (got : BitVec 64) : ((s.servedClu t c pw r got).wu pw).sp = some { r with granted := true, got := got } := by
  rw [servedClu, Cluster.wu_setWu]

theorem countGrant_regsKept : s.RegsKept (s.countGrant t b st) [Reg.bnkWait t b] := by
  intro k hk
  unfold countGrant
  dsimp only
  split
  · rw [reg_count_other _ (by simpa using hk), setBank_reg]
  · rw [setBank_reg]

theorem countGrant_unitsKept : UnitsKept s (s.countGrant t b st) := by
  unfold countGrant
  dsimp only
  split
  · exact (UnitsKept.setBank _ _ _ _).trans (UnitsKept.of_onlyRegs (OnlyRegs.setFld (List.mem_singleton.mpr rfl) _ _ _ _))
  · exact UnitsKept.setBank _ _ _ _

variable {r}

section load

variable (hr : r.wr = false)
include hr

/-- A load whose word has no uncorrected error reads it (R123). -/
theorem bankAccess_load {e : Ecc} (he : ∀ f, e ≠ .uncorrected f) : s.bankAccess t b c pw r e =
    (s.setClu t c (s.servedClu t c pw r (eccWord e (s.spWord t b r.word)))).bankRead t b r.word 0 e := by
  have hw : ¬ r.wr = true := by rw [hr]; exact Bool.false_ne_true
  cases e with
  | uncorrected f => exact absurd rfl (he f)
  | ok => simp only [bankAccess, if_neg hw]; rfl
  | onDie => simp only [bankAccess, if_neg hw]; rfl
  | corrected => simp only [bankAccess, if_neg hw]; rfl

/-- One with an uncorrected error gives its WU the code as well (R125, R137). -/
theorem bankAccess_load_uncorrected (f : BitVec 64) : s.bankAccess t b c pw r (.uncorrected f) =
    ((s.setClu t c (s.servedClu t c pw r (eccWord (.uncorrected f) (s.spWord t b r.word)))).bankUe t b r.word 0).wuErr t c pw 5 := by
  have hw : ¬ r.wr = true := by rw [hr]; exact Bool.false_ne_true
  simp only [bankAccess, if_neg hw]; rfl

theorem bankAccess_load_clusterSet (e : Ecc) : ClusterSet t c (s.servedClu t c pw r (eccWord e (s.spWord t b r.word))) s
    (s.bankAccess t b c pw r e) := by
  by_cases he : ∀ f, e ≠ .uncorrected f
  · rw [s.bankAccess_load t b c pw hr he]
    exact (ClusterSet.setClu _).then_unitsKept (bankRead_unitsKept _ _ _ _ _ _)
  · obtain ⟨f, rfl⟩ := not_forall_not.mp he
    rw [s.bankAccess_load_uncorrected t b c pw hr f]
    exact (ClusterSet.setClu _).then_unitsKept ((bankUe_unitsKept _ _ _ _ _).trans (UnitsKept.of_onlyRegs (wuErr_onlyRegs _ _ _ _ _)))

/-! ### What the check bits of a load report (R221) -/

/-- A word that needs no correction is reported nowhere. -/
theorem load_reports_nothing {e : Ecc} (he : e = .ok ∨ e = .onDie) :
    s.RegsKept ((s.bankAccess t b c pw r e).countGrant t b st) [Reg.bnkWait t b] := by
  intro k hk
  have hu : ∀ f, e ≠ .uncorrected f := by rcases he with rfl | rfl <;> simp
  rw [countGrant_regsKept _ t b st k hk, s.bankAccess_load t b c pw hr hu]
  rcases he with rfl | rfl <;> exact setClu_reg _ _ _ _ _

theorem load_counts_corrected : ((s.bankAccess t b c pw r .corrected).countGrant t b st).fld (Reg.bnkEcc t b) 31 16 =
    min (s.fld (Reg.bnkEcc t b) 31 16 + 1) 65535 := by
  have hwait : Reg.bnkEcc t b ∉ [Reg.bnkWait t b] := by simp [Reg.bnkEcc, Reg.bnkWait]
  rw [fld, countGrant_regsKept _ t b st _ hwait, s.bankAccess_load t b c pw hr (by simp)]
  refine (fld_count _ _ _ _ _ (by decide) (by decide)).trans ?_
  rw [fld, setClu_reg, fld]
  rfl

theorem load_reports_uncorrected {t b : Nat} (ht : t < 64) (hb : b < 16) (ho : s.bankOwn t b = 1) (f : BitVec 64) :
    let s' := (s.bankAccess t b c pw r (.uncorrected f)).countGrant t b st
    s'.fld (Reg.bnkEcc t b) 15 8 = min (s.fld (Reg.bnkEcc t b) 15 8 + 1) 255 ∧
      (r.word < 32768 → s'.flag (Reg.bnkUeaddr t b) 31 = true) ∧ s'.flag Reg.seqFault 5 = true := by
  have hn := tileNode_bounds ht
  rw [s.bankAccess_load_uncorrected t b c pw hr f]
  generalize hv : s.setClu t c _ = v
  have hreg : ∀ k, v.reg k = s.reg k := fun k => by rw [← hv, setClu_reg]
  have hown : v.bankOwn t b = 1 := by rw [bankOwn, fld, hreg]; exact ho
  have hkept : ∀ k, k < tileNode t * 0x100000 + 0x80000 → k ≠ Reg.seqLoss → k ≠ Reg.bnkWait t b →
      (((v.bankUe t b r.word 0).wuErr t c pw 5).countGrant t b st).reg k = (v.bankUe t b r.word 0).reg k := by
    intro k hk hl hw
    have hwerr : k ≠ Reg.cluWerr t c pw := by unfold Reg.cluWerr; omega
    rw [countGrant_regsKept _ t b st k (by simpa using hw), (wuErr_onlyRegs _ t c pw 5).2 k (by simp [hwerr, hl])]
  obtain ⟨hcount, haddr, hfault⟩ := v.bankUe_spec r.word 0 ht hb hown (by decide)
  refine ⟨?_, fun hin => ?_, ?_⟩
  · rw [fld, hkept _ (by unfold Reg.bnkEcc; omega) (by unfold Reg.bnkEcc Reg.seqLoss; omega)
      (by unfold Reg.bnkEcc Reg.bnkWait; omega)]
    refine hcount.trans ?_
    rw [fld, hreg, fld]
  · rw [flag, hkept _ (by unfold Reg.bnkUeaddr; omega) (by unfold Reg.bnkUeaddr Reg.seqLoss; omega)
      (by unfold Reg.bnkUeaddr Reg.bnkWait; omega)]
    exact haddr hin
  · rw [flag, hkept _ (by unfold Reg.seqFault; omega) (by decide) (by unfold Reg.seqFault Reg.bnkWait; omega)]
    exact hfault

end load

/-- A byte of a word written in part (R121). -/
theorem get_setSpWord (m : BitVec 8) (v : BitVec 64) (a : Nat) : Memory.get (s.setSpWord t b w m v).spad a =
    if spAddr t b w ≤ a ∧ a < spAddr t b w + 8 ∧ m.getLsbD (a - spAddr t b w) then v.extractLsb' (8 * (a - spAddr t b w)) 8
    else Memory.get s.spad a := Memory.get_putMask _ _ _ _ _ _

/-- A store writes the bytes its mask names; of a word it writes in part the others are as read (R121, R222). -/
theorem bankAccess_store (hr : r.wr = true) (e : Ecc) : ∃ m v,
    UnitsKept ((s.setClu t c (s.servedClu t c pw r 0)).setSpWord t b r.word m v) (s.bankAccess t b c pw r e) ∧
      ∀ i, i < 8 → ∀ old, (if m.getLsbD i = true then v.extractLsb' (8 * i) 8 else old) =
        if r.mask.getLsbD i then r.data.extractLsb' (8 * i) 8
        else if r.mask = 0 then old
        else (eccWord e (s.spWord t b r.word)).extractLsb' (8 * i) 8 := by
  have hall : ∀ i, i < 8 → (0xFF : BitVec 8).getLsbD i = true := by decide
  simp only [bankAccess, if_pos hr]
  by_cases h0 : r.mask = 0
  · refine ⟨0, 0, ?_, fun i hi old => by simp [h0]⟩
    rw [if_pos h0]
    exact ⟨rfl, rfl, rfl, (Memory.putMask_zero _ _ _ _).symm, rfl⟩
  by_cases hf : r.mask = 0xFF
  · refine ⟨0xFF, r.data, ?_, fun i hi old => by rw [hf, hall i hi]; rfl⟩
    rw [if_neg h0, if_pos hf]
    exact UnitsKept.refl
  · refine ⟨0xFF, mergeBytes r.mask (eccWord e (s.spWord t b r.word)) r.data 8, ?_, fun i hi old => ?_⟩
    · rw [if_neg h0, if_neg hf]
      exact (bankRead_unitsKept _ _ _ _ _ _).setSpWord_both _ _ _ _ _
    · rw [if_pos (hall i hi), byte_mergeBytes _ _ _ hi, if_neg h0]

/-! ### The violation (R124, R212) -/

/-- A record that the ledger has room for moves its write pointer on (R556). -/
theorem record_sprLgWr (h : s.ledgerRoom = true) (v cls code n d e f : Nat) :
    (s.record v cls code n d e f).reg Reg.sprLgWr = s.reg Reg.sprLgWr + 1 := by
  unfold record
  rw [if_pos h]
  dsimp only
  rw [irqIf_reg, reg_setReg_same]
  apply BitVec.eq_of_toNat_eq
  simp

/-- A violation is recorded in the ledger, and in NOC_VREC0 to NOC_VREC2 (R283, R293). -/
theorem recordViolation_onlyRegs (node mid : Nat) (pk : Packet) (cause : Nat) (tgt : Option Nat) : ∃ d0 d1 d2,
    (s.record 2 3 cause node d0 d1 d2).OnlyRegs (s.recordViolation node mid pk cause tgt)
      [Reg.nocVrec0, Reg.nocVrec1, Reg.nocVrec2] := by
  unfold recordViolation
  exact ⟨_, _, _, OnlyRegs.ite OnlyRegs.refl ((OnlyRegs.setReg (by simp) _ _).trans
    ((OnlyRegs.setReg (by simp) _ _).trans (OnlyRegs.setReg (by simp) _ _)))⟩

theorem recordViolation_unitsKept (node mid : Nat) (pk : Packet) (cause : Nat) (tgt : Option Nat) :
    UnitsKept s (s.recordViolation node mid pk cause tgt) := by
  obtain ⟨d0, d1, d2, h⟩ := s.recordViolation_onlyRegs node mid pk cause tgt
  obtain ⟨r, x, l, hr⟩ := s.record_frame 2 3 cause node d0 d1 d2
  refine UnitsKept.trans ?_ (UnitsKept.of_onlyRegs h)
  rw [hr]
  exact ⟨rfl, rfl, rfl, rfl, rfl⟩

theorem recordViolation_sprLgWr (h : s.ledgerRoom = true) (node mid : Nat) (pk : Packet) (cause : Nat) (tgt : Option Nat) :
    (s.recordViolation node mid pk cause tgt).reg Reg.sprLgWr = s.reg Reg.sprLgWr + 1 := by
  obtain ⟨d0, d1, d2, -, hk⟩ := s.recordViolation_onlyRegs node mid pk cause tgt
  rw [hk _ (by decide), s.record_sprLgWr h]

/-- The cluster whose WU's request has met a violation. -/
def refusedClu (s : State) (t c pw : Nat) (r : SpReq) : Cluster :=
  (s.clu t c).setWu pw { (s.clu t c).wu pw with sp := some { r with viol := true } }

/-- The state that a WU's violation records and freezes. -/
def refused (s : State) (t c pw : Nat) (r : SpReq) : State :=
  { s with free := s.free + 1 }.setClu t c (s.refusedClu t c pw r)

theorem refused_clusterSet : ClusterSet t c (s.refusedClu t c pw r) s (s.refused t c pw r) :=
  { ClusterSet.setClu (s := { s with free := s.free + 1 }) _ with }

theorem refused_reg (k : Nat) : (s.refused t c pw r).reg k = s.reg k := rfl

theorem refused_ledgerRoom : (s.refused t c pw r).ledgerRoom = s.ledgerRoom := by
  rw [ledgerRoom, ledgerRoom, refused_reg, refused_reg]

theorem wuViolation_eq : ∃ pk,
    let v := (s.refused t c pw r).recordViolation (tileNode t) (wuMid c pw) pk 1 (some (tileNode t))
    s.wuViolation t c pw r = v.setMaster (tileNode t) (wuMid c pw) { v.master (tileNode t) (wuMid c pw) with frozen := true } :=
  ⟨_, rfl⟩

/-- From s to s' the access of a WU has met a violation: its interface is frozen, and the ledger has its record. -/
structure BankViolated (s : State) (t c pw : Nat) (r : SpReq) (s' : State) : Prop where
  memory : s.MemoryKept s'
  others : s.ClustersKept s' t c
  sp : ((s'.clu t c).wu pw).sp = some { r with viol := true }
  frozen : (s'.master (tileNode t) (wuMid c pw)).frozen = true
  logged : s.ledgerRoom = true → s'.reg Reg.sprLgWr = s.reg Reg.sprLgWr + 1

theorem wuViolation_violated : s.BankViolated t c pw r (s.wuViolation t c pw r) := by
  obtain ⟨pk, he⟩ := s.wuViolation_eq t c pw (r := r)
  have hset := (s.refused_clusterSet t c pw (r := r)).then_unitsKept
    ((s.refused t c pw r).recordViolation_unitsKept (tileNode t) (wuMid c pw) pk 1 (some (tileNode t)))
  have hlog := fun h => (s.refused t c pw r).recordViolation_sprLgWr h (tileNode t) (wuMid c pw) pk 1 (some (tileNode t))
  rw [he]
  refine ⟨⟨fun a => ?_, fun a => ?_⟩, fun k hk => ?_, ?_, ?_, fun h => ?_⟩
  · rw [setMaster_spad, hset.spad]
  · rw [setMaster_hbm, hset.hbm]
  · rw [setMaster_clus, hset.clustersKept k hk]
  · rw [clu, setMaster_clus, hset.clus, if_pos rfl, refusedClu, Cluster.wu_setWu]
  · rw [master_setMaster]
  · rw [setMaster_reg, hlog ((s.refused_ledgerRoom t c pw).trans h), refused_reg]

/-! ### What is granted -/

section first

variable {s t b st c pw} {li lw : Nat} (hf : s.bankFirst t b = some (st, li, lw, c, pw)) (hr : ((s.clu t c).wu pw).sp = some r)
include hf hr

theorem bankGrant_of_foreign (hm : s.wuMayUse t b c = false) (e : Ecc) : s.bankGrant t b e = s.wuViolation t c pw r := by
  simp only [bankGrant, hf, hr, hm]; rfl

theorem bankGrant_of_early (hm : s.wuMayUse t b c = true) (hu : s.usersReached t b st = false) (e : Ecc) :
    s.bankGrant t b e = s := by
  simp only [bankGrant, hf, hr, hm, hu]; rfl

theorem bankGrant_of_reached (hm : s.wuMayUse t b c = true) (hu : s.usersReached t b st = true) (e : Ecc) :
    s.bankGrant t b e = (s.bankAccess t b c pw r e).countGrant t b st := by
  simp only [bankGrant, hf, hr, hm, hu]; rfl

end first

theorem bankGrant_of_none (h : s.bankFirst t b = none) (e : Ecc) : s.bankGrant t b e = s := by
  simp only [bankGrant, h]

theorem bankOwn_of_wuMayUse {t b c : Nat} (h : s.wuMayUse t b c = true) : s.bankOwn t b = 1 := by
  simp only [wuMayUse, Bool.and_eq_true, beq_iff_eq] at h
  exact h.1.1

end State

theorem exec_bankGrant (t b : Nat) (e : Ecc) (s : State) : exec (.bankGrant t b e) s = .next (s.bankGrant t b e) := rfl

end Sys2Proof.Machine

open Sys2Proof Sys2Proof.Machine

/-- Settles O24: a load and a store are `State.bankAccess_load_clusterSet` and `State.bankAccess_store`, a foreign access is
`State.wuViolation_violated`; what a load reports is `State.bankUe_spec`. -/
theorem bankGrantsInWuOrder : Obligations.BankGrantsInWuOrder := by
  intro s t b ecc ht hb
  refine ⟨fun h => by rw [exec_bankGrant, s.bankGrant_of_none t b h], fun st li lw c pw r hf hr => ?_⟩
  intro word
  rw [exec_bankGrant]
  refine ⟨fun hm hu => ?early, fun hm hu => ⟨fun hw => ?load, fun hw => ?store⟩, fun hm => ?foreign⟩
  case early => rw [State.bankGrant_of_early hf hr hm hu]
  case load =>
    rw [State.bankGrant_of_reached hf hr hm hu]
    have hset := (s.bankAccess_load_clusterSet t b c pw hw ecc).then_unitsKept (State.countGrant_unitsKept _ t b st)
    refine ⟨_, rfl, ?_, hset.memoryKept, hset.clustersKept, s.load_reports_nothing t b c pw st hw, fun he => ?_, fun f he hin => ?_⟩
    · rw [hset.clu, State.sp_servedClu]
    · rw [he]
      exact s.load_counts_corrected t b c pw st hw
    · obtain ⟨hcount, haddr, hfault⟩ := s.load_reports_uncorrected c pw st hw ht hb (s.bankOwn_of_wuMayUse hm) f
      rw [he]
      exact ⟨hcount, haddr hin, hfault⟩
  case store =>
    rw [State.bankGrant_of_reached hf hr hm hu]
    obtain ⟨m, v, hkept, hbyte⟩ := s.bankAccess_store t b c pw hw ecc
    have hall := hkept.trans (State.countGrant_unitsKept _ t b st)
    have hset : ∀ k, tget (fun _ => Cluster.empty) ((s.bankAccess t b c pw r ecc).countGrant t b st).clus k =
        if k = 72 * t + c then s.servedClu t c pw r 0 else tget (fun _ => Cluster.empty) s.clus k := fun k => by
      rw [hall.clus, State.setSpWord_clus]
      exact (State.ClusterSet.setClu (s := s) (s.servedClu t c pw r 0)).clus k
    have hspad : ((s.bankAccess t b c pw r ecc).countGrant t b st).spad = (s.setSpWord t b r.word m v).spad := hall.spad
    refine ⟨_, rfl, ?_, fun k hk => ?_, hall.hbm, fun i hi => ?_, fun a ha => ?_⟩
    · rw [State.clu, hset, if_pos rfl, State.sp_servedClu]
    · rw [hset, if_neg hk]
    · rw [hspad, s.get_setSpWord, Nat.add_sub_cancel_left, ← hbyte i hi]
      exact if_congr (by simp [hi]) rfl rfl
    · rw [hspad, s.get_setSpWord, if_neg (by omega)]
  case foreign =>
    rw [State.bankGrant_of_foreign hf hr hm]
    obtain ⟨hmem, hothers, hsp, hfrozen, hlog⟩ := s.wuViolation_violated t c pw (r := r)
    exact ⟨_, rfl, hmem, hothers, hsp, hfrozen, hlog⟩
end

section
/-! PROOFS. Lane-bytes and the places of lanes (R145, R146, R155): parity and tag of a lane-byte that a counted place passes, what a
write of one place leaves alone, and what a lane parity fault changes (R166). -/

namespace Sys2Proof.Machine

/-! ### Lane-bytes -/

theorem onesUpTo_congr {w : Nat} {x y : BitVec w} {n : Nat} (h : ∀ i, i < n → x.getLsbD i = y.getLsbD i) :
    onesUpTo x n = onesUpTo y n := by
  induction n with
  | zero => rfl
  | succ n ih => rw [onesUpTo, onesUpTo, ih fun i hi => h i (Nat.lt_succ_of_lt hi), h n (Nat.lt_succ_self n)]

/-- A word's top bit set so that the ones below it become an odd number. -/
theorem oddOk_setBit_top {n : Nat} (v : BitVec (n + 1)) (hv : v.getLsbD n = false) : oddOk (setBit v n (ones v % 2 == 0)) = true := by
  have hlow : ∀ b, onesUpTo (setBit v n b) n = onesUpTo v n := fun b =>
    onesUpTo_congr fun i hi => by rw [getLsbD_setBit _ _ _ (by omega), if_neg (by omega)]
  have hones : ones v = onesUpTo v n := by rw [ones, onesUpTo, hv]; rfl
  rw [oddOk, ones, onesUpTo, hlow, getLsbD_setBit _ _ _ (by omega), if_pos rfl, hones]
  rcases Nat.mod_two_eq_zero_or_one (onesUpTo v n) with h | h <;> simp [h, Nat.add_mod]

/-- Tag and data of a lane-byte, as one number. -/
theorem testBit_laneWord (tag : Nat) (d : BitVec 8) (i : Nat) : (tag % 16 * 256 + d.toNat).testBit i =
    if i < 8 then d.getLsbD i else (tag % 16).testBit (i - 8) := by
  rw [show tag % 16 * 256 + d.toNat = 2 ^ 8 * (tag % 16) + d.toNat by omega, Nat.testBit_two_pow_mul_add _ d.isLt]
  rfl

theorem getLsbD_mkLaneByte (tag : Nat) (d : BitVec 8) {i : Nat} (hi : i < 12) :
    (mkLaneByte tag d).getLsbD i = if i < 8 then d.getLsbD i else tag.testBit (i - 8) := by
  have h4 : i - 8 < 4 := by omega
  rw [mkLaneByte, getLsbD_setBit _ _ _ (by omega), if_neg (by omega), BitVec.getLsbD_ofNat, testBit_laneWord,
    show tag % 16 = tag % 2 ^ 4 from rfl, Nat.testBit_mod_two_pow]
  simp [h4, show i < 13 by omega]

/-- A lane-byte is made with odd parity (R145). -/
theorem oddOk_mkLaneByte (tag : Nat) (d : BitVec 8) : oddOk (mkLaneByte tag d) = true := by
  refine oddOk_setBit_top _ ?_
  have h := d.isLt
  rw [BitVec.getLsbD_ofNat, Nat.testBit_lt_two_pow (by omega), Bool.and_false]

theorem data_mkLaneByte (tag : Nat) (d : BitVec 8) : (mkLaneByte tag d).extractLsb' 0 8 = d := by
  refine BitVec.eq_of_getLsbD_eq fun i hi => ?_
  rw [BitVec.getLsbD_extractLsb', Nat.zero_add, getLsbD_mkLaneByte _ _ (by omega), if_pos hi]
  simp [hi]

variable (cp : Bool) {st : Nat} (hst : st < 8) (d : BitVec 8)
include hst

theorem st_mkLaneByte : bits (mkLaneByte (8 * b2n cp + st) d) 10 8 = st := by
  refine Nat.eq_of_testBit_eq fun i => ?_
  rw [bits, BitVec.testBit_toNat, BitVec.getLsbD_extractLsb']
  by_cases hi : i < 3
  · rw [getLsbD_mkLaneByte _ _ (by omega), if_neg (by omega), show 8 * b2n cp + st = 2 ^ 3 * b2n cp + st by rfl,
      Nat.testBit_two_pow_mul_add _ hst, if_pos (by omega), show 8 + i - 8 = i by omega]
    simp [hi]
  · have hlt : st < 2 ^ i := lt_of_lt_of_le hst (Nat.pow_le_pow_right (n := 2) (by decide) (by omega : 3 ≤ i))
    rw [Nat.testBit_lt_two_pow hlt, decide_eq_false (by omega), Bool.false_and]

theorem cp_mkLaneByte : (mkLaneByte (8 * b2n cp + st) d).getLsbD 11 = cp := by
  rw [getLsbD_mkLaneByte _ _ (by decide), if_neg (by decide), show 8 * b2n cp + st = 2 ^ 3 * b2n cp + st by rfl,
    Nat.testBit_two_pow_mul_add _ hst, if_neg (by decide)]
  cases cp <;> rfl

omit hst

/-- A counted stage advances ST by one modulo 8, and keeps CP and data (R146). -/
theorem st_advance (b : LaneByte) : bits (advance b) 10 8 = (bits b 10 8 + 1) % 8 := st_mkLaneByte _ (Nat.mod_lt _ (by decide)) _

theorem cp_advance (b : LaneByte) : (advance b).getLsbD 11 = b.getLsbD 11 := cp_mkLaneByte _ (Nat.mod_lt _ (by decide)) _

theorem data_advance (b : LaneByte) : (advance b).extractLsb' 0 8 = b.extractLsb' 0 8 := data_mkLaneByte _ _

theorem oddOk_advance (b : LaneByte) : oddOk (advance b) = true := oddOk_mkLaneByte _ _

/-! ### Entering a place (R146, R155) -/

theorem enterPlace_of_uncounted {l : LaneId} {i eye : Nat} (h : i < eyelets l ∧ eye ≤ i) (b : LaneByte) :
    enterPlace l i eye b = some b := if_pos h

theorem enterPlace_of_odd {l : LaneId} {i eye : Nat} (h : ¬ (i < eyelets l ∧ eye ≤ i)) {b : LaneByte} (hb : oddOk b = true) :
    enterPlace l i eye b = some (advance b) := by rw [enterPlace, if_neg h, if_pos hb]

theorem enterPlace_of_even {l : LaneId} {i eye : Nat} (h : ¬ (i < eyelets l ∧ eye ≤ i)) {b : LaneByte} (hb : oddOk b = false) :
    enterPlace l i eye b = none := by rw [enterPlace, if_neg h, hb]; rfl

/-! ### Places and lanes -/

theorem Lane.place_setPlace_other (x : Lane) {i k : Nat} (hk : k ≠ i) (h : Option Held) : (x.setPlace i h).place k = x.place k :=
  tget_tput_other _ hk _ _

/-- The lanes of the device (R152). -/
theorem laneIdOk_iff {l : LaneId} : WellFormed.laneIdOk l = true ↔
    l.kind < 5 ∧ l.tile < 64 ∧ l.row < 9 ∧ l.col < 8 ∧ l.out < 16 ∧ l.lane < 256 := by
  simp only [WellFormed.laneIdOk, WellFormed.cluOk, WellFormed.tileOk, Bool.and_eq_true, decide_eq_true_eq, and_assoc]

namespace State

variable (s : State) (l u : LaneId)

theorem setLane_lanesKept (x : Lane) : s.LanesKept (s.setLane l x) [laneKey l] := fun _ hk =>
  tget_tput_other _ (fun h => hk (List.mem_singleton.mpr h)) _ _

/-- Lanes of one key are one lane. -/
theorem lane_of_laneKey {l u : LaneId} (h : laneKey u = laneKey l) : s.lane u = s.lane l := by rw [lane, h, lane]

/-- A lane that LanesKept does not list. -/
theorem LanesKept.lane {s t : State} {ks : List Nat} (h : s.LanesKept t ks) {u : LaneId} (hu : laneKey u ∉ ks) :
    t.lane u = s.lane u := h _ hu

/-! ### A lane parity fault (R166, R171) -/

/-- The word that TILE_LFAULT takes. -/
def lfaultWord (kind rtag : Nat) : Nat :=
  2 ^ 31 + kind * 2 ^ 30 + b2n (l.kind == 2) * 2 ^ 29 +
    (if l.kind == 2 then 0 else l.row * 2 ^ 25 + l.col * 2 ^ 22) + l.out * 2 ^ 18 + l.lane * 2 ^ 11 + rtag % 16

/-- TILE_LFAULT keeps the first fault. -/
def lfaultNoted (kind rtag : Nat) : State :=
  if s.flag (Reg.tileLfault l.tile) 31 then s
  else (s.setReg (Reg.tileLfault l.tile) (BitVec.ofNat 32 (lfaultWord l kind rtag))).setReg (Reg.tileLfcyc l.tile)
    (s.seq.cycle.setWidth 32)

/-- The lane with one place more that takes nothing. -/
def laneClosed (place : Nat) : State := s.setLane l { s.lane l with stuck := place :: (s.lane l).stuck }

/-- The report of a lane parity fault, which stops the run. -/
def lfaultReport (kind w : Nat) : State :=
  let r := s.record 2 2 (kind + 1) (tileNode l.tile) 0 w 0
  ((r.seqFaultBit 4).nameTile (r.lastTile l.tile) s.ledgerRoom).stopRun

theorem laneFault_eq (place kind rtag : Nat) : s.laneFault l place kind rtag =
    ((s.lfaultNoted l kind rtag).laneClosed l place).lfaultReport l kind (lfaultWord l kind rtag) := by
  unfold laneFault lfaultReport laneClosed lfaultNoted lfaultWord
  rfl

variable {l} (hl : WellFormed.laneIdOk l = true)
include hl

/-- The word's V bit (R171). -/
theorem lfaultWord_valid {kind : Nat} (hk : kind < 2) (rtag : Nat) : (BitVec.ofNat 32 (lfaultWord l kind rtag)).getLsbD 31 = true := by
  obtain ⟨-, -, hrow, hcol, hout, hlane⟩ := laneIdOk_iff.mp hl
  have hdiv : lfaultWord l kind rtag / 2 ^ 31 = 1 := by
    unfold lfaultWord b2n
    split <;> omega
  rw [BitVec.getLsbD_ofNat, Nat.testBit_eq_decide_div_mod_eq, hdiv]
  rfl

omit hl

theorem lfaultNoted_onlyRegs (l : LaneId) (kind rtag : Nat) :
    s.OnlyRegs (s.lfaultNoted l kind rtag) [Reg.tileLfault l.tile, Reg.tileLfcyc l.tile] :=
  OnlyRegs.ite OnlyRegs.refl ((OnlyRegs.setReg (by simp) _ _).trans (OnlyRegs.setReg (by simp) _ _))

theorem flag_lfaultNoted (hl : WellFormed.laneIdOk l = true) {kind : Nat} (hk : kind < 2) (rtag : Nat) :
    (s.lfaultNoted l kind rtag).flag (Reg.tileLfault l.tile) 31 = true := by
  have hne : Reg.tileLfault l.tile ≠ Reg.tileLfcyc l.tile := by unfold Reg.tileLfault Reg.tileLfcyc; omega
  unfold lfaultNoted
  split
  · assumption
  · rw [flag, reg_setReg_other _ hne, reg_setReg_same, lfaultWord_valid hl hk]

theorem lfaultReport_frame (l : LaneId) (kind w : Nat) : ∃ r x g f, s.lfaultReport l kind w =
    { s with regs := r, net := x, ledger := g, seq := { s.seq with faulted := f } } := by
  obtain ⟨_, _, _, hr⟩ := s.record_frame 2 2 (kind + 1) (tileNode l.tile) 0 w 0
  obtain ⟨_, _, hb⟩ := (s.record 2 2 (kind + 1) (tileNode l.tile) 0 w 0).seqFaultBit_frame 4
  obtain ⟨_, hn⟩ := ((s.record 2 2 (kind + 1) (tileNode l.tile) 0 w 0).seqFaultBit 4).nameTile_frame
    ((s.record 2 2 (kind + 1) (tileNode l.tile) 0 w 0).lastTile l.tile) s.ledgerRoom
  unfold lfaultReport
  dsimp only
  rw [hn, hb, hr]
  exact ⟨_, _, _, _, rfl⟩

theorem lfaultReport_reg_other (l : LaneId) (kind w : Nat) {k : Nat} (h : k ∉ reportRegs) :
    (s.lfaultReport l kind w).reg k = s.reg k := by
  simp only [reportRegs, List.mem_cons, List.not_mem_nil, or_false, not_or] at h
  obtain ⟨hw, hl, hf⟩ := h
  unfold lfaultReport
  dsimp only
  rw [stopRun_reg, nameTile_reg_other _ _ _ hf, seqFaultBit_reg_other _ _ hf, record_reg _ _ _ _ _ _ _ _ _ hw hl]

theorem flag_lfaultReport (l : LaneId) (kind w : Nat) : (s.lfaultReport l kind w).flag Reg.seqFault 4 = true := by
  unfold lfaultReport
  dsimp only
  rw [flag, stopRun_reg, ← flag, flag_nameTile _ _ _ (by decide), flag_seqFaultBit _ (by decide)]

/-- From s to s' a lane parity fault closes a place of lane l, and TILE_LFAULT and SEQ_FAULT say so; no other lane and no byte of
memory changes. -/
structure LaneCloses (l : LaneId) (place : Nat) (s s' : State) : Prop where
  lane : s'.lane l = { s.lane l with stuck := place :: (s.lane l).stuck }
  lanesKept : s.LanesKept s' [laneKey l]
  lfault : s'.flag (Reg.tileLfault l.tile) 31 = true
  seqFault : s'.flag Reg.seqFault 4 = true
  memoryKept : s.MemoryKept s'

theorem laneFault_closes (hl : WellFormed.laneIdOk l = true) {kind : Nat} (hk : kind < 2) (place rtag : Nat) :
    LaneCloses l place s (s.laneFault l place kind rtag) := by
  obtain ⟨-, ht, -⟩ := laneIdOk_iff.mp hl
  have hnode : Reg.tileLfault l.tile ∉ reportRegs :=
    (not_mem_reportRegs_of_tile ht (by unfold Reg.tileLfault; omega)).1
  have h0 := (s.lfaultNoted_onlyRegs l kind rtag).1
  obtain ⟨r, x, g, f, h⟩ := ((s.lfaultNoted l kind rtag).laneClosed l place).lfaultReport_frame l kind (lfaultWord l kind rtag)
  rw [laneFault_eq]
  refine ⟨?_, ?_, ?_, flag_lfaultReport _ _ _ _, ?_⟩
  · rw [h, h0]; exact lane_setLane _ _ _
  · rw [h, h0]; exact s.setLane_lanesKept l _
  · rw [flag, lfaultReport_reg_other _ _ _ _ hnode, laneClosed, setLane_reg]
    exact s.flag_lfaultNoted hl hk rtag
  · rw [h, h0]; exact ⟨fun _ => rfl, fun _ => rfl⟩

section closes

variable {s} {s' : State} {i : Nat} (h : LaneCloses l i s s')
include h

/-- A lane parity fault moves no lane-byte. -/
theorem LaneCloses.place (u : LaneId) (k : Nat) : (s'.lane u).place k = (s.lane u).place k := by
  by_cases hu : laneKey u = laneKey l
  · rw [lane_of_laneKey _ hu, h.lane, lane_of_laneKey _ hu]
    rfl
  · rw [h.lanesKept.lane (by simpa using hu)]

theorem LaneCloses.closedAt : (s'.lane l).closedAt i = true := by
  rw [h.lane, Lane.closedAt]
  exact List.contains_iff_mem.mpr List.mem_cons_self

end closes

end State

end Sys2Proof.Machine
end

section
/-! PROOFS. LANE_STAGE_PASS (R146, R155, R166, R172): a lane-byte that moves to the next place, one that does not pass the parity check,
and one that waits. -/

namespace Sys2Proof.Machine

theorem exec_laneStagePass (l : LaneId) (i : Nat) (err : LaneByte) (s : State) :
    exec (.laneStagePass l i err) s = .next (s.stagePass l i err) := rfl

namespace State

variable {s : State} {l : LaneId} {i : Nat} {h : Held}

/-! ### A lane-byte that moves on -/

/-- The lane-byte of place i of a lane stands, as b, in the next place. -/
def movedOn (s : State) (l : LaneId) (i : Nat) (h : Held) (b : LaneByte) : State :=
  s.setLane l (((s.lane l).setPlace i none).setPlace (i + 1) (some { h with b := b }))

theorem movedOn_from (b : LaneByte) : ((s.movedOn l i h b).lane l).place i = none := by
  rw [movedOn, lane_setLane, Lane.place_setPlace_other _ (by omega), Lane.place_setPlace]

theorem movedOn_to (b : LaneByte) : ((s.movedOn l i h b).lane l).place (i + 1) = some { h with b := b } := by
  rw [movedOn, lane_setLane, Lane.place_setPlace]

section stagePass

variable (hp : (s.lane l).place i = some h) (err : LaneByte)
include hp

section opened

variable (ho : i + 1 < s.chainLen l ∧ (s.lane l).place (i + 1) = none ∧ (s.lane l).closedAt (i + 1) = false)
include ho

theorem stagePass_of_enters {b : LaneByte} (he : enterPlace l (i + 1) h.eye (h.b ^^^ err) = some b) :
    s.stagePass l i err = s.movedOn l i h b := by
  obtain ⟨hlen, hfree, hopen⟩ := ho
  simp [stagePass, hp, hlen, hfree, hopen, he, movedOn]

theorem stagePass_of_refused (he : enterPlace l (i + 1) h.eye (h.b ^^^ err) = none) :
    s.stagePass l i err = s.laneFault l (i + 1) 0 (tagOf (h.b ^^^ err)) := by
  obtain ⟨hlen, hfree, hopen⟩ := ho
  simp [stagePass, hp, hlen, hfree, hopen, he]

end opened

theorem stagePass_of_shut
    (ho : ¬ (i + 1 < s.chainLen l ∧ (s.lane l).place (i + 1) = none ∧ (s.lane l).closedAt (i + 1) = false)) :
    s.stagePass l i err = s.countHeld l i h := by
  simp only [stagePass, hp]
  rw [if_neg (by simpa using ho)]

end stagePass

/-! ### A lane-byte that waits (R172) -/

/-- Whether a lane-byte that waits is counted: at a gateway's output, and not counted before. -/
abbrev countsWait (l : LaneId) (h : Held) : Prop := l.kind = 2 ∧ !h.waited

/-- The state in which the lane-byte of place i of lane l is marked as having waited. -/
def waitMarked (s : State) (l : LaneId) (i : Nat) (h : Held) : State :=
  s.setLane l ((s.lane l).setPlace i (some { h with waited := true }))

theorem countHeld_of_not_counts (hw : ¬ countsWait l h) : s.countHeld l i h = s := if_neg hw

theorem countHeld_of_counts (hw : countsWait l h) :
    (s.waitMarked l i h).OnlyRegs (s.countHeld l i h) [Reg.tileGwwait l.tile] := by
  rw [countHeld, if_pos hw]
  exact OnlyRegs.ite (OnlyRegs.setFld (by simp) _ _ _ _) (OnlyRegs.ite (OnlyRegs.setFld (by simp) _ _ _ _) OnlyRegs.refl)

theorem countHeld_frame : s.countHeld l i h = { s with lanes := (s.countHeld l i h).lanes, regs := (s.countHeld l i h).regs } ∧
    s.LanesKept (s.countHeld l i h) [laneKey l] ∧ s.RegsKept (s.countHeld l i h) [Reg.tileGwwait l.tile] := by
  by_cases hw : countsWait l h
  · obtain ⟨he, hr⟩ := countHeld_of_counts (s := s) (i := i) hw
    refine ⟨by rw [he]; rfl, ?_, fun k hk => (hr k hk).trans (setLane_reg _ _ _ _)⟩
    rw [he]
    exact s.setLane_lanesKept l _
  · rw [countHeld_of_not_counts hw]
    exact ⟨rfl, fun _ _ => rfl, fun _ _ => rfl⟩

/-- The lane-byte stays, at a gateway's output as one that has waited. -/
theorem countHeld_place (hp : (s.lane l).place i = some h) :
    ((s.countHeld l i h).lane l).place i = some { h with waited := h.waited || decide (l.kind = 2) } := by
  by_cases hw : countsWait l h
  · obtain ⟨he, -⟩ := countHeld_of_counts (s := s) (i := i) hw
    have hlane : (s.countHeld l i h).lane l = (s.waitMarked l i h).lane l := by rw [he]; rfl
    rw [hlane, waitMarked, lane_setLane, Lane.place_setPlace]
    simp [hw.1]
  · have hwaited : (h.waited || decide (l.kind = 2)) = h.waited := by
      cases hb : h.waited
      · exact decide_eq_false fun hk => hw ⟨hk, by simp [hb]⟩
      · rfl
    rw [countHeld_of_not_counts hw, hp, hwaited]

theorem fld_waitMarked : (s.waitMarked l i h).fld (Reg.tileGwwait l.tile) 31 16 = s.fld (Reg.tileGwwait l.tile) 31 16 := by
  rw [fld, waitMarked, setLane_reg, fld]

theorem fld_countHeld_of_link (hw : countsWait l h) (hl : 8 ≤ l.out ∧ l.out ≤ 11) :
    (s.countHeld l i h).fld (Reg.tileGwwait l.tile) 31 16 = min (s.fld (Reg.tileGwwait l.tile) 31 16 + 1) 65535 := by
  have he : s.countHeld l i h = (s.waitMarked l i h).count (Reg.tileGwwait l.tile) 31 16 1 := by
    rw [countHeld, if_pos hw, if_pos hl, waitMarked]
  rw [he, fld_count _ _ _ _ _ (by decide) (by decide), fld_waitMarked]
  rfl

/-- What is counted elsewhere is not LINKWAIT. -/
theorem fld_countHeld_of_inner (hl : ¬ (8 ≤ l.out ∧ l.out ≤ 11)) :
    (s.countHeld l i h).fld (Reg.tileGwwait l.tile) 31 16 = s.fld (Reg.tileGwwait l.tile) 31 16 := by
  by_cases hw : countsWait l h
  · rw [countHeld, if_pos hw, if_neg hl]
    split
    · rw [count, fld_setFld_other _ _ _ _ _ _ _ (by decide) (by decide)]
      exact fld_waitMarked
    · exact fld_waitMarked
  · rw [countHeld_of_not_counts hw]

/-- LINKWAIT counts it once, at a link output. -/
theorem fld_countHeld : (s.countHeld l i h).fld (Reg.tileGwwait l.tile) 31 16 =
    if l.kind = 2 ∧ h.waited = false ∧ 8 ≤ l.out ∧ l.out ≤ 11 then min (s.fld (Reg.tileGwwait l.tile) 31 16 + 1) 65535
    else s.fld (Reg.tileGwwait l.tile) 31 16 := by
  by_cases hl : 8 ≤ l.out ∧ l.out ≤ 11
  · by_cases hw : countsWait l h
    · rw [fld_countHeld_of_link hw hl, if_pos ⟨hw.1, by simpa using hw.2, hl⟩]
    · rw [countHeld_of_not_counts hw, if_neg fun hn => hw ⟨hn.1, by simp [hn.2.1]⟩]
  · rw [fld_countHeld_of_inner hl, if_neg fun hn => hl hn.2.2]

end State

end Sys2Proof.Machine
open Sys2Proof Sys2Proof.Machine

/-- Settles O12: by whether the next place is free and open, and what `enterPlace` then makes of the lane-byte; `State.laneFault_closes`
says what a fault changes, and the facts about `State.countHeld` what waiting does. -/
theorem stagePassesALaneByte : Obligations.StagePassesALaneByte := by
  intro s l i h err hl hp
  rw [exec_laneStagePass]
  refine ⟨fun ho hc hb => ?counted, fun ho hc hb => ?even, fun ho hu => ?uncounted, fun ho => ?waits⟩
  case counted =>
    rw [State.stagePass_of_enters hp err ho (enterPlace_of_odd hc hb)]
    exact ⟨_, rfl, rfl, s.setLane_lanesKept l _, State.movedOn_from _, _, State.movedOn_to _, oddOk_advance _, st_advance _,
      cp_advance _, data_advance _⟩
  case even =>
    have hf := s.laneFault_closes hl (kind := 0) (by decide) (i + 1) (tagOf (h.b ^^^ err))
    rw [State.stagePass_of_refused hp err ho (enterPlace_of_even hc hb)]
    obtain ⟨-, hfree, -⟩ := ho
    exact ⟨_, rfl, (hf.place l i).trans hp, (hf.place l (i + 1)).trans hfree, hf.closedAt, hf.lfault, hf.seqFault, hf.memoryKept⟩
  case uncounted =>
    rw [State.stagePass_of_enters hp err ho (enterPlace_of_uncounted hu _)]
    exact ⟨_, rfl, rfl, s.setLane_lanesKept l _, State.movedOn_from _, State.movedOn_to _⟩
  case waits =>
    obtain ⟨hframe, hlanes, hregs⟩ := State.countHeld_frame (s := s) (l := l) (i := i) (h := h)
    rw [State.stagePass_of_shut hp err ho]
    exact ⟨_, rfl, hframe, hlanes, hregs, State.countHeld_place hp, State.fld_countHeld⟩
end

section
/-! PROOFS. Accesses to the merge store (R173, R174): which are held, and what one changes when it completes. -/

namespace Sys2Proof.Machine

theorem exec_mergeAccessStart (who : Who) (t : Nat) (v : BitVec 32) (s : State) : exec (.mergeAccessStart who t v) s =
    .next (s.regAccess who (Reg.tileRaccCtrl t) true false (setBit v 31 true) fun s => s.raccStart who t (setBit v 31 true)) := rfl

theorem exec_mergeAccessComplete (t : Nat) (s : State) : exec (.mergeAccessComplete t) s = .next (s.raccDone t) := rfl

namespace State

variable (s : State) (who : Who) {t : Nat} {w : BitVec 32}

/-! ### Whether stores may be written -/

/-- Whether the run stands, and whether a region is parked, rests on the sequencer and two registers (R44, R405). -/
theorem runState_congr {s s' : State} (hq : s'.seq = s.seq) (hd : s'.reg Reg.dbgStat = s.reg Reg.dbgStat)
    (hr : s'.reg (Reg.rgnStat t) = s.reg (Reg.rgnStat t)) : s'.seqState = s.seqState ∧ s'.tileParked t = s.tileParked t := by
  constructor
  · rw [seqState, seqState, hq, flag, flag, hd]
  · rw [tileParked, tileParked, rgnState, rgnState, fld, fld, hr]

/-- The registers of the access are none of these. -/
theorem racc_regs_ne (ht : t < 64) : (∀ k ∈ [Reg.tileRaccCtrl t, Reg.tileRaccStat t, Reg.tileRaccData t],
    Reg.dbgStat ≠ k ∧ Reg.rgnStat t ≠ k ∧ Reg.seqLoss ≠ k) := by
  have hb := tileNode_bounds ht
  simp only [List.forall_mem_cons, Reg.tileRaccCtrl, Reg.tileRaccStat, Reg.tileRaccData, Reg.dbgStat, Reg.rgnStat, Reg.seqLoss]
  refine ⟨?_, ?_, ?_, by simp⟩ <;> omega

/-- A write loses the promise where the device is halted and the region is not parked (R85, R174). -/
def unbarWhen (s : State) (t : Nat) (wr : Bool) : State := if wr then s.unbarIfHalted t else s

theorem unbarWhen_onlyRegs (t : Nat) (wr : Bool) : s.OnlyRegs (s.unbarWhen t wr) [Reg.seqLoss] :=
  OnlyRegs.ite (OnlyRegs.ite (OnlyRegs.setFlag (by simp) _ _ _) OnlyRegs.refl) OnlyRegs.refl

theorem flag_unbarWhen (t : Nat) (wr : Bool) :
    (s.unbarWhen t wr).flag Reg.seqLoss 1 = (s.flag Reg.seqLoss 1 || (wr && s.seqState == 3 && !s.tileParked t)) := by
  cases wr with
  | false => simp [unbarWhen]
  | true =>
    rw [unbarWhen, if_pos rfl, unbarIfHalted]
    split
    · next h => rw [loss, flag_setFlag _ _ _ _ (by decide), Bool.true_and, h, Bool.or_true]
    · next h => rw [Bool.true_and, Bool.eq_false_iff.mpr h, Bool.or_false]

/-! ### The start of an access -/

/-- Whether an access is held, as the tile checks it (R173, R174). -/
def raccCheck (s : State) (t : Nat) (w : BitVec 32) : Bool :=
  (s.tile t).racc.isNone && (raccLane t w).isSome && (decide (bits w 10 0 < 1024) || bits w 10 0 == 0x7FF) &&
    (!w.getLsbD 30 || (s.codeWritable t && !(bits w 10 0 == 0x7FF && decide (1024 < bits (s.reg (Reg.tileRaccData t)) 10 0))))

theorem raccCheck_iff : s.raccCheck t w = true ↔
    (s.tile t).racc = none ∧ (raccLane t w).isSome = true ∧ (bits w 10 0 < 1024 ∨ bits w 10 0 = 0x7FF) ∧
      (w.getLsbD 30 = true → s.codeWritable t = true ∧
        ¬ (bits w 10 0 = 0x7FF ∧ 1024 < bits (s.reg (Reg.tileRaccData t)) 10 0)) := by
  simp only [raccCheck, Bool.and_eq_true, Bool.or_eq_true, Option.isNone_iff_eq_none, decide_eq_true_eq, beq_iff_eq,
    Bool.not_eq_true', Bool.and_eq_false_iff, decide_eq_false_iff_not, beq_eq_false_iff_ne, not_and_or, and_assoc,
    imp_iff_not_or, Bool.not_eq_true, ne_eq]

/-- The word that starts an access: GO is set, and changes neither the place nor the direction. -/
theorem setBit_go (v : BitVec 32) : (setBit v 31 true).getLsbD 31 = true ∧ (setBit v 31 true).getLsbD 30 = v.getLsbD 30 ∧
    bits (setBit v 31 true) 10 0 = bits v 10 0 :=
  ⟨getLsbD_setBits_same v 31 true (by decide), getLsbD_setBits_other _ _ _ _ _ (by decide) (by decide),
    bits_setBits_other _ _ _ _ _ _ (by decide) (by decide)⟩

/-- The command is written, without GO. -/
def raccWritten (s : State) (t : Nat) (w : BitVec 32) : State := s.setReg (Reg.tileRaccCtrl t) (w &&& 0x7FFFFFFF#32)

theorem tile_raccWritten (k : Nat) : (s.raccWritten t w).tile k = s.tile k := by rw [tile, raccWritten, setReg_tiles, tile]

/-- The tile with the access in hand, and the data register as it stands. -/
def raccTile (s : State) (who : Who) (t : Nat) (w : BitVec 32) : Tile :=
  { s.tile t with racc := some { cmd := w, who := who, data := (s.reg (Reg.tileRaccData t)).setWidth 128 } }

/-- The access is held, and BUSY says so. -/
def raccHeld (s : State) (who : Who) (t : Nat) (w : BitVec 32) : State :=
  (s.setTile t (s.raccTile who t w)).setFlag (Reg.tileRaccStat t) 0 true

theorem raccStart_eq (hgo : w.getLsbD 31 = true) : s.raccStart who t w =
    if (s.raccWritten t w).raccCheck t w then ((s.raccWritten t w).raccHeld who t w).unbarWhen t (w.getLsbD 30)
    else (s.raccWritten t w).setFlag (Reg.tileRaccStat t) 2 true := by
  unfold raccStart raccCheck raccHeld raccTile unbarWhen raccWritten
  dsimp only
  rw [if_pos hgo]

theorem data_raccWritten : (s.raccWritten t w).reg (Reg.tileRaccData t) = s.reg (Reg.tileRaccData t) :=
  s.reg_setReg_other (by unfold Reg.tileRaccData Reg.tileRaccCtrl; omega) _

theorem raccTile_raccWritten : (s.raccWritten t w).raccTile who t w = s.raccTile who t w := by
  rw [raccTile, tile_raccWritten, data_raccWritten, raccTile]

variable (ht : t < 64)
include ht

theorem runState_raccWritten :
    (s.raccWritten t w).seqState = s.seqState ∧ (s.raccWritten t w).tileParked t = s.tileParked t := by
  obtain ⟨hd, hr, -⟩ := racc_regs_ne ht (Reg.tileRaccCtrl t) (by simp)
  exact runState_congr (s.setReg_seq _ _) (s.reg_setReg_other hd _) (s.reg_setReg_other hr _)

theorem raccCheck_raccWritten : (s.raccWritten t w).raccCheck t w = s.raccCheck t w := by
  obtain ⟨hrun, hparked⟩ := s.runState_raccWritten ht (w := w)
  rw [raccCheck, raccCheck, codeWritable, codeWritable, hrun, hparked, data_raccWritten, tile_raccWritten]

section held

variable (hgo : w.getLsbD 31 = true) (h : s.raccCheck t w = true)
include hgo h

theorem raccStart_of_allowed : s.raccStart who t w = ((s.raccWritten t w).raccHeld who t w).unbarWhen t (w.getLsbD 30) := by
  rw [raccStart_eq _ _ hgo, raccCheck_raccWritten _ ht, if_pos h]

theorem raccStart_frame_of_allowed : ∃ r, s.raccStart who t w = { s.setTile t (s.raccTile who t w) with regs := r } := by
  obtain ⟨ra, hw⟩ : ∃ r, s.raccWritten t w = { s with regs := r } := ⟨_, s.setReg_frame _ _⟩
  obtain ⟨rh, hh⟩ : ∃ r, (s.raccWritten t w).raccHeld who t w =
      { (s.raccWritten t w).setTile t (s.raccTile who t w) with regs := r } := by
    rw [raccHeld, raccTile_raccWritten]
    exact setFlag_frame _ _ _ _
  rw [raccStart_of_allowed s who ht hgo h, (unbarWhen_onlyRegs _ _ _).1, hh, hw]
  exact ⟨_, rfl⟩

theorem raccStart_regsKept_of_allowed :
    s.RegsKept (s.raccStart who t w) [Reg.tileRaccCtrl t, Reg.tileRaccStat t, Reg.seqLoss] := by
  intro k hk
  simp only [List.mem_cons, List.not_mem_nil, or_false, not_or] at hk
  obtain ⟨hctrl, hstat, hloss⟩ := hk
  rw [raccStart_of_allowed s who ht hgo h, (unbarWhen_onlyRegs _ _ _).2 k (by simpa using hloss), raccHeld,
    reg_setFlag_other _ hstat, setTile_reg, raccWritten, reg_setReg_other _ hctrl]

theorem raccStart_busy_of_allowed : (s.raccStart who t w).flag (Reg.tileRaccStat t) 0 = true := by
  have hl := (racc_regs_ne ht (Reg.tileRaccStat t) (by simp)).2.2
  rw [raccStart_of_allowed s who ht hgo h, flag, (unbarWhen_onlyRegs _ _ _).2 _ (by simpa using hl.symm), raccHeld]
  exact flag_setFlag _ _ _ _ (by decide)

theorem raccStart_loss_of_allowed : (s.raccStart who t w).flag Reg.seqLoss 1 =
    (s.flag Reg.seqLoss 1 || (w.getLsbD 30 && s.seqState == 3 && !s.tileParked t)) := by
  obtain ⟨hrun, hparked⟩ := s.runState_raccWritten ht (w := w)
  obtain ⟨hd, hr, hl⟩ := racc_regs_ne ht (Reg.tileRaccStat t) (by simp)
  have hl' := (racc_regs_ne ht (Reg.tileRaccCtrl t) (by simp)).2.2
  have hother : ∀ k, k ≠ Reg.tileRaccStat t → ((s.raccWritten t w).raccHeld who t w).reg k = (s.raccWritten t w).reg k :=
    fun k hk => by rw [raccHeld, reg_setFlag_other _ hk, setTile_reg]
  obtain ⟨hrun', hparked'⟩ := runState_congr (t := t) (s := s.raccWritten t w) (s' := (s.raccWritten t w).raccHeld who t w)
    (by rw [raccHeld, setFlag_seq, setTile_seq]) (hother _ hd) (hother _ hr)
  rw [raccStart_of_allowed s who ht hgo h, flag_unbarWhen, hrun', hparked', hrun, hparked, flag, hother _ hl, raccWritten,
    reg_setReg_other _ hl', flag]

end held

theorem raccStart_of_refused (hgo : w.getLsbD 31 = true) (h : ¬ s.raccCheck t w = true) :
    s.raccStart who t w = (s.raccWritten t w).setFlag (Reg.tileRaccStat t) 2 true := by
  rw [raccStart_eq _ _ hgo, raccCheck_raccWritten _ ht, if_neg h]

omit ht

/-! ### The completion of an access (R174) -/

/-- The access is no longer in hand, and BUSY is 0. -/
def raccCleared (s : State) (t : Nat) : State :=
  (s.setTile t { s.tile t with racc := none }).setFlag (Reg.tileRaccStat t) 0 false

/-- The lane that a write leaves. -/
def raccStored (x : Lane) (a : StoreAcc) : Lane :=
  if bits a.cmd 10 0 = 0x7FF then { x with n := bits a.data 10 0 }
  else { x with ent := tput (fun _ => 0) (bits a.cmd 10 0) (a.data.setWidth 16) x.ent }

/-- The word that a read gives. -/
def raccRead (x : Lane) (a : StoreAcc) : BitVec 32 :=
  if bits a.cmd 10 0 = 0x7FF then BitVec.ofNat 32 x.n else (x.entry (bits a.cmd 10 0)).setWidth 32

theorem raccCleared_frame (t : Nat) :
    ∃ r, s.raccCleared t = { s.setTile t { s.tile t with racc := none } with regs := r } := setFlag_frame _ _ _ _

theorem lane_raccCleared (l : LaneId) : (s.raccCleared t).lane l = s.lane l := by
  obtain ⟨r, h⟩ := s.raccCleared_frame t
  rw [h]
  rfl

theorem raccCleared_reg_other {k : Nat} (hk : k ≠ Reg.tileRaccStat t) : (s.raccCleared t).reg k = s.reg k := by
  rw [raccCleared, reg_setFlag_other _ hk, setTile_reg]

theorem flag_raccCleared (t : Nat) : (s.raccCleared t).flag (Reg.tileRaccStat t) 0 = false := flag_setFlag _ _ _ _ (by decide)

section done

variable {s} {a : StoreAcc} {l : LaneId} (ha : (s.tile t).racc = some a) (hl : raccLane t a.cmd = some l)
include ha hl

theorem raccDone_of_write (hw : a.cmd.getLsbD 30 = true) :
    s.raccDone t = (s.raccCleared t).setLane l (raccStored (s.lane l) a) := by
  rw [← lane_raccCleared (t := t)]
  unfold raccDone raccStored
  simp only [ha, hl, hw, if_true]
  split <;> rfl

theorem raccDone_of_read (hw : a.cmd.getLsbD 30 = false) :
    s.raccDone t = (s.raccCleared t).setReg (Reg.tileRaccData t) (raccRead (s.lane l) a) := by
  rw [← lane_raccCleared (t := t)]
  simp only [raccDone, ha, hl, hw, Bool.false_eq_true, if_false]
  rfl

/-- What both leave: the lane named and two registers may have changed, and the access is no longer in hand. -/
theorem raccDone_frame : ∃ r ls, s.raccDone t = { s.setTile t { s.tile t with racc := none } with regs := r, lanes := ls } := by
  obtain ⟨r, hr⟩ := s.raccCleared_frame t
  cases hw : a.cmd.getLsbD 30 with
  | true => rw [raccDone_of_write ha hl hw, hr]; exact ⟨_, _, rfl⟩
  | false => rw [raccDone_of_read ha hl hw, setReg_frame, hr]; exact ⟨_, _, rfl⟩

theorem raccDone_reg {k : Nat} (hk : k ≠ Reg.tileRaccData t) : (s.raccDone t).reg k = (s.raccCleared t).reg k := by
  cases hw : a.cmd.getLsbD 30 with
  | true => rw [raccDone_of_write ha hl hw, setLane_reg]
  | false => rw [raccDone_of_read ha hl hw, reg_setReg_other _ hk]

theorem raccDone_regsKept : s.RegsKept (s.raccDone t) [Reg.tileRaccStat t, Reg.tileRaccData t] := fun k hk => by
  rw [raccDone_reg ha hl (List.ne_of_not_mem_cons (List.not_mem_of_not_mem_cons hk)),
    raccCleared_reg_other _ (List.ne_of_not_mem_cons hk)]

theorem raccDone_lanes (u : Nat) : tget (fun _ => Lane.empty) (s.raccDone t).lanes u =
    if a.cmd.getLsbD 30 = true ∧ u = laneKey l then raccStored (s.lane l) a else tget (fun _ => Lane.empty) s.lanes u := by
  obtain ⟨r, hr⟩ := s.raccCleared_frame t
  cases hw : a.cmd.getLsbD 30 with
  | true =>
    rw [raccDone_of_write ha hl hw, hr]
    exact (tget_tput _ _ _ _ _).trans (if_congr (by simp) rfl rfl)
  | false =>
    rw [raccDone_of_read ha hl hw, setReg_lanes, hr, if_neg fun h => Bool.false_ne_true h.1]
    rfl

theorem raccDone_lane_of_write (hw : a.cmd.getLsbD 30 = true) : (s.raccDone t).lane l = raccStored (s.lane l) a :=
  (raccDone_lanes ha hl _).trans (if_pos ⟨hw, rfl⟩)

theorem raccDone_lane_of_read (hw : a.cmd.getLsbD 30 = false) : (s.raccDone t).lane l = s.lane l :=
  (raccDone_lanes ha hl _).trans (if_neg fun h => Bool.false_ne_true (hw.symm.trans h.1))

end done

end State

end Sys2Proof.Machine

open Sys2Proof Sys2Proof.Machine

/-- Settles O16: `State.raccCheck` is the check of a start, and `State.raccDone_of_write` and its neighbour what a completion leaves. -/
theorem mergeStoreAccesses : Obligations.MergeStoreAccesses := by
  refine ⟨fun s who t v ht hnow => ?start, fun s t a l ht ha hl => ?done⟩
  case start =>
    obtain ⟨hgo, hwr, hplace⟩ := State.setBit_go v
    have hcheck := s.raccCheck_iff (t := t) (w := setBit v 31 true)
    rw [hwr, hplace] at hcheck
    rw [exec_mergeAccessStart, s.regAccess_of_regNow _ hnow]
    refine ⟨fun hok => ?held, fun hbad => ?refused⟩
    case held =>
      obtain ⟨r, hr⟩ := s.raccStart_frame_of_allowed who ht hgo (hcheck.mpr hok)
      refine ⟨_, rfl, ?_, s.raccStart_regsKept_of_allowed who ht hgo (hcheck.mpr hok),
        s.raccStart_busy_of_allowed who ht hgo (hcheck.mpr hok), ?_, ?_, fun k hk => ?_⟩
      · rw [hr]; rfl
      · rw [s.raccStart_loss_of_allowed who ht hgo (hcheck.mpr hok), hwr]
      · rw [hr]; exact s.tile_setTile t (s.raccTile who t _)
      · rw [hr]; exact s.tile_setTile_other t (s.raccTile who t _) k hk
    case refused =>
      have hne : Reg.tileRaccStat t ≠ Reg.tileRaccCtrl t := by unfold Reg.tileRaccStat Reg.tileRaccCtrl; omega
      rw [s.raccStart_of_refused who ht hgo fun h => hbad (hcheck.mp h)]
      refine ⟨_, rfl, (State.OnlyRegs.setReg (by simp) _ _).trans (State.OnlyRegs.setFlag (by simp) _ _ _),
        State.flag_setFlag _ _ _ _ (by decide), ?_⟩
      rw [State.flag_setFlag_other _ _ _ _ _ (by decide) (by decide), State.flag, State.raccWritten, s.reg_setReg_other hne,
        State.flag]
  case done =>
    have hne : Reg.tileRaccData t ≠ Reg.tileRaccStat t := by unfold Reg.tileRaccData Reg.tileRaccStat; omega
    obtain ⟨r, ls, hst⟩ := State.raccDone_frame ha hl
    rw [exec_mergeAccessComplete]
    refine ⟨_, rfl, ?_, State.raccDone_regsKept ha hl, fun k hk => ?_, ?_, ?_, fun k hk => ?_, fun hw hk => ?_, fun hw hk => ?_,
      fun hw => ?_, fun hw => ⟨State.raccDone_lane_of_read ha hl hw, ?_⟩⟩
    · rw [hst]; rfl
    · rw [State.raccDone_lanes ha hl, if_neg fun h => hk (List.mem_singleton.mpr h.2)]
    · rw [State.flag, State.raccDone_reg ha hl hne.symm]; exact s.flag_raccCleared t
    · rw [hst]; exact s.tile_setTile t _
    · rw [hst]; exact s.tile_setTile_other t _ k hk
    · rw [State.raccDone_lane_of_write ha hl hw, State.raccStored, if_neg hk]
      exact ⟨rfl, tget_tput_same _ _ _ _, fun i hi => tget_tput_other _ hi _ _⟩
    · rw [State.raccDone_lane_of_write ha hl hw, State.raccStored, if_pos hk]
    · rw [State.raccDone_of_write ha hl hw, State.setLane_reg, s.raccCleared_reg_other hne]
    · rw [State.raccDone_of_read ha hl hw, State.reg_setReg_same, State.raccRead]
end

section
/-! PROOFS. Where output lanes take from (R147, R152): the lane that a merge entry names lies within the device and is
never the lane that takes. -/

namespace Sys2Proof.Machine

theorem LaneId.ext_of_fields {u l : LaneId} (hk : u.kind = l.kind) (ht : u.tile = l.tile) (hr : u.row = l.row) (hc : u.col = l.col)
    (ho : u.out = l.out) (hl : u.lane = l.lane) : u = l := by
  cases u; cases l; simp_all

/-- Lanes within the device have keys of their own. -/
theorem laneKey_injective {u l : LaneId} (hu : WellFormed.laneIdOk u = true) (hl : WellFormed.laneIdOk l = true)
    (h : laneKey u = laneKey l) : u = l := by
  obtain ⟨-, ht, hr, hc, ho, hn⟩ := laneIdOk_iff.mp hu
  obtain ⟨-, ht', hr', hc', ho', hn'⟩ := laneIdOk_iff.mp hl
  unfold laneKey at h
  apply LaneId.ext_of_fields <;> omega

theorem laneIdOk_routerLane {t row col out lane : Nat} (ht : t < 64) (hr : row < 9) (hc : col < 8) (ho : out < 16)
    (hn : lane < 8) : WellFormed.laneIdOk (routerLane t row col out lane) = true :=
  laneIdOk_iff.mpr ⟨(by decide : 1 < 5), ht, hr, hc, ho, Nat.lt_of_lt_of_le hn (by decide)⟩

theorem laneIdOk_gatewayLane {t out lane : Nat} (ht : t < 64) (ho : out < 16) (hn : lane < 36) :
    WellFormed.laneIdOk (gatewayLane t out lane) = true :=
  laneIdOk_iff.mpr ⟨(by decide : 2 < 5), ht, Nat.zero_lt_succ _, Nat.zero_lt_succ _, ho, Nat.lt_of_lt_of_le hn (by decide)⟩

theorem LaneId.ne_of_kind {u l : LaneId} {k : Nat} (hl : l.kind = k) (h : u.kind ≠ k) : u ≠ l := fun he => h (he ▸ hl)

/-- A neighbouring tile is another tile (R6). -/
theorem nextTile_other {t d n : Nat} (ht : t < 64) (h : nextTile t d = some n) : n < 64 ∧ n ≠ t := by
  have hx : tileX t = t % 8 + 1 := rfl
  have hy : tileY t = t / 8 + 1 := rfl
  unfold nextTile tileAt at h
  split at h <;> split at h <;> simp only [Option.some.injEq, reduceCtorEq] at h <;> omega

/-- The attachment lane of a router is one of its tile's gateway (R152). -/
theorem attachOf_bounds {row col lane : Nat} {p : Nat × Nat} (hr : row < 9) (hc : col < 8) (h : attachOf row col lane = some p) :
    p.1 < 4 ∧ p.2 < 36 := by
  have hvert : lane < 4 → some (if row = 8 then 0 else 2, 4 * col + lane) = some p → p.1 < 4 ∧ p.2 < 36 := by
    rintro hlane hq
    obtain rfl := Option.some.inj hq
    exact ⟨by dsimp only; split <;> decide, by dsimp only; omega⟩
  have hhoriz : ∀ k, k < 4 → some (if col = 7 then 1 else 3, 4 * row + k) = some p → p.1 < 4 ∧ p.2 < 36 := by
    rintro k hk hq
    obtain rfl := Option.some.inj hq
    exact ⟨by dsimp only; split <;> decide, by dsimp only; omega⟩
  unfold attachOf at h
  dsimp only at h
  split at h
  · split at h
    · exact hvert (by assumption) h
    · split at h
      · exact hhoriz _ (by omega) h
      · cases h
  · split at h
    · split at h
      · exact hvert (by assumption) h
      · cases h
    · split at h
      · split at h
        · exact hhoriz _ (by assumption) h
        · cases h
      · cases h

/-- A router output lane stands behind the attachment lane of a gateway (R152). -/
theorem routerOf_bounds {side lane : Nat} {p : Nat × Nat × Nat} (h : routerOf side lane = some p) :
    p.1 < 9 ∧ p.2.1 < 8 ∧ p.2.2 < 8 ∧ lane < 36 := by
  unfold routerOf at h
  dsimp only at h
  split at h
  · split at h
    · obtain rfl := Option.some.inj h
      exact ⟨by dsimp only; split <;> decide, by dsimp only; omega, by dsimp only; omega, by omega⟩
    · cases h
  · split at h
    · obtain rfl := Option.some.inj h
      exact ⟨by dsimp only; omega, by dsimp only; split <;> decide, by dsimp only; split <;> omega, by assumption⟩
    · cases h

namespace State

variable {s : State} {l u : LaneId} {src lane : Nat} {w : Option Nat} (hl : WellFormed.laneIdOk l = true)
include hl

/-- The source of a router's output stands elsewhere in the tile (R147, R152). -/
theorem sourceOf_router (hk : l.kind = 1) (h : s.sourceOf l src lane = some (u, w)) : WellFormed.laneIdOk u = true ∧ u ≠ l := by
  obtain ⟨-, ht, hr, hc, -, -⟩ := laneIdOk_iff.mp hl
  have hnext : ∀ {row col out}, (row < 9 ∧ col < 8 ∧ out < 16 ∧ lane < 8) → (row ≠ l.row ∨ col ≠ l.col) →
      some (routerLane l.tile row col out lane, none) = some (u, w) → WellFormed.laneIdOk u = true ∧ u ≠ l := by
    rintro row col out ⟨hrow, hcol, hout, hlane⟩ hne hq
    obtain ⟨rfl, -⟩ := Prod.mk.inj (Option.some.inj hq)
    exact ⟨laneIdOk_routerLane ht hrow hcol hout hlane,
      fun he => hne.elim (fun h => h (congrArg LaneId.row he)) fun h => h (congrArg LaneId.col he)⟩
  unfold sourceOf at h
  rw [if_pos hk] at h
  split at h
  · split at h
    · obtain ⟨rfl, -⟩ := Prod.mk.inj (Option.some.inj h)
      have hb : l.tile < 64 ∧ (8 * l.row + l.col) / 8 < 9 ∧ (8 * l.row + l.col) % 8 < 8 ∧ lane < 256 := by omega
      exact ⟨laneIdOk_iff.mpr ⟨Nat.zero_lt_succ _, hb.1, hb.2.1, hb.2.2.1, Nat.zero_lt_succ _, hb.2.2.2⟩,
        LaneId.ne_of_kind hk (by decide : 0 ≠ 1)⟩
    · cases h
  · split at h
    · exact hnext (by omega) (by omega) h
    · cases h
  · split at h
    · exact hnext (by omega) (by omega) h
    · cases h
  · split at h
    · exact hnext (by omega) (by omega) h
    · cases h
  · split at h
    · exact hnext (by omega) (by omega) h
    · cases h
  · obtain ⟨p, hp, hq⟩ := Option.map_eq_some_iff.mp h
    obtain ⟨hside, hlane⟩ := attachOf_bounds hr hc hp
    obtain ⟨rfl, -⟩ := Prod.mk.inj hq
    exact ⟨laneIdOk_gatewayLane ht (by omega) hlane, LaneId.ne_of_kind hk (by decide : 2 ≠ 1)⟩
  · cases h

/-- The source of a gateway's output is a port side, a neighbouring tile's gateway, a router or a welt's own lane (R147, R152,
R413). -/
theorem sourceOf_gateway (hk : l.kind = 2) (h : s.sourceOf l src lane = some (u, w)) : WellFormed.laneIdOk u = true ∧ u ≠ l := by
  obtain ⟨-, ht, -⟩ := laneIdOk_iff.mp hl
  have hlink : ∀ {d out}, out < 16 →
      (if lane < 32 then (nextTile l.tile d).map fun n => (gatewayLane n out lane, none) else none) = some (u, w) →
      WellFormed.laneIdOk u = true ∧ u ≠ l := by
    rintro d out hout hq
    split at hq
    · obtain ⟨n, hn, hq⟩ := Option.map_eq_some_iff.mp hq
      obtain ⟨hn, hne⟩ := nextTile_other ht hn
      obtain ⟨rfl, -⟩ := Prod.mk.inj hq
      exact ⟨laneIdOk_gatewayLane hn hout (by omega), fun he => hne (congrArg LaneId.tile he)⟩
    · cases hq
  have hwelt : ∀ {side}, side < 4 → ((routerOf side lane).map fun p =>
      if s.tileOut l.tile then (weltLane l.tile (weltIdx side lane), none)
      else (routerLane l.tile p.1 p.2.1 5 p.2.2, some (weltIdx side lane))) = some (u, w) →
      WellFormed.laneIdOk u = true ∧ u ≠ l := by
    rintro side hside hq
    obtain ⟨p, hp, hq⟩ := Option.map_eq_some_iff.mp hq
    obtain ⟨hrow, hcol, hn, hlane⟩ := routerOf_bounds hp
    split at hq
    · obtain ⟨rfl, -⟩ := Prod.mk.inj hq
      have hidx : weltIdx side lane < 256 := by unfold weltIdx; omega
      exact ⟨laneIdOk_iff.mpr ⟨(by decide : 4 < 5), ht, Nat.zero_lt_succ _, Nat.zero_lt_succ _, Nat.zero_lt_succ _, hidx⟩,
        LaneId.ne_of_kind hk (by decide : 4 ≠ 2)⟩
    · obtain ⟨rfl, -⟩ := Prod.mk.inj hq
      exact ⟨laneIdOk_routerLane ht hrow hcol (by decide) hn, LaneId.ne_of_kind hk (by decide : 1 ≠ 2)⟩
  unfold sourceOf at h
  rw [if_neg (by omega)] at h
  split at h
  · split at h
    · obtain ⟨rfl, -⟩ := Prod.mk.inj (Option.some.inj h)
      have hlane : lane < 256 := by omega
      exact ⟨laneIdOk_iff.mpr ⟨(by decide : 3 < 5), ht, Nat.zero_lt_succ _, Nat.zero_lt_succ _, Nat.zero_lt_succ _, hlane⟩,
        LaneId.ne_of_kind hk (by decide : 3 ≠ 2)⟩
    · cases h
  · exact hlink (by decide) h
  · exact hlink (by decide) h
  · exact hlink (by decide) h
  · exact hlink (by decide) h
  · exact hwelt (by decide) h
  · exact hwelt (by decide) h
  · exact hwelt (by decide) h
  · exact hwelt (by decide) h
  · cases h

/-- The lane that takes is never its own source. -/
theorem laneKey_sourceOf (hk : l.kind = 1 ∨ l.kind = 2) (h : s.sourceOf l src lane = some (u, w)) : laneKey u ≠ laneKey l := by
  obtain ⟨hu, hne⟩ := hk.elim (fun hk => sourceOf_router hl hk h) fun hk => sourceOf_gateway hl hk h
  exact fun he => hne (laneKey_injective hu hl he)

end State

end Sys2Proof.Machine
end

section
/-! PROOFS. MERGE_TAKE (R150, R151, R155, R166, R412): the head of a source that a lane takes, the credit and the welt that go with it,
and the entries and lane-bytes of even parity. -/

namespace Sys2Proof.Machine

theorem exec_mergeTake (l : LaneId) (err : LaneByte) (flip : BitVec 16) (s : State) :
    exec (.mergeTake l err flip) s = .next (s.mergeTake l err flip) := rfl

/-- Whether the first eyelet of a merging lane counts is a matter of EYE alone (R155). -/
theorem first_uncounted_iff {l : LaneId} (hk : l.kind = 1 ∨ l.kind = 2) (eye : Nat) : 0 < eyelets l ∧ eye ≤ 0 ↔ eye = 0 := by
  rcases hk with hk | hk <;> simp [eyelets, hk]

/-- What the first place of a merging lane makes of a byte (R155). -/
theorem enterPlace_first {l : LaneId} (hk : l.kind = 1 ∨ l.kind = 2) {eye : Nat} {b : LaneByte} (h : eye = 0 ∨ oddOk b = true) :
    enterPlace l 0 eye b = some (if eye = 0 then b else advance b) := by
  by_cases he : eye = 0
  · rw [if_pos he, enterPlace_of_uncounted ((first_uncounted_iff hk eye).mpr he)]
  · rw [if_neg he, enterPlace_of_odd (fun hn => he ((first_uncounted_iff hk eye).mp hn)) (h.resolve_left he)]

/-- The lane with a lane-byte in its first place, at its next entry (R150). -/
def Lane.taken (x : Lane) (h : Held) : Lane :=
  { x.setPlace 0 (some h) with idx := if x.idx + 1 < x.n then x.idx + 1 else 0 }

theorem Lane.place_taken (x : Lane) (h : Held) : (x.taken h).place 0 = some h := x.place_setPlace 0 (some h)

theorem Lane.idx_taken (x : Lane) (h : Held) : (x.taken h).idx = if x.idx + 1 < x.n then x.idx + 1 else 0 := rfl

namespace State

variable (s : State)

/-! ### The head of a source (R307) -/

theorem headTaken_frame (u : LaneId) : ∃ ps, s.headTaken u =
    { s.setLane u ((s.lane u).setPlace (s.chainLen u - 1) none) with ports := ps } := by
  unfold headTaken
  dsimp only
  split
  · exact ⟨_, rfl⟩
  · exact ⟨s.ports, rfl⟩

/-- The credit of a link lane's head returns at its port. -/
theorem headTaken_of_link {u : LaneId} {p : Nat} (hu : u.kind = 3) (hp : portAt u.tile = some p) : s.headTaken u =
    (s.setLane u ((s.lane u).setPlace (s.chainLen u - 1) none)).ctrlSend p (creditRecord 0 u.lane 1) := by
  have hb : (u.kind == 3) = true := beq_iff_eq.mpr hu
  simp only [headTaken, hb, hp]

theorem headTaken_of_other {u : LaneId} (hu : u.kind ≠ 3) :
    s.headTaken u = s.setLane u ((s.lane u).setPlace (s.chainLen u - 1) none) := by
  have hb : (u.kind == 3) = false := beq_eq_false_iff_ne.mpr hu
  simp only [headTaken, hb]

/-! ### The welt that a lane-byte passes (R412) -/

theorem weltPass_frame (t : Nat) (w : Option Nat) (inbound : Bool) (b : LaneByte) :
    ∃ ts, s.weltPass t w inbound b = { s with tiles := ts } := by
  unfold weltPass
  split
  · exact ⟨s.tiles, rfl⟩
  · dsimp only
    split
    · exact ⟨_, rfl⟩
    · split
      · exact ⟨_, rfl⟩
      · exact ⟨s.tiles, rfl⟩

theorem weltPass_of_none (t : Nat) (inbound : Bool) (b : LaneByte) : s.weltPass t none inbound b = s := rfl

theorem welt_setWelt (t i : Nat) (w : Welt) : (s.setWelt t i w).welt t i = w := by
  rw [welt, setWelt, tile_setTile, tget_tput_same]

theorem weltPass_inbound (t i : Nat) (b : LaneByte) :
    ((s.weltPass t (some i) true b).welt t i).inb = (s.welt t i).inb + 1 := by
  rw [weltPass, if_pos rfl, welt_setWelt]

theorem weltPass_outbound (t i : Nat) (b : LaneByte) (h : (s.welt t i).rcd.length < 1024) :
    ((s.weltPass t (some i) false b).welt t i).rcd = (s.welt t i).rcd ++ [b.extractLsb' 0 11] := by
  rw [weltPass, if_neg Bool.false_ne_true, if_pos h, welt_setWelt]

/-! ### The take (R150) -/

/-- The merge entry that a lane stands at, as read (R151). -/
def mergeEntry (s : State) (l : LaneId) (flip : BitVec 16) : BitVec 16 := (s.lane l).entry (s.lane l).idx ^^^ flip

/-- EYE of a merge entry: a router's output has at most three (R151). -/
def mergeEye (l : LaneId) (e : BitVec 16) : Nat := if l.kind = 1 then bits e 4 1 % 4 else bits e 4 1

/-- The lane-byte b in the first place: a first eyelet that counts has advanced it (R155). -/
def firstHeld (s : State) (l : LaneId) (flip : BitVec 16) (b : LaneByte) : Held :=
  { b := if mergeEye l (s.mergeEntry l flip) = 0 then b else advance b, eye := mergeEye l (s.mergeEntry l flip), waited := false }

variable {s} {l u : LaneId} {w : Option Nat} {h : Held} (err : LaneByte) {flip : BitVec 16}

/-- The state in which lane l has taken the head of lane u, as b into its first place. -/
def headMoved (s : State) (l u : LaneId) (h : Held) : State := (s.headTaken u).setLane l ((s.lane l).taken h)

section room

variable (hroom : 0 < (s.lane l).n ∧ (s.lane l).place 0 = none ∧ (s.lane l).closedAt 0 = false)
include hroom

theorem mergeTake_of_entry_even (he : oddOk (s.mergeEntry l flip) = false) : s.mergeTake l err flip = s.laneFault l 0 1 0 := by
  obtain ⟨hn, hfree, hopen⟩ := hroom
  unfold mergeEntry at he
  simp [mergeTake, hn, hfree, hopen, he]

section source

variable (he : oddOk (s.mergeEntry l flip) = true)
  (hs : s.sourceOf l (bits (s.mergeEntry l flip) 15 12) (bits (s.mergeEntry l flip) 11 5) = some (u, w))
  (hp : (s.lane u).place (s.chainLen u - 1) = some h) (hopen : s.weltOpen l (bits (s.mergeEntry l flip) 15 12) = true)
include he hs hp hopen

theorem mergeTake_of_refused (hb : enterPlace l 0 (mergeEye l (s.mergeEntry l flip)) (h.b ^^^ err) = none) :
    s.mergeTake l err flip = s.laneFault l 0 0 (tagOf (h.b ^^^ err)) := by
  obtain ⟨hn, hfree, hclosed⟩ := hroom
  unfold mergeEntry mergeEye at *
  simp only [mergeTake, hn, hfree, hclosed, he, hs, hp, hopen, hb, Option.isNone_none, Bool.not_false, Bool.not_true, and_self,
    if_true, Bool.false_eq_true, if_false]

theorem mergeTake_of_enters (hk : l.kind = 1 ∨ l.kind = 2) (hne : laneKey u ≠ laneKey l)
    (hb : mergeEye l (s.mergeEntry l flip) = 0 ∨ oddOk (h.b ^^^ err) = true) : s.mergeTake l err flip =
      (s.headMoved l u (s.firstHeld l flip (h.b ^^^ err))).weltPass l.tile w (l.kind == 1) (h.b ^^^ err) := by
  obtain ⟨hn, hfree, hclosed⟩ := hroom
  have hb := enterPlace_first hk hb
  have hlane : (s.headTaken u).lane l = s.lane l := by
    obtain ⟨ps, hps⟩ := s.headTaken_frame u
    rw [hps]
    exact lane_setLane_other _ _ _ _ hne.symm
  unfold mergeEntry mergeEye at *
  simp only [mergeTake, hn, hfree, hclosed, he, hs, hp, hopen, hb, hlane, Option.isNone_none, Bool.not_false, Bool.not_true, and_self,
    if_true, Bool.false_eq_true, if_false]
  rfl

end source

end room

/-! ### What a take leaves -/

theorem headMoved_frame (l u : LaneId) (h : Held) : ∃ ls ps, s.headMoved l u h = { s with lanes := ls, ports := ps } := by
  obtain ⟨ps, hps⟩ := s.headTaken_frame u
  rw [headMoved, hps]
  exact ⟨_, _, rfl⟩

theorem ctrlSend_port_of_lanes (s : State) (u l : LaneId) (x y : Lane) (p : Nat) (r : BitVec 64) :
    s.PortsKept (((s.setLane u x).ctrlSend p r).setLane l y) p ∧
      (((s.setLane u x).ctrlSend p r).setLane l y).port p = { s.port p with ctrlOut := (s.port p).ctrlOut ++ [r] } :=
  ⟨fun _ hq => tget_tput_other _ hq _ _, s.port_setPort p _⟩

/-- From s to t lane l takes the head of lane u, as x into its first place, and stands at its next entry; of link lanes the credit
returns. Welts may have changed, and nothing else. -/
structure LaneTakes (l u : LaneId) (x : Held) (s t : State) : Prop where
  frame : t = { s with lanes := t.lanes, tiles := t.tiles, ports := t.ports }
  lanesKept : s.LanesKept t [laneKey l, laneKey u]
  source : (t.lane u).place (s.chainLen u - 1) = none
  lane : t.lane l = (s.lane l).taken x
  link : ∀ p, u.kind = 3 → portAt u.tile = some p →
    s.PortsKept t p ∧ t.port p = { s.port p with ctrlOut := (s.port p).ctrlOut ++ [creditRecord 0 u.lane 1] }
  other : u.kind ≠ 3 → t.ports = s.ports

theorem headMoved_laneTakes (hne : laneKey u ≠ laneKey l) (x : Held) : LaneTakes l u x s (s.headMoved l u x) := by
  obtain ⟨ps, hps⟩ := s.headTaken_frame u
  refine ⟨?_, fun k hk => ?_, ?_, lane_setLane _ _ _, fun p hu hp => ?_, fun hu => ?_⟩
  · obtain ⟨ls, ps, hm⟩ := headMoved_frame (s := s) l u x
    rw [hm]
  · rw [headMoved, hps]
    exact (tget_tput_other _ (List.ne_of_not_mem_cons hk) _ _).trans
      (tget_tput_other _ (List.ne_of_not_mem_cons (List.not_mem_of_not_mem_cons hk)) _ _)
  · rw [headMoved, lane_setLane_other _ _ _ _ hne, hps]
    exact (congrArg (fun y : Lane => y.place _) (s.lane_setLane u _)).trans (Lane.place_setPlace _ _ _)
  · rw [headMoved, headTaken_of_link s hu hp]
    exact ctrlSend_port_of_lanes ..
  · rw [headMoved, headTaken_of_other s hu]
    rfl

/-- The welt that the lane-byte passes adds nothing to this. -/
theorem LaneTakes.weltPass {x : Held} {m : State} (h : LaneTakes l u x s m) (t : Nat) (w : Option Nat) (inbound : Bool)
    (b : LaneByte) : LaneTakes l u x s (m.weltPass t w inbound b) := by
  obtain ⟨ts, hts⟩ := m.weltPass_frame t w inbound b
  rw [hts]
  refine ⟨?_, h.lanesKept, h.source, h.lane, h.link, h.other⟩
  rw [h.frame]

theorem welt_headMoved (x : Held) (t i : Nat) : (s.headMoved l u x).welt t i = s.welt t i := by
  obtain ⟨ls, ps, hm⟩ := headMoved_frame (s := s) l u x
  rw [hm]
  rfl

end State

end Sys2Proof.Machine
end

section
/-! PROOFS. LANE_BYTE_ARRIVAL (R20, R22) and PORT_SIDE_DELIVER (R162): a lane-byte that joins an arrival queue, a head of the wrong tag,
and the head of a link lane at its port side. -/

namespace Sys2Proof.Machine

theorem exec_laneByteArrival (t row col j : Nat) (err : LaneByte) (s : State) :
    exec (.laneByteArrival t row col j err) s = .next (s.arrive t (8 * row + col) j err) := rfl

theorem exec_portSideDeliver (p lane : Nat) (s : State) : exec (.portSideDeliver p lane) s = .next (s.portDeliver p lane) := rfl

namespace State

variable (s : State) {t c : Nat}

/-! ### A head of the wrong tag (R22, R26) -/

/-- A cluster's fault whether or not the run has started: `ClusterStops` says what it does in a run. -/
theorem clusterFault_marks (ht : t < 64) (z : Cluster) {b sb : Nat} (hb : b < 32) (hsb : sb < 16) (low code det0 det1 : Nat) :
    (s.clusterFault t c z b low code sb det0 det1).clu t c = { z with faulted := true } ∧
      (s.clusterFault t c z b low code sb det0 det1).flag (Reg.cluFault t c) b = true ∧
      (s.clusterFault t c z b low code sb det0 det1).flag Reg.seqFault sb = true ∧
      (s.clusterFault t c z b low code sb det0 det1).seq.faulted = (s.seq.run || s.seq.faulted) := by
  obtain ⟨v, he, hflag, hclu, hseq⟩ : ∃ v : State, s.clusterFault t c z b low code sb det0 det1 =
      (v.seqReport sb code (tileNode t) (v.lastTile t) det0 det1 0).stopRun ∧ v.flag (Reg.cluFault t c) b = true ∧
      v.clu t c = { z with faulted := true } ∧ v.seq = s.seq := by
    refine ⟨_, rfl, ?_, clu_setClu _ _ _ _, ?_⟩
    · rw [flag, setClu_reg]
      exact flag_setFlag _ _ _ _ hb
    · rw [setClu_seq, setFlag_seq]
      split
      · exact setFld_seq _ _ _ _ _
      · rfl
  obtain ⟨r, x, l, hr⟩ := v.seqReport_frame sb code (tileNode t) (v.lastTile t) det0 det1 0
  rw [he]
  refine ⟨?_, ?_, ?_, ?_⟩
  · rw [hr]; exact hclu
  · rw [flag, stopRun_reg, v.seqReport_reg_other _ _ _ _ _ _ _ (cluFault_not_mem_reportRegs ht)]
    exact hflag
  · rw [flag, stopRun_reg]
    exact v.flag_seqReport _ _ _ _ _ _ _ hsb
  · rw [hr, ← hseq]; rfl

theorem compareHeads_marks (ht : t < 64) {z : Cluster} (hz : s.clu t c = z) (h : headFault z (stepTag s.seq.cycle z.step) ≠ none) :
    (s.compareHeads t c).clu t c = { z with faulted := true } ∧ (s.compareHeads t c).flag (Reg.cluFault t c) 31 = true ∧
      (s.compareHeads t c).flag Reg.seqFault 0 = true ∧ (s.compareHeads t c).seq.faulted = (s.seq.run || s.seq.faulted) := by
  subst hz
  obtain ⟨⟨j, g⟩, hj⟩ := Option.ne_none_iff_exists'.mp h
  simp only [compareHeads, hj]
  exact s.clusterFault_marks ht _ (by decide) (by decide) _ _ _ _

/-! ### The arrival (R20) -/

variable {s} {j : Nat} {h : Held} (err : LaneByte)

/-- The lane-byte has left the in stage for the tail of the arrival queue. -/
def arrived (s : State) (t c j : Nat) (b : LaneByte) : State :=
  (s.setLane (inLane t c j) ((s.lane (inLane t c j)).setPlace 3 none)).setClu t c
    ((s.clu t c).setQueue j ((s.clu t c).queue j ++ [b]))

/-- Whether the lane-byte is the head that a turned cluster looks at. -/
abbrev looksAt (s : State) (t c j : Nat) : Prop :=
  (s.clu t c).turned = true ∧ s.runHeld t c (s.clu t c) = false ∧ (s.clu t c).queue j = []

theorem arrive_of_full (hp : (s.lane (inLane t c j)).place 3 = some h) (hq : 8 ≤ ((s.clu t c).queue j).length) :
    s.arrive t c j err = s := by
  simp only [arrive, hp, if_neg (Nat.not_lt.mpr hq)]

theorem arrive_of_room (hp : (s.lane (inLane t c j)).place 3 = some h) (hq : ((s.clu t c).queue j).length < 8) :
    s.arrive t c j err =
      if looksAt s t c j then (s.arrived t c j (h.b ^^^ err)).compareHeads t c else s.arrived t c j (h.b ^^^ err) := by
  simp only [arrive, hp, if_pos hq]
  refine if_congr ?_ rfl rfl
  simp only [Bool.and_eq_true, Bool.not_eq_true', List.isEmpty_iff, and_assoc]
  rfl

theorem arrived_place (b : LaneByte) : ((s.arrived t c j b).lane (inLane t c j)).place 3 = none ∧
    ∀ i, i ≠ 3 → ((s.arrived t c j b).lane (inLane t c j)).place i = (s.lane (inLane t c j)).place i := by
  have hlane : (s.arrived t c j b).lane (inLane t c j) = (s.lane (inLane t c j)).setPlace 3 none := s.lane_setLane _ _
  rw [hlane]
  exact ⟨Lane.place_setPlace _ _ _, fun i hi => Lane.place_setPlace_other _ hi _⟩

theorem arrived_clu (b : LaneByte) :
    (s.arrived t c j b).clu t c = (s.clu t c).setQueue j ((s.clu t c).queue j ++ [b]) := clu_setClu _ _ _ _

/-! ### The port side (R162) -/

/-- The lane-byte that the bridge shows at the port side: ST is P further, parity is made anew. -/
def bridged (s : State) (p lane : Nat) (b : LaneByte) : LaneByte :=
  mkLaneByte (8 * b2n (b.getLsbD 11) + (bits b 10 8 + s.fld (Reg.lnkChrx p lane) 18 9) % 8) (b.extractLsb' 0 8)

section port

variable {p lane : Nat} {b : LaneByte} {rest : List LaneByte} (hq : tget (fun _ => []) (s.port p).rx lane = b :: rest)
include hq

theorem portDeliver_of_free (hf : (s.lane (portInLane (portTile p) lane)).place 0 = none) : s.portDeliver p lane =
    (s.setPort p { s.port p with rx := tput (fun _ => []) lane rest (s.port p).rx }).setLane (portInLane (portTile p) lane)
      ((s.lane (portInLane (portTile p) lane)).setPlace 0 (some { b := s.bridged p lane b, eye := 0, waited := false })) := by
  simp only [portDeliver, hq, hf, Option.isNone_none, if_true]
  rfl

theorem portDeliver_of_taken (hf : (s.lane (portInLane (portTile p) lane)).place 0 ≠ none) : s.portDeliver p lane = s := by
  have hs : ((s.lane (portInLane (portTile p) lane)).place 0).isNone = false := by
    rw [Option.isNone_eq_false_iff, Option.isSome_iff_ne_none]
    exact hf
  simp only [portDeliver, hq, hs, Bool.false_eq_true, if_false]

end port

end State

end Sys2Proof.Machine

open Sys2Proof Sys2Proof.Machine

/-- Settles O13: the take is `State.mergeTake_of_enters`, of a source that `State.laneKey_sourceOf` sets apart from the lane; the
arrival and the port side are `State.arrive_of_room` and `State.portDeliver_of_free`. -/
theorem lanesTakeFromTheirInputs : Obligations.LanesTakeFromTheirInputs := by
  refine ⟨fun s l u w h err flip hl hk hn hfree hclosed =>
      ⟨fun he => ?entryEven, fun he hs hp hopen => ⟨fun hb => ?takes, fun heye hb => ?byteEven⟩⟩,
    fun s t row col j h err ht _ _ _ hp => ⟨fun hq hn => ?joins, fun hc hf => ?stops, fun hq => ?full⟩,
    fun s p lane b rest _ hq => ⟨fun hf => ?free, fun hf => ?taken⟩⟩
  case entryEven =>
    have hf := s.laneFault_closes hl (kind := 1) (by decide) 0 0
    rw [exec_mergeTake, State.mergeTake_of_entry_even err ⟨hn, hfree, hclosed⟩ he]
    exact ⟨_, rfl, hf.lfault, hf.seqFault, (hf.place l 0).trans hfree, by rw [hf.lane], hf.lanesKept, hf.memoryKept⟩
  case byteEven =>
    have hf := s.laneFault_closes hl (kind := 0) (by decide) 0 (tagOf (h.b ^^^ err))
    rw [exec_mergeTake, State.mergeTake_of_refused err ⟨hn, hfree, hclosed⟩ he hs hp hopen
      (enterPlace_of_even (fun hc => heye ((first_uncounted_iff hk _).mp hc)) hb)]
    exact ⟨_, rfl, hf.lfault, hf.seqFault, (hf.place l 0).trans hfree, (hf.place u _).trans hp, hf.memoryKept⟩
  case takes =>
    have hne := State.laneKey_sourceOf hl hk hs
    rw [exec_mergeTake, State.mergeTake_of_enters err ⟨hn, hfree, hclosed⟩ he hs hp hopen hk hne hb]
    have ht := (State.headMoved_laneTakes (s := s) hne (s.firstHeld l flip (h.b ^^^ err))).weltPass l.tile w (l.kind == 1)
      (h.b ^^^ err)
    refine ⟨_, rfl, ht.frame, ht.lanesKept, ht.source, ?_, ?_, ht.link, ht.other, ?_, fun i hi hk2 hlen => ?_⟩
    · rw [ht.lane, Lane.place_taken]
      rfl
    · rw [ht.lane, Lane.idx_taken]
    · cases w with
      | none =>
        obtain ⟨ls, ps, hm⟩ := State.headMoved_frame (s := s) l u (s.firstHeld l flip (h.b ^^^ err))
        rw [State.weltPass_of_none, hm]
      | some i =>
        intro hk1
        rw [hk1, beq_self_eq_true, State.weltPass_inbound, State.welt_headMoved]
    · rw [hi, hk2, show (2 == 1) = false from rfl, State.weltPass_outbound _ _ _ _ (by rwa [State.welt_headMoved]),
        State.welt_headMoved]
  case joins =>
    have hnot : s.arrive t (8 * row + col) j err = s.arrived t (8 * row + col) j (h.b ^^^ err) := by
      rw [State.arrive_of_room err hp hq]
      split
      · next hc =>
        refine State.compareHeads_of_right ?_
        rw [State.arrived_clu]
        exact hn.resolve_left (not_not_intro hc)
      · rfl
    rw [exec_laneByteArrival, hnot]
    refine ⟨_, rfl, rfl, ?_, (State.arrived_place _).1, fun i hi => ?_, (State.arrived_place _).2,
      fun k hk => tget_tput_other _ hk _ _, s.setLane_lanesKept (inLane t (8 * row + col) j) _⟩
    · rw [State.arrived_clu]
      exact Cluster.queue_setQueue _ _ _
    · rw [State.arrived_clu]
      exact Cluster.queue_setQueue_other _ hi _
  case stops =>
    obtain ⟨hclu, hfault, hseq, hrun⟩ :=
      (s.arrived t (8 * row + col) j (h.b ^^^ err)).compareHeads_marks ht (State.arrived_clu _) hf
    obtain ⟨-, -, hempty⟩ := id hc
    have hq : ((s.clu t (8 * row + col)).queue j).length < 8 := by rw [hempty]; decide
    rw [exec_laneByteArrival, State.arrive_of_room err hp hq, if_pos hc]
    exact ⟨_, rfl, hclu, hfault, hseq, hrun⟩
  case full => rw [exec_laneByteArrival, State.arrive_of_full err hp hq]
  case free =>
    rw [exec_portSideDeliver, State.portDeliver_of_free hq hf]
    have hport : ∀ x y l, ((s.setPort p x).setLane l y).port p = x := fun x _ _ => s.port_setPort p x
    refine ⟨_, rfl, rfl, State.setLane_lanesKept (s.setPort p _) (portInLane (portTile p) lane) _,
      fun q hqp => tget_tput_other _ hqp _ _, ?_, ?_, fun k hk => ?_, ?_⟩
    · rw [hport]
    · rw [hport, tget_tput_same]
    · rw [hport, tget_tput_other _ hk]
    · rw [State.lane_setLane, Lane.place_setPlace]
      rfl
  case taken => rw [exec_portSideDeliver, State.portDeliver_of_taken hq hf]
end

section
/-! PROOFS. Trace rings: a ring outside the data spaces. The statement does not ask that the ring's base is an address of data (R470),
and a write into the control space of a node meets nothing that stops it. -/

namespace Sys2Proof.Machine

theorem exec_ringWrite (n : Nat) (e : RingEnd) (s : State) :
    exec (.ringWrite n e) s = .next (if s.ttOn && decide (n < 8) then s.ringWrite n e.ok e.ecc else s) := rfl

/-- Stream 0 has a packet of one word, 1, in staging, and a ring of 512 words at the start of the control space of the node of row 9,
column 6. -/
def ringInControl : State :=
  (((State.reset.setFld (Reg.pwrDom 78) 26 24 2).setReg (Reg.ttSRbHi 0) 0x1A60#32).setFld (Reg.ttSRsize 0) 22 0 1).setStream 0
    { TtStream.empty with staging := [[1]] }

/-- The packet goes out: the TT's domain is on, its interface is not frozen, the ring has room, and the write meets nothing. -/
theorem ringInControl_goes :
    ringInControl.domState 78 = 2 ∧ (ringInControl.stream 0).sent = none ∧ (ringInControl.master ttNode 0).frozen = false ∧
      (ringInControl.stream 0).failed = false ∧ (ringInControl.stream 0).staging = [[1]] ∧
      ringInControl.ringRoom 0 1 = true ∧ ringInControl.ringMeets 1 0 (ringInControl.ringWr 0) 1 = 0 := by
  decide +kernel

/-- The pseudo-channels of each controller are its own, and none is moved. -/
theorem ringInControl_apart : ringInControl.ringBase 0 % 32 = 0 ∧ (∀ m, (ringInControl.mc m).mig = none) ∧
    ∀ m k k', m < 6 → k < 62 → k' < 62 → ringInControl.pcOf m k = ringInControl.pcOf m k' → k = k' := by
  have hpc : ∀ m < 6, ∀ k < 62, ringInControl.pcOf m k = k := by decide +kernel
  refine ⟨by decide +kernel, fun _ => rfl, fun m k k' hm hk hk' h => ?_⟩
  rwa [hpc m hm k hk, hpc m hm k' hk'] at h

/-- The state that the write leaves holds no word of the packet. -/
theorem ringInControl_lost : (ringInControl.ringWrite 0 true []).ringWord 0 0 = 0 := by decide +kernel

theorem ringInControl_size : [(1 : BitVec 64)].length + 3 ≤ ringInControl.ringSize 0 ∧
    (ringInControl.ringWr 0 + 0) % ringInControl.ringSize 0 = 0 := by decide +kernel

theorem exec_ringInControl : exec (.ringWrite 0 ⟨true, []⟩) ringInControl = .next (ringInControl.ringWrite 0 true []) := by
  have hon : ringInControl.ttOn = true := by decide +kernel
  rw [exec_ringWrite, hon, if_pos (by decide)]

end Sys2Proof.Machine

open Sys2Proof Sys2Proof.Machine

/-- Refutes O50: `ringInControl`, whose packet leaves staging for a ring in the control space, where no word is stored. -/
theorem not_traceRings : ¬ Obligations.TraceRings := by
  intro h
  obtain ⟨-, -, hgoes, -⟩ := h ringInControl 0 [] (by decide)
  obtain ⟨hon, hsent, hfrozen, hfailed, hstaging, hroom, hmeets⟩ := ringInControl_goes
  obtain ⟨hpacket, -⟩ := hgoes hon (.inl hsent) hfrozen hfailed
  obtain ⟨-, hwrites, -⟩ := hpacket [1] [] hstaging (.inr hroom)
  obtain ⟨t, ht, -, -, -, -, -, -, -, hstored⟩ := hwrites hmeets
  obtain rfl := Host.Outcome.next.inj (exec_ringInControl.symm.trans ht)
  obtain ⟨hfits, hoffset⟩ := ringInControl_size
  have hword := hstored ringInControl_apart hfits 0 (by decide)
  rw [hoffset, ringInControl_lost] at hword
  exact absurd hword (by decide)
end

section
/-! PROOFS. Reads of memory words (R221, R250): what a read can change beside the word it returns, and the scrubs, which only read
(R223, R252). -/

namespace Sys2Proof.Machine.State

/-- From s to s' nothing changes but what the reads of memory words report: registers, the ledger, the mark of an uncorrected error,
and EVT messages. -/
structure ReadAside (s s' : State) : Prop where
  frame : ∃ r x l u, s' = { s with regs := r, net := x, ledger := l, seq := { s.seq with uePend := u } }
  net : s.NetKept s'

section aside

variable {s s' s'' : State}

theorem ReadAside.of_onlyRegs {ks : List Nat} (h : s.OnlyRegs s' ks) : ReadAside s s' where
  frame := ⟨s'.regs, s.net, s.ledger, s.seq.uePend, h.1⟩
  net := ⟨[], by rw [h.1, List.append_nil], fun f hf => absurd hf List.not_mem_nil⟩

theorem ReadAside.refl : ReadAside s s := of_onlyRegs (ks := []) OnlyRegs.refl

theorem ReadAside.trans (h : ReadAside s s') (h' : ReadAside s' s'') : ReadAside s s'' := by
  obtain ⟨⟨r, x, l, u, he⟩, m, hm, hc⟩ := h
  obtain ⟨⟨r', x', l', u', he'⟩, m', hm', hc'⟩ := h'
  refine ⟨⟨r', x', l', u', by rw [he', he]⟩, m ++ m', by rw [hm', hm, List.append_assoc], fun f hf => ?_⟩
  exact (List.mem_append.mp hf).elim (hc f) (hc' f)

theorem ReadAside.setReg (h : ReadAside s s') (k : Nat) (v : BitVec 32) : ReadAside s (s'.setReg k v) :=
  h.trans (of_onlyRegs (OnlyRegs.setReg (List.mem_singleton.mpr rfl) s' v))

theorem ReadAside.irqIf (h : ReadAside s s') (b : Bool) (v : Nat) : ReadAside s (s'.irqIf b v) := by
  cases b with
  | false => exact h
  | true => exact h.trans ⟨⟨s'.regs, _, s'.ledger, s'.seq.uePend, rfl⟩, _, rfl, fun _ hf => by rw [List.mem_singleton.mp hf]⟩

/-- A record of the ledger or a mark is no message. -/
theorem ReadAside.noted (h : ReadAside s s') (l : Tab (BitVec 256)) (u : Bool) :
    ReadAside s { s' with ledger := l, seq := { s'.seq with uePend := u } } :=
  h.trans ⟨⟨s'.regs, s'.net, l, u, rfl⟩, [], (List.append_nil _).symm, fun _ hf => absurd hf List.not_mem_nil⟩

theorem ReadAside.ite {p : Prop} [Decidable p] (h : ReadAside s s') (h' : ReadAside s s'') : ReadAside s (if p then s' else s'') := by
  split
  · exact h
  · exact h'

theorem ReadAside.foldl {α : Type} {f : State → α → State} (hf : ∀ u a, ReadAside u (f u a)) (l : List α) (h : ReadAside s s') :
    ReadAside s (l.foldl f s') := by
  induction l generalizing s' with
  | nil => exact h
  | cons a l ih => exact ih (h.trans (hf s' a))

/-! ### Reports -/

theorem ReadAside.record (h : ReadAside s s') (sev cls code node det0 det1 det2 : Nat) :
    ReadAside s (s'.record sev cls code node det0 det1 det2) := by
  unfold State.record
  split
  · exact ((h.noted _ s'.seq.uePend).setReg _ _).irqIf _ _
  · exact h.setReg _ _

theorem ReadAside.nameTile (h : ReadAside s s') (tile : Option (Nat × Nat)) (stored : Bool) : ReadAside s (s'.nameTile tile stored) := by
  unfold State.nameTile
  split
  · exact ite (h.setReg _ _) h
  · exact h

theorem ReadAside.seqReport (h : ReadAside s s') (b code node : Nat) (tile : Option (Nat × Nat)) (det0 det1 det2 : Nat) :
    ReadAside s (s'.seqReport b code node tile det0 det1 det2) :=
  (((h.record _ _ _ _ _ _ _).setReg _ _).irqIf _ _).nameTile _ _

theorem ReadAside.memError (h : ReadAside s s') (node : Nat) (tile : Option (Nat × Nat)) (det0 det1 det2 : Nat) :
    ReadAside s (s'.memError node tile det0 det1 det2) := by
  have hr := h.seqReport 5 5 node tile det0 det1 det2
  unfold State.memError
  dsimp only
  split
  · have hl : ReadAside s ((s'.seqReport 5 5 node tile det0 det1 det2).loss 2) := hr.setReg _ _
    exact ite (hl.noted _ true) hl
  · exact hr

/-! ### Reads -/

theorem ReadAside.bankRead (h : ReadAside s s') (t b w src : Nat) (e : Ecc) : ReadAside s (s'.bankRead t b w src e) := by
  cases e with
  | ok => exact h
  | onDie => exact h
  | corrected => exact h.setReg _ _
  | uncorrected f =>
    have hc : ReadAside s (s'.count (Reg.bnkEcc t b) 15 8 1) := h.setReg _ _
    have hn := ite (p := (s'.count (Reg.bnkEcc t b) 15 8 1).flag (Reg.bnkUeaddr t b) 31 = true) hc
      (((hc.setReg (Reg.bnkUeaddr t b) (BitVec.ofNat 32 (2 ^ 31 + src * 2 ^ 29 + w))).setReg (Reg.bnkUecyc t b)
        ((s'.count (Reg.bnkEcc t b) 15 8 1).seq.cycle.setWidth 32)).irqIf ((s'.count (Reg.bnkEcc t b) 15 8 1).flag (Reg.bnkCtrl t) 2)
          (tileNode t))
    exact ite (hn.memError _ _ _ _ _) hn

theorem ReadAside.hbmUe (h : ReadAside s s') (m a src : Nat) (report : Bool) : ReadAside s (s'.hbmUe m a src report) := by
  have hc : ReadAside s (s'.count (Reg.mcEcc m) 15 8 1) := h.setReg _ _
  unfold State.hbmUe
  generalize s'.count (Reg.mcEcc m) 15 8 1 = u at hc
  dsimp only
  refine ite (ReadAside.memError ?_ _ _ _ _ _) ?_
  all_goals exact ite hc ((((hc.setReg _ _).setReg _ _).setReg _ _).irqIf _ _)

theorem ReadAside.hbmRead (h : ReadAside s s') (m a src : Nat) (e : Ecc) : ReadAside s (s'.hbmRead m a src e) := by
  cases e with
  | ok => exact h
  | onDie => exact h.setReg _ _
  | corrected => exact h.setReg _ _
  | uncorrected f => exact h.hbmUe m a src true

end aside

variable (s : State)

/-- Check bits that say nothing of a word let it stand. -/
theorem hbmEcc_clean (hb : s.hbmBad = []) (a k : Nat) : s.hbmEcc a [] k = .ok := by
  unfold hbmEcc
  rw [hb]
  rfl

/-! ### The scrub of a bank (R223) -/

/-- Whether the scrub of a bank stands still: it is off, or an access waits. -/
abbrev bankScrubStill (t b : Nat) : Prop := s.fld (Reg.bnkCtrl t) 15 8 = 0 ∨ s.bankFirst t b ≠ none ∨ s.bankInfl t b ≠ 0

theorem bankScrub_of_still {t b : Nat} (h : s.bankScrubStill t b) (e : Ecc) : s.bankScrub t b e = s := by
  rw [bankScrub, if_pos]
  rwa [Option.isSome_iff_ne_none]

/-- The bank's book-keeping with the scrub at its next word. -/
def scrubbed (t b : Nat) : Bank := { s.bank t b with scrub := ((s.bank t b).scrub + 1) % 32768 }

theorem bankScrub_of_on {t b : Nat} (h : ¬ s.bankScrubStill t b) (e : Ecc) :
    s.bankScrub t b e = (s.bankRead t b (s.bank t b).scrub 2 e).setBank t b (s.scrubbed t b) := by
  obtain ⟨r, x, l, u, he⟩ := (ReadAside.refl (s := s)).bankRead t b (s.bank t b).scrub 2 e |>.frame
  have hbank : (s.bankRead t b (s.bank t b).scrub 2 e).bank t b = s.bank t b := by rw [he]; rfl
  rw [bankScrub, if_neg (by rwa [Option.isSome_iff_ne_none])]
  dsimp only
  rw [hbank]
  rfl

theorem bankRead_corrected_counts (t b w src : Nat) {x : Bank} :
    let s' := (s.bankRead t b w src .corrected).setBank t b x
    s.RegsKept s' [Reg.bnkEcc t b] ∧ s'.fld (Reg.bnkEcc t b) 31 16 = min (s.fld (Reg.bnkEcc t b) 31 16 + 1) 65535 := by
  refine ⟨fun k hk => ?_, ?_⟩
  · rw [setBank_reg, bankRead, reg_count_other _ (by simpa using hk)]
  · rw [fld, setBank_reg, ← fld, bankRead]
    exact s.fld_count _ _ _ _ (by decide) (by decide)

/-! ### The scrub of a pseudo-channel (R252) -/

/-- From s to s' no controller changes but m, which keeps its scrub positions, and no register but MC_RDPCNT of m. -/
structure RowAside (m : Nat) (s s' : State) : Prop where
  frame : s' = { s with regs := s'.regs, mcs := s'.mcs }
  regs : s.RegsKept s' [Reg.mcRdpcnt m]
  scrub : (s'.mc m).scrub = (s.mc m).scrub

section row

variable {s} {s' s'' : State} {m : Nat}

theorem RowAside.refl : RowAside m s s := ⟨rfl, fun _ _ => rfl, rfl⟩

theorem RowAside.setMc (h : RowAside m s s') {x : Mc} (hx : x.scrub = (s'.mc m).scrub) : RowAside m s (s'.setMc m x) where
  frame := by rw [h.frame]; rfl
  regs := h.regs
  scrub := by rw [mc_setMc, hx, h.scrub]

theorem RowAside.countRdp (h : RowAside m s s') (hi lo n : Nat) : RowAside m s (s'.count (Reg.mcRdpcnt m) hi lo n) where
  frame := by
    obtain ⟨hc, -⟩ := OnlyRegs.setFld (List.mem_singleton.mpr rfl) s' hi lo (min (s'.fld (Reg.mcRdpcnt m) hi lo + n) (2 ^ (hi + 1 - lo) - 1))
    exact hc.trans (by rw [h.frame]; rfl)
  regs k hk := (s'.reg_count_other (by simpa using hk) _ _ _).trans (h.regs k hk)
  scrub := by rw [mc, count_mcs, ← mc, h.scrub]

theorem RowAside.setRow (h : RowAside m s s') (pch bank n : Nat) : RowAside m s (s'.setRow m pch bank n) := by
  unfold State.setRow
  refine h.setMc ?_
  rfl

theorem RowAside.activate (h : RowAside m s s') (pch bank row : Nat) : RowAside m s (s'.activate m pch bank row) := by
  have hrow := h.setRow pch bank (row + 1)
  unfold State.activate
  generalize s'.setRow m pch bank (row + 1) = u at hrow
  dsimp only
  split
  · refine (hrow.setMc ?_).countRdp _ _ _
    rfl
  · refine hrow.setMc ?_
    rfl

theorem RowAside.opened (h : RowAside m s s') (pch o : Nat) : RowAside m s (s'.opened m pch o) := by
  unfold State.opened
  split
  · exact h
  · exact h.activate _ _ _

theorem RowAside.rowDone (h : RowAside m s s') (pch o : Nat) : RowAside m s (s'.rowDone m pch o) := by
  unfold State.rowDone
  split
  · exact h.setRow _ _ _
  · exact h

end row

/-- Whether the scrub of a pseudo-channel reads its next block. -/
abbrev hbmScrubs (m k : Nat) : Prop :=
  k < 62 ∧ s.mcState m = 2 ∧ s.flag (Reg.mcCtrl m) 1 = true ∧ s.fld (Reg.mcScrub m) 15 0 ≠ 0 ∧ (∀ g, (s.mc m).mig = some g → g.lpc ≠ k) ∧
    s.hbmBankWaits m (s.pcOf m k) (bankOfOff (256 * tget (fun _ => 0) (s.mc m).scrub k)) = false ∧
    s.nbrWaits m (s.pcOf m k) (bankOfOff (256 * tget (fun _ => 0) (s.mc m).scrub k)) = false

/-- The state in which the scrub has opened its row, and what the reads of its words say, one after the other. -/
def scrubRow (m k : Nat) : State :=
  let blk := tget (fun _ => 0) (s.mc m).scrub k
  (s.opened m (s.pcOf m k) (256 * blk)).rowDone m (s.pcOf m k) (256 * blk)

def scrubRead (m k : Nat) (ecc : List EccAt) : State :=
  let o := 256 * tget (fun _ => 0) (s.mc m).scrub k
  let row := s.scrubRow m k
  (List.range 32).foldl (fun u i => u.hbmRead m (u.hbmUser m k o) 2 (row.hbmEcc (row.hbmUser m k o) ecc i)) row

theorem scrubRow_rowAside (m k : Nat) : RowAside m s (s.scrubRow m k) := (RowAside.refl.opened _ _).rowDone _ _

theorem scrubRead_readAside (m k : Nat) (ecc : List EccAt) : ReadAside (s.scrubRow m k) (s.scrubRead m k ecc) :=
  .foldl (fun _ _ => ReadAside.refl.hbmRead _ _ _ _) _ .refl

theorem scrubRead_clean (m k : Nat) (hb : s.hbmBad = []) : s.scrubRead m k [] = s.scrubRow m k := by
  have hrow : (s.scrubRow m k).hbmBad = [] := by rw [(s.scrubRow_rowAside m k).frame]; exact hb
  refine List.foldl_fixed' (fun i => ?_) _
  rw [hbmEcc_clean _ hrow]
  rfl

/-- The state with the scrub at its next block. -/
def scrubMoved (m k : Nat) (ecc : List EccAt) : State :=
  let u := s.scrubRead m k ecc
  u.setMc m { u.mc m with
    scrub := tput (fun _ => 0) k ((tget (fun _ => 0) (s.mc m).scrub k + 1) % pcBlocks) (u.mc m).scrub }

/-- A migration is of another pseudo-channel, or there is none. -/
theorem notMigrating_iff {o : Option Migration} {k : Nat} : ¬ (match o with
    | some g => g.lpc == k
    | none => false) = true ↔ ∀ g, o = some g → g.lpc ≠ k := by
  cases o <;> simp

theorem hbmScrub_of_scrubs {m k : Nat} (h : s.hbmScrubs m k) (ecc : List EccAt) : s.hbmScrub m k ecc = s.scrubMoved m k ecc := by
  obtain ⟨hk, hready, hon, hrate, hmig, hbank, hnbr⟩ := h
  rw [← notMigrating_iff] at hmig
  unfold hbmScrub scrubMoved scrubRead scrubRow
  dsimp only
  rw [if_neg]
  rw [hready, hon, hbank, hnbr]
  rintro (hk' | h | h | h | h | h | h)
  · omega
  · exact h rfl
  · exact absurd h (by decide)
  · exact hrate h
  · exact hmig h
  · exact absurd h (by decide)
  · exact absurd h (by decide)

theorem hbmScrub_of_still {m k : Nat} (h : ¬ s.hbmScrubs m k) (ecc : List EccAt) : s.hbmScrub m k ecc = s := by
  unfold hbmScrub
  refine if_pos (by_contra fun hn => h ?_)
  simp only [not_or] at hn
  obtain ⟨hk, hready, hon, hrate, hmig, hbank, hnbr⟩ := hn
  exact ⟨by omega, not_not.mp hready, by simpa using hon, hrate, notMigrating_iff.mp hmig, Bool.eq_false_iff.mpr hbank,
    Bool.eq_false_iff.mpr hnbr⟩

theorem scrubMoved_memoryKept (m k : Nat) (ecc : List EccAt) : s.MemoryKept (s.scrubMoved m k ecc) := by
  obtain ⟨r, x, l, u, he⟩ := (s.scrubRead_readAside m k ecc).frame
  have hrow := (s.scrubRow_rowAside m k).frame
  have hspad : (s.scrubRead m k ecc).spad = s.spad := by rw [he, hrow]
  have hhbm : (s.scrubRead m k ecc).hbm = s.hbm := by rw [he, hrow]
  exact ⟨fun a => congrArg (Memory.get · a) hspad, fun a => congrArg (Memory.get · a) hhbm⟩

theorem scrubMoved_scrub (m k : Nat) (ecc : List EccAt) : ((s.scrubMoved m k ecc).mc m).scrub =
    tput (fun _ => 0) k ((tget (fun _ => 0) (s.mc m).scrub k + 1) % pcBlocks) (s.mc m).scrub := by
  obtain ⟨r, x, l, u, he⟩ := (s.scrubRead_readAside m k ecc).frame
  have hmc : (s.scrubRead m k ecc).mc m = (s.scrubRow m k).mc m := by rw [he]; rfl
  rw [scrubMoved, mc_setMc, hmc, (s.scrubRow_rowAside m k).scrub]

theorem scrubMoved_clean (m k : Nat) (hb : s.hbmBad = []) :
    let s' := s.scrubMoved m k []
    s' = { s with regs := s'.regs, mcs := s'.mcs } ∧ s.RegsKept s' [Reg.mcRdpcnt m] := by
  obtain ⟨x, hx⟩ : ∃ x, s.scrubMoved m k [] = (s.scrubRow m k).setMc m x := ⟨_, by rw [scrubMoved, s.scrubRead_clean m k hb]⟩
  obtain ⟨hframe, hregs, -⟩ := s.scrubRow_rowAside m k
  generalize s.scrubRow m k = u at hframe hregs hx
  rw [hx]
  exact ⟨by rw [hframe]; rfl, hregs⟩

end Sys2Proof.Machine.State

namespace Sys2Proof.Machine

theorem exec_bankScrubRead (t b : Nat) (e : Ecc) (s : State) : exec (.bankScrubRead t b e) s = .next (s.bankScrub t b e) := rfl

theorem exec_hbmScrubRead (m k : Nat) (ecc : List EccAt) (s : State) :
    exec (.hbmScrubRead m k ecc) s = .next (s.hbmScrub m k ecc) := rfl

end Sys2Proof.Machine

open Sys2Proof Sys2Proof.Machine

/-- Settles O26: a scrub is reads that change no byte (`State.ReadAside`), in a row that is opened (`State.RowAside`), and the step of
its position. -/
theorem scrubsMoveOn : Obligations.ScrubsMoveOn := by
  refine ⟨fun s t b ecc => ⟨fun hon hfirst hinfl => ?bank, fun h => ?bankStill⟩, fun s m k ecc => ⟨fun h => ?hbm, fun h => ?hbmStill⟩⟩
  case bank =>
    have h : ¬ s.bankScrubStill t b := fun h => h.elim hon fun h => h.elim (· hfirst) (· hinfl)
    rw [exec_bankScrubRead, s.bankScrub_of_on h]
    obtain ⟨r, x, l, u, he⟩ := (State.ReadAside.refl.bankRead t b (s.bank t b).scrub 2 ecc : State.ReadAside s _).frame
    refine ⟨_, rfl, ?_, fun k hk => ?_, State.bank_setBank _ _ _ _, fun hok => ?_, fun hc => ?_⟩
    · rw [he]; exact ⟨fun _ => rfl, fun _ => rfl⟩
    · rw [he]; exact tget_tput_other _ hk _ _
    · rw [hok]; rfl
    · rw [hc]
      exact s.bankRead_corrected_counts t b _ 2
  case bankStill => rw [exec_bankScrubRead, s.bankScrub_of_still h]
  case hbm =>
    rw [exec_hbmScrubRead, s.hbmScrub_of_scrubs h]
    refine ⟨_, rfl, s.scrubMoved_memoryKept m k ecc, ?_, fun j hj => ?_, fun he hb => ?_⟩
    · rw [State.scrubMoved_scrub, tget_tput_same]
    · rw [State.scrubMoved_scrub, tget_tput_other _ hj]
    · rw [he]
      exact s.scrubMoved_clean m k hb
  case hbmStill => rw [exec_hbmScrubRead, s.hbmScrub_of_still h]
end

section
/-! PROOFS. The handover of a bank (R217, R220, R225): what the write of BNK_OWNER starts, and the steps that end in the switch. -/

namespace Sys2Proof.Machine

/-! ### Words -/

/-- The bits of a word that a bit written leaves alone. -/
theorem bits_setBit_other {w : Nat} (x : BitVec w) (i : Nat) (b : Bool) {hi lo : Nat} (h : hi < w) (hd : hi < i ∨ i < lo) :
    bits (setBit x i b) hi lo = bits x hi lo := bits_setBits_other _ _ _ _ _ _ h hd

/-- What a write of BNK_OWNER leaves in the register: the owner and the engine as they are, the rest as written (R226). -/
def ownerWord (old v : BitVec 32) : BitVec 32 := (old &&& 0xFF#32) ||| (v &&& 0x40F70000#32)

theorem bits_ownerWord (old v : BitVec 32) {hi lo : Nat} (hl : lo ≤ hi) (h : hi < 8) : bits (ownerWord old v) hi lo = bits old hi lo := by
  have hlow : ∀ i, i < 8 → (0xFF#32).getLsbD i = true ∧ (0x40F70000#32).getLsbD i = false := by decide
  rw [bits, bits]
  congr 1
  refine BitVec.eq_of_getLsbD_eq fun i hi' => ?_
  obtain ⟨hkeep, hcut⟩ := hlow (lo + i) (by omega)
  simp only [BitVec.getLsbD_extractLsb', ownerWord, BitVec.getLsbD_or, BitVec.getLsbD_and, hkeep, hcut, Bool.and_true, Bool.and_false,
    Bool.or_false]

namespace State

variable (s : State)

/-! ### One field of a register -/

theorem setFld_onlyField (k v : Nat) {hi lo : Nat} : s.OnlyField (s.setFld k hi lo v) k hi lo := by
  refine ⟨OnlyRegs.setFld (List.mem_singleton.mpr rfl) s hi lo v, fun i hi' => ?_⟩
  by_cases hw : i < 32
  · rw [flag, setFld, reg_setReg_same, getLsbD_setBits_other _ _ _ _ _ hi' hw, flag]
  · rw [flag, flag, BitVec.getLsbD_of_ge _ _ (by omega), BitVec.getLsbD_of_ge _ _ (by omega)]

/-! ### The start (R217) -/

section start

variable {s} (who : Who) {t b : Nat} {v : BitVec 32}

/-- Whether a start is refused (R220): a handover is under way, there is no such owner, or LOCK holds. -/
abbrev handoverRefused (s : State) (who : Who) (t b n : Nat) : Prop :=
  s.bankH t b ≠ 0 ∨ n = 0 ∨ 5 ≤ n ∨ (s.flag (Reg.bnkCtrl t) 0 = true ∧ State.lockExempt who = false)

/-- Whether owner n, with engine e, is the owner that the bank has. -/
abbrev keepsOwner (s : State) (t b n e : Nat) : Prop := n = s.bankOwn t b ∧ (n ≠ 3 ∨ e = s.bankCeng t b)

/-- Whether a handover to owner n must wait for a midnight (R217). -/
abbrev mustWait (s : State) (t b n : Nat) : Prop := (s.bankOwn t b = 1 ∨ n = 1) ∧ (s.seqState = 1 ∨ s.seqState = 2 ∨ s.seqState = 3)

/-- The state in which BNK_OWNER has been written, and the bank's book-keeping then. -/
def ownerSet (s : State) (t b : Nat) (v : BitVec 32) : State :=
  s.setReg (Reg.bnkOwner t b) (ownerWord (s.reg (Reg.bnkOwner t b)) v)

def handing (s : State) (who : Who) (t b : Nat) (v : BitVec 32) : Bank :=
  { (s.ownerSet t b v).bank t b with
    new := bits v 18 16, eng := bits v 23 20, clr := v.getLsbD 30, task := (s.ownerSet t b v).taskOf who, holds := false }

def handoverTaken (s : State) (who : Who) (t b : Nat) (v : BitVec 32) : State := (s.ownerSet t b v).setBank t b (s.handing who t b v)

theorem ownerWrite_of_refused (hv : v.getLsbD 31 = true) (h : s.handoverRefused who t b (bits v 18 16)) :
    s.ownerWrite who t b v = s.setFlag (Reg.bnkStat t b) 30 true := by
  unfold ownerWrite
  dsimp only
  rw [if_pos hv, if_pos]
  simpa using h

theorem ownerWrite_of_taken (hv : v.getLsbD 31 = true) (h : ¬ s.handoverRefused who t b (bits v 18 16)) :
    s.ownerWrite who t b v = if (s.handoverTaken who t b v).handoverWaits t b then
      ((s.handoverTaken who t b v).setBank t b { (s.handoverTaken who t b v).bank t b with holds := true }).setFld (Reg.bnkStat t b) 29 28 1
    else (s.handoverTaken who t b v).bankFence t b := by
  unfold ownerWrite
  dsimp only
  rw [if_pos hv, if_neg (by simpa using h)]
  rfl

theorem handoverTaken_bank : (s.handoverTaken who t b v).bank t b = s.handing who t b v := bank_setBank _ _ _ _

theorem handoverTaken_reg_other {k : Nat} (hk : k ≠ Reg.bnkOwner t b) : (s.handoverTaken who t b v).reg k = s.reg k := by
  rw [handoverTaken, setBank_reg, ownerSet, reg_setReg_other _ hk]

theorem handoverTaken_bankOwn : (s.handoverTaken who t b v).bankOwn t b = s.bankOwn t b := by
  rw [bankOwn, fld, handoverTaken, setBank_reg, ownerSet, reg_setReg_same, bits_ownerWord _ _ (by decide) (by decide), bankOwn, fld]

theorem handoverTaken_bankCeng : (s.handoverTaken who t b v).bankCeng t b = s.bankCeng t b := by
  rw [bankCeng, fld, handoverTaken, setBank_reg, ownerSet, reg_setReg_same, bits_ownerWord _ _ (by decide) (by decide), bankCeng, fld]

/-- DBG_STAT stands in no tile's window. -/
theorem dbgStat_ne_bnkOwner (ht : t < 64) : Reg.dbgStat ≠ Reg.bnkOwner t b := by
  have h := tileNode_bounds ht
  unfold Reg.dbgStat Reg.bnkOwner tileNode
  omega

theorem handoverTaken_seqState (ht : t < 64) : (s.handoverTaken who t b v).seqState = s.seqState := by
  have hseq : (s.handoverTaken who t b v).seq = s.seq := by rw [handoverTaken, setBank_seq, ownerSet, setReg_seq]
  rw [seqState, seqState, flag, handoverTaken_reg_other _ (dbgStat_ne_bnkOwner ht), flag, hseq]

theorem handoverWaits_iff (ht : t < 64) :
    (s.handoverTaken who t b v).handoverWaits t b = true ↔ s.mustWait t b (bits v 18 16) := by
  rw [handoverWaits, handoverTaken_bankOwn, handoverTaken_bank, handoverTaken_seqState who ht]
  simp [handing, or_assoc]

theorem sameOwner_iff : (s.handoverTaken who t b v).sameOwner t b = true ↔ s.keepsOwner t b (bits v 18 16) (bits v 23 20) := by
  rw [sameOwner, handoverTaken_bankOwn, handoverTaken_bankCeng, handoverTaken_bank]
  simp [handing]

theorem bnkOwner_ne_bnkStat (t b : Nat) : Reg.bnkOwner t b ≠ Reg.bnkStat t b := by unfold Reg.bnkOwner Reg.bnkStat; omega

/-- From s to s' a handover of a bank to owner n with engine e has been taken; the owner is as before. -/
structure HandoverTaken (s : State) (t b n e : Nat) (clr : Bool) (s' : State) : Prop where
  frame : s' = { s with regs := s'.regs, banks := s'.banks }
  banks : s.BanksKept s' t b
  regs : s.RegsKept s' [Reg.bnkOwner t b, Reg.bnkStat t b]
  own : s'.bankOwn t b = s.bankOwn t b
  new : (s'.bank t b).new = n
  eng : (s'.bank t b).eng = e
  clr : (s'.bank t b).clr = clr

theorem handoverTaken_taken : s.HandoverTaken t b (bits v 18 16) (bits v 23 20) (v.getLsbD 30) (s.handoverTaken who t b v) where
  frame := by
    obtain ⟨r, hr⟩ : ∃ r, s.ownerSet t b v = { s with regs := r } := ⟨_, rfl⟩
    rw [handoverTaken, hr]
    rfl
  banks k hk := by
    rw [handoverTaken, setBank, tget_tput_other _ hk, ownerSet, setReg_banks]
  regs k hk := by
    simp only [List.mem_cons, List.not_mem_nil, or_false, not_or] at hk
    exact handoverTaken_reg_other who hk.1
  own := handoverTaken_bankOwn who
  new := by rw [handoverTaken_bank]; rfl
  eng := by rw [handoverTaken_bank]; rfl
  clr := by rw [handoverTaken_bank]; rfl

section taken

variable {n e : Nat} {clr : Bool} {s' : State} (h : s.HandoverTaken t b n e clr s')
include h

theorem HandoverTaken.holds (x : Bool) : s.HandoverTaken t b n e clr (s'.setBank t b { s'.bank t b with holds := x }) where
  frame := by rw [h.frame]; rfl
  banks k hk := (tget_tput_other _ hk _ _).trans (h.banks k hk)
  regs := h.regs
  own := h.own
  new := by rw [bank_setBank]; exact h.new
  eng := by rw [bank_setBank]; exact h.eng
  clr := by rw [bank_setBank]; exact h.clr

/-- The handover is put to a step. -/
theorem HandoverTaken.setStep (st : Nat) : s.HandoverTaken t b n e clr (s'.setFld (Reg.bnkStat t b) 29 28 st) where
  frame := by
    obtain ⟨r, hr⟩ := s'.setFld_frame (Reg.bnkStat t b) 29 28 st
    rw [hr, h.frame]
  banks k hk := by
    rw [setFld_banks]
    exact h.banks k hk
  regs k hk := by
    rw [reg_setFld_other _ (by simp at hk; exact hk.2)]
    exact h.regs k hk
  own := by rw [bankOwn, fld, reg_setFld_other _ (bnkOwner_ne_bnkStat t b), ← fld, ← bankOwn, h.own]
  new := by rw [bank, setFld_banks, ← bank, h.new]
  eng := by rw [bank, setFld_banks, ← bank, h.eng]
  clr := by rw [bank, setFld_banks, ← bank, h.clr]

end taken

theorem bankH_setFld (u : State) (t b : Nat) {st : Nat} (h : st < 4) : (u.setFld (Reg.bnkStat t b) 29 28 st).bankH t b = st := by
  rw [bankH, fld_setFld _ _ _ _ _ (by decide) (by decide)]
  exact Nat.mod_eq_of_lt h

theorem ownerWrite_waits (ht : t < 64) (hv : v.getLsbD 31 = true) (h : ¬ s.handoverRefused who t b (bits v 18 16))
    (hw : s.mustWait t b (bits v 18 16)) :
    s.HandoverTaken t b (bits v 18 16) (bits v 23 20) (v.getLsbD 30) (s.ownerWrite who t b v) ∧ (s.ownerWrite who t b v).bankH t b = 1 := by
  rw [ownerWrite_of_taken who hv h, if_pos ((handoverWaits_iff who ht).mpr hw)]
  exact ⟨((handoverTaken_taken who).holds true).setStep 1, bankH_setFld _ _ _ (by decide)⟩

theorem ownerWrite_fences (ht : t < 64) (hv : v.getLsbD 31 = true) (h : ¬ s.handoverRefused who t b (bits v 18 16))
    (hw : ¬ s.mustWait t b (bits v 18 16)) (hs : ¬ s.keepsOwner t b (bits v 18 16) (bits v 23 20)) :
    s.HandoverTaken t b (bits v 18 16) (bits v 23 20) (v.getLsbD 30) (s.ownerWrite who t b v) ∧ (s.ownerWrite who t b v).bankH t b = 2 := by
  rw [ownerWrite_of_taken who hv h, if_neg (mt (handoverWaits_iff who ht).mp hw), bankFence, if_neg (mt (sameOwner_iff who).mp hs)]
  exact ⟨(handoverTaken_taken who).setStep 2, bankH_setFld _ _ _ (by decide)⟩

end start

/-! ### The steps of a handover (R217) -/

section steps

variable {s} {t b : Nat}

theorem bankFence_moves (h : s.sameOwner t b = false) : s.bankFence t b = s.setFld (Reg.bnkStat t b) 29 28 2 := by
  rw [bankFence, h]
  rfl

theorem bankDrained_clears (h : (s.bank t b).clr = true) : s.bankDrained t b = s.setFld (Reg.bnkStat t b) 29 28 3 := by
  rw [bankDrained, if_pos h]

theorem bankDrained_switches (h : (s.bank t b).clr = false) : s.bankDrained t b = s.bankSwitch t b := by
  rw [bankDrained, if_neg (by rw [h]; decide)]

theorem bankFence_skips (h : s.sameOwner t b = true) : s.bankFence t b = s.bankDrained t b := by
  rw [bankFence, if_pos h]

/-- From s to s' the bank has switched: the new owner with its engine, DONE and IDLE. -/
structure BankSwitched (s : State) (t b : Nat) (s' : State) : Prop where
  frame : s' = { s with regs := s'.regs, net := s'.net }
  regs : s.RegsKept s' [Reg.bnkOwner t b, Reg.bnkStat t b]
  net : s.NetKept s'
  step : s'.bankH t b = 0
  own : s'.bankOwn t b = (s.bank t b).new
  eng : s'.bankCeng t b = (s.bank t b).eng
  done : s'.flag (Reg.bnkStat t b) 31 = true

/-- The registers that the switch leaves. -/
def switchedRegs (s : State) (t b : Nat) : State :=
  let s1 := (s.setFld (Reg.bnkOwner t b) 2 0 (s.bank t b).new).setFld (Reg.bnkOwner t b) 7 4 (s.bank t b).eng
  (s1.setFld (Reg.bnkStat t b) 29 28 0).setFlag (Reg.bnkStat t b) 31 true

theorem bankSwitch_eq : ∃ e, s.bankSwitch t b = (s.switchedRegs t b).irqIf e (tileNode t) := ⟨_, rfl⟩

theorem switchedRegs_onlyRegs : s.OnlyRegs (s.switchedRegs t b) [Reg.bnkOwner t b, Reg.bnkStat t b] :=
  (OnlyRegs.setFld (by simp) _ _ _ _).trans ((OnlyRegs.setFld (by simp) _ _ _ _).trans
    ((OnlyRegs.setFld (by simp) _ _ _ _).trans (OnlyRegs.setFlag (by simp) _ _ _)))

theorem bankSwitch_switched (hn : (s.bank t b).new < 8) (he : (s.bank t b).eng < 16) : s.BankSwitched t b (s.bankSwitch t b) := by
  obtain ⟨e, hsw⟩ := s.bankSwitch_eq (t := t) (b := b)
  have hregs := s.switchedRegs_onlyRegs (t := t) (b := b)
  obtain ⟨⟨r, x, l, u, hframe⟩, hnet⟩ := (ReadAside.of_onlyRegs hregs).irqIf e (tileNode t)
  have howner : ∀ hi lo, (s.bankSwitch t b).fld (Reg.bnkOwner t b) hi lo =
      ((s.setFld (Reg.bnkOwner t b) 2 0 (s.bank t b).new).setFld (Reg.bnkOwner t b) 7 4 (s.bank t b).eng).fld (Reg.bnkOwner t b) hi lo :=
    fun hi lo => by
      rw [hsw, fld, irqIf_reg, switchedRegs, reg_setFlag_other _ (bnkOwner_ne_bnkStat t b), reg_setFld_other _ (bnkOwner_ne_bnkStat t b),
        fld]
  refine ⟨?_, fun k hk => ?_, ?_, ?_, ?_, ?_, ?_⟩
  · rw [hsw, irqIf_frame, hregs.1]
  · rw [hsw, irqIf_reg, hregs.2 k hk]
  · rw [hsw]
    exact hnet
  · rw [hsw, bankH, fld, irqIf_reg, ← fld, switchedRegs, setFlag, fld_setFld_other _ _ _ _ _ _ _ (by decide) (by decide),
      fld_setFld _ _ _ _ _ (by decide) (by decide), Nat.zero_mod]
  · rw [bankOwn, howner, fld_setFld_other _ _ _ _ _ _ _ (by decide) (by decide), fld_setFld _ _ _ _ _ (by decide) (by decide)]
    exact Nat.mod_eq_of_lt hn
  · rw [bankCeng, howner, fld_setFld _ _ _ _ _ (by decide) (by decide)]
    exact Nat.mod_eq_of_lt he
  · rw [hsw, flag, irqIf_reg, ← flag, switchedRegs, flag_setFlag _ _ _ _ (by decide)]

end steps

/-- The bank with every word 0, before it switches (R217 step 4). -/
def bankZeroed (t b : Nat) : State :=
  { s with spad := tdrop (fun a => decide (spAddr t b 0 ≤ a ∧ a < spAddr t b 32768)) s.spad }

theorem bankZeroed_reg (t b k : Nat) : (s.bankZeroed t b).reg k = s.reg k := reg_of_regs rfl k

theorem bankZeroed_bank (t b : Nat) : (s.bankZeroed t b).bank t b = s.bank t b := by
  rw [bank, bankZeroed]
  rfl

theorem get_bankZeroed (t b a : Nat) : Memory.get (s.bankZeroed t b).spad a =
    if spAddr t b 0 ≤ a ∧ a < spAddr t b 32768 then 0 else Memory.get s.spad a := by
  rw [Memory.get, bankZeroed, tget_tdrop]
  exact if_congr decide_eq_true_iff rfl rfl

end State

/-! ### The commands -/

theorem exec_bankHandoverStart (who : Who) (t b : Nat) (v : BitVec 32) (s : State) : exec (.bankHandoverStart who t b v) s =
    .next (s.regAccess who (Reg.bnkOwner t b) true false (setBit v 31 true) fun s => s.ownerWrite who t b (setBit v 31 true)) := rfl

theorem exec_bankHandoverFence (t b : Nat) (s : State) : exec (.bankHandoverFence t b) s =
    .next (if s.bankH t b = 1 ∧ s.handoverReady t b then s.bankFence t b else s) := rfl

theorem exec_bankHandoverDrained (t b : Nat) (s : State) : exec (.bankHandoverDrained t b) s =
    .next (if s.bankH t b = 2 ∧ s.bankInfl t b = 0 then s.bankDrained t b else s) := rfl

theorem exec_bankHandoverCleared (t b : Nat) (s : State) : exec (.bankHandoverCleared t b) s =
    .next (if s.bankH t b = 3 then (s.bankZeroed t b).bankSwitch t b else s) := rfl

end Sys2Proof.Machine

open Sys2Proof Sys2Proof.Machine

/-- Settles O25: the write is `State.ownerWrite_of_refused`, `State.ownerWrite_waits` and `State.ownerWrite_fences`, the end is
`State.bankSwitch_switched`. -/
theorem bankHandover : Obligations.BankHandover := by
  refine ⟨fun s who t b v ht _ => ?start, fun s t b _ _ => ⟨fun h1 hr hs => ?fence, fun h1 hr hs hc => ?keeps, fun h => ?early,
    fun h2 hi hc => ?drained, fun h => ?undrained, fun hn he => ⟨fun h2 hi hc => ?switch, fun h3 => ?cleared⟩, fun h => ?uncleared⟩⟩
  case start =>
    intro n same waits refused hnow
    rw [exec_bankHandoverStart, State.regAccess_of_regNow _ _ hnow]
    have hv : (setBit v 31 true).getLsbD 31 = true := by rw [getLsbD_setBit _ _ _ (by decide), if_pos rfl]
    have hnew : bits (setBit v 31 true) 18 16 = n := bits_setBit_other _ _ _ (by decide) (by decide)
    have heng : bits (setBit v 31 true) 23 20 = bits v 23 20 := bits_setBit_other _ _ _ (by decide) (by decide)
    have hclr : (setBit v 31 true).getLsbD 30 = v.getLsbD 30 := by rw [getLsbD_setBit _ _ _ (by decide), if_neg (by decide)]
    refine ⟨fun hr => ?refused, fun hr hws => ?taken⟩
    case refused =>
      rw [State.ownerWrite_of_refused who hv (by rw [hnew]; exact hr)]
      refine ⟨_, rfl, State.OnlyRegs.setFlag (List.mem_singleton.mpr rfl) _ _ _, s.flag_setFlag _ _ _ (by decide), ?_⟩
      rw [State.bankH, State.setFlag, State.fld_setFld_other _ _ _ _ _ _ _ (by decide) (by decide), State.bankH]
    case taken =>
      refine ⟨_, rfl, ?_⟩
      by_cases hw : waits
      · obtain ⟨⟨hframe, hbanks, hregs, hown, h1, h2, h3⟩, hstep⟩ := State.ownerWrite_waits who ht hv (by rw [hnew]; exact hr)
          (by rw [hnew]; exact hw)
        exact ⟨hframe, hbanks, hregs, hown, h1.trans hnew, h2.trans heng, h3.trans hclr, fun _ => hstep, fun h => absurd hw h⟩
      · obtain ⟨⟨hframe, hbanks, hregs, hown, h1, h2, h3⟩, hstep⟩ := State.ownerWrite_fences who ht hv (by rw [hnew]; exact hr)
          (by rw [hnew]; exact hw) (by rw [hnew, heng]; exact hws.resolve_left hw)
        exact ⟨hframe, hbanks, hregs, hown, h1.trans hnew, h2.trans heng, h3.trans hclr, fun h => absurd h hw, fun _ => hstep⟩
  case fence =>
    rw [exec_bankHandoverFence, if_pos ⟨h1, hr⟩, State.bankFence_moves hs]
    exact ⟨_, rfl, State.bankH_setFld _ _ _ (by decide), s.setFld_onlyField _ _⟩
  case keeps =>
    rw [exec_bankHandoverFence, if_pos ⟨h1, hr⟩, State.bankFence_skips hs, State.bankDrained_clears hc]
    exact ⟨_, rfl, State.bankH_setFld _ _ _ (by decide), s.setFld_onlyField _ _⟩
  case early =>
    rw [exec_bankHandoverFence, if_neg]
    rintro ⟨h1, hr⟩
    exact h.elim (· h1) fun h => by simp [h] at hr
  case drained =>
    rw [exec_bankHandoverDrained, if_pos ⟨h2, hi⟩, State.bankDrained_clears hc]
    exact ⟨_, rfl, State.bankH_setFld _ _ _ (by decide), s.setFld_onlyField _ _⟩
  case undrained =>
    rw [exec_bankHandoverDrained, if_neg fun ⟨h2, hi⟩ => h.elim (· h2) (· hi)]
  case switch =>
    rw [exec_bankHandoverDrained, if_pos ⟨h2, hi⟩, State.bankDrained_switches hc]
    obtain ⟨hframe, hregs, hnet, hstep, hown, heng, hdone⟩ := State.bankSwitch_switched hn he
    exact ⟨_, rfl, hframe, hregs, hnet, hstep, hown, heng, hdone⟩
  case cleared =>
    rw [exec_bankHandoverCleared, if_pos h3]
    obtain ⟨hframe, hregs, hnet, hstep, hown, heng, hdone⟩ := State.bankSwitch_switched (s := s.bankZeroed t b) (t := t) (b := b)
      (by rw [State.bankZeroed_bank]; exact hn) (by rw [State.bankZeroed_bank]; exact he)
    rw [State.bankZeroed_bank] at hown heng
    have hkept : s.RegsKept ((s.bankZeroed t b).bankSwitch t b) [Reg.bnkOwner t b, Reg.bnkStat t b] := fun k hk => by
      rw [hregs k hk, State.bankZeroed_reg]
    generalize (s.bankZeroed t b).bankSwitch t b = s' at *
    have hspad : s'.spad = (s.bankZeroed t b).spad := by rw [hframe]
    refine ⟨s', rfl, hframe.trans ?_, ⟨hkept, hnet, hstep, hown, heng, hdone⟩, fun a => ?_⟩
    · rw [hspad]
      rfl
    · rw [hspad, s.get_bankZeroed]
  case uncleared => rw [exec_bankHandoverCleared, if_neg h]
end

section
/-! PROOFS. A bank serves a request of the network (R208 to R210, R215, R221, R273): the words it reads and stores, the lock that a
locked request opens and counts, and which request is served. -/

namespace Sys2Proof.Machine

/-! ### Words of a memory -/

/-- A number is told by its bytes. -/
theorem wordOf_getN_of_bytes (m : List Host.Cell) (n : Nat) : ∀ a x, (∀ i < n, (Memory.get m (a + i)).toNat = x / 256 ^ i % 256) →
    wordOf (Memory.getN m a n) = x % 256 ^ n := by
  induction n with
  | zero => exact fun a x _ => (Nat.mod_one x).symm
  | succ n ih =>
    intro a x h
    have hrest : ∀ i < n, (Memory.get m (a + 1 + i)).toNat = x / 256 / 256 ^ i % 256 := fun i hi => by
      rw [Nat.add_right_comm, Nat.add_assoc, h (i + 1) (by omega), Nat.div_div_eq_div_mul, ← Nat.pow_succ']
    have h0 := h 0 (by omega)
    rw [Nat.add_zero, Nat.pow_zero, Nat.div_one] at h0
    rw [Memory.getN, wordOf, ih (a + 1) (x / 256) hrest, h0, Nat.pow_succ', Nat.mod_mul]

theorem word_of_bytes {m : List Host.Cell} {a : Nat} {v : BitVec 64} (h : ∀ i < 8, Memory.get m (a + i) = v.extractLsb' (8 * i) 8) :
    Memory.word m a = v := by
  have hb : ∀ i < 8, (Memory.get m (a + i)).toNat = v.toNat / 256 ^ i % 256 := fun i hi => by
    rw [h i hi, BitVec.extractLsb'_toNat, Nat.shiftRight_eq_div_pow, Nat.pow_mul]
  apply BitVec.eq_of_toNat_eq
  rw [Memory.word, BitVec.toNat_ofNat, wordOf_getN_of_bytes m 8 a _ hb]
  have := v.isLt
  omega

theorem getN_congr {m m' : List Host.Cell} (n : Nat) : ∀ a, (∀ i < n, Memory.get m' (a + i) = Memory.get m (a + i)) →
    Memory.getN m' a n = Memory.getN m a n := by
  induction n with
  | zero => exact fun _ _ => rfl
  | succ n ih =>
    intro a h
    rw [Memory.getN, Memory.getN, ← Nat.add_zero a, h 0 (by omega), ih (a + 0 + 1) fun i hi => by
      rw [show a + 0 + 1 + i = a + (i + 1) by omega]
      exact h (i + 1) (by omega)]

namespace State

variable (s : State) (t b : Nat)

theorem spWord_setSpWord (w : Nat) (v : BitVec 64) : (s.setSpWord t b w 0xFF v).spWord t b w = v := by
  have hall : ∀ i < 8, (0xFF : BitVec 8).getLsbD i = true := by decide
  refine word_of_bytes fun i hi => ?_
  rw [s.get_setSpWord, Nat.add_sub_cancel_left, if_pos ⟨by omega, by omega, hall i hi⟩]

theorem spWord_setSpWord_other {w w' : Nat} (h : w' ≠ w) (m : BitVec 8) (v : BitVec 64) :
    (s.setSpWord t b w m v).spWord t b w' = s.spWord t b w' := by
  rw [spWord, Memory.word, getN_congr 8 (m := s.spad) _ fun i hi => ?_]
  · rfl
  · rw [s.get_setSpWord, if_neg]
    unfold spAddr
    omega

/-! ### What a request stores and reads (R273) -/

variable (pk : Packet)

/-- Whether a write stores its word j. -/
abbrev storesWord (j : Nat) : Prop := j / 4 + 1 < pk.len ∨ pk.be.getLsbD (j % 4) = true

/-- Word j of a write. -/
abbrev dataWord (j : Nat) : BitVec 64 := flitWord (pk.data.getD (j / 4) 0) (j % 4)

/-- The state in which the bank has stored the words of a write. -/
def stored (w : Nat) : State := (writeWords pk).foldl (fun s p => s.setSpWord t b (w + p.1) 0xFF p.2) s

/-- One word of the write is stored if BE names it. -/
def storeWord (w : Nat) (s : State) (j : Nat) : State := if storesWord pk j then s.setSpWord t b (w + j) 0xFF (dataWord pk j) else s

theorem stored_eq (w : Nat) : s.stored t b pk w = (List.range (4 * pk.len)).foldl (storeWord t b pk w) s := by
  unfold stored writeWords
  rw [List.foldl_filterMap]
  congr 1
  funext u j
  unfold storeWord
  by_cases h : storesWord pk j
  · rw [if_pos h, if_pos h]
  · rw [if_neg h, if_neg h]

theorem stored_word (w : Nat) {j : Nat} (hj : j < 4 * pk.len) : (s.stored t b pk w).spWord t b (w + j) =
    if storesWord pk j then dataWord pk j else s.spWord t b (w + j) := by
  rw [stored_eq]
  refine (foldl_range_local (fun _ => True) (fun u j => u.spWord t b (w + j)) (storeWord t b pk w)
    (fun j x => if storesWord pk j then dataWord pk j else x) (4 * pk.len) (fun _ _ _ _ => trivial) (fun u i _ _ => ?_)
    (fun u i k hk => ?_) s trivial j).trans (if_pos hj)
  · unfold storeWord
    split
    · exact u.spWord_setSpWord t b _ _
    · rfl
  · unfold storeWord
    split
    · exact u.spWord_setSpWord_other t b (by omega) _ _
    · rfl

theorem stored_frame (w : Nat) : ∃ m, s.stored t b pk w = { s with spad := m } ∧
    ∀ a, a < spAddr t b w ∨ spAddr t b w + 8 * (4 * pk.len) ≤ a → Memory.get m a = Memory.get s.spad a := by
  rw [stored_eq]
  refine List.foldlRecOn (motive := fun u => ∃ m, u = { s with spad := m } ∧
    ∀ a, a < spAddr t b w ∨ spAddr t b w + 8 * (4 * pk.len) ≤ a → Memory.get m a = Memory.get s.spad a) _ _ ⟨s.spad, rfl, fun _ _ => rfl⟩ ?_
  rintro u ⟨m, rfl, hm⟩ j hj
  have hlt := List.mem_range.mp hj
  unfold storeWord
  split
  · refine ⟨_, rfl, fun a ha => ?_⟩
    rw [Memory.get_putMask, if_neg, hm a ha]
    unfold spAddr at ha ⊢
    omega
  · exact ⟨m, rfl, hm⟩

theorem readWords_eq_map (w : Nat) (ecc : List EccAt) (n : Nat) : ∀ k, s.readWords t b w ecc k n =
    (List.range n).map fun j => eccWord (eccOf ecc (k + j)) (s.spWord t b (w + (k + j))) := by
  induction n with
  | zero => exact fun _ => rfl
  | succ n ih =>
    intro k
    rw [readWords, ih, List.range_succ_eq_map, List.map_cons, List.map_map]
    congr 1
    refine List.map_congr_left fun j _ => ?_
    simp only [Function.comp_apply, Nat.succ_eq_add_one]
    rw [Nat.add_right_comm k 1 j, Nat.add_assoc k j 1]

theorem anyUe_nil (n : Nat) : anyUe [] n = false := List.any_eq_false.mpr fun _ _ => Bool.false_ne_true

/-- The state in which the bank has read its words. -/
def wordsRead (w : Nat) (ecc : List EccAt) (n : Nat) : State :=
  (List.range n).foldl (fun s k => s.bankRead t b (w + k) 1 (eccOf ecc k)) s

theorem wordsRead_readAside (w : Nat) (ecc : List EccAt) (n : Nat) : ReadAside s (s.wordsRead t b w ecc n) :=
  .foldl (fun _ _ => ReadAside.refl.bankRead _ _ _ _ _) _ .refl

theorem wordsRead_clean (w n : Nat) : s.wordsRead t b w [] n = s := List.foldl_fixed' (fun _ => rfl) _

/-! ### A bank serves (R208, R215) -/

section serve

variable {s t pk} (ho : s.nocOwns t (aBank pk.addr) pk = true)
include ho

theorem scratchServe_read (hr : isWrite pk = false) (ecc : List EccAt) : s.scratchServe t pk ecc =
    (s.wordsRead t (aBank pk.addr) (aWord pk.addr) ecc (4 * pk.len)).respond (tileNode t) pk (if anyUe ecc (4 * pk.len) then 5 else 0)
      (flitsOf ((List.range (4 * pk.len)).map fun j => eccWord (eccOf ecc j) (s.spWord t (aBank pk.addr) (aWord pk.addr + j))) pk.len) := by
  unfold scratchServe
  dsimp only
  rw [ho, hr, readWords_eq_map]
  simp only [Nat.zero_add]
  rfl

theorem scratchServe_write (hw : isWrite pk = true) (ecc : List EccAt) : ∃ r, s.scratchServe t pk ecc =
      { s.stored t (aBank pk.addr) pk (aWord pk.addr) with regs := r, net := s.net ++ [Flight.mk (respOf pk (tileNode t) 0 []) (tileNode t)] } ∧
    ∀ k, k ≠ Reg.seqLoss → tget resetWord r k = s.reg k := by
  obtain ⟨m, hm, -⟩ := s.stored_frame t (aBank pk.addr) pk (aWord pk.addr)
  unfold scratchServe
  dsimp only
  rw [ho, hw, ← stored, hm]
  rw [if_neg (by decide), if_pos rfl]
  split
  · exact ⟨_, rfl, fun k hk => s.reg_setFlag_other hk 1 true⟩
  · exact ⟨_, rfl, fun k _ => rfl⟩

end serve

/-- Without a range unit that watches, the tile's bank serves what is addressed to it (R502). -/
theorem nodeServe_bank {s : State} {t : Nat} {pk : Packet} (ht : t < 64) (hspace : aSpace pk.addr = 1)
    (hru : ∀ r, r < 8 → s.flag (Reg.dbgRuCtrl t r) 31 = false) (ecc : List EccAt) :
    s.nodeServe (tileNode t) pk ecc = s.scratchServe t pk ecc := by
  have hunits : s.rangeUnits t pk false = s := by
    refine List.foldlRecOn (motive := fun u => u = s) _ _ rfl ?_
    rintro u rfl r hr
    have hmiss : u.rangeHit t r pk false = false := by simp [rangeHit, hru r (List.mem_range.mp hr)]
    rw [hmiss]
    rfl
  rw [nodeServe, nodeKind_tileNode ht]
  dsimp only
  rw [hunits, if_pos hspace]

/-! ### The lock of a locked request (R277) -/

abbrev isLocked (pk : Packet) : Prop := pk.cmd = 4 ∨ pk.cmd = 5

/-- The lock that a locked request opens, with n requests counted. -/
def lockOf (s : State) (node : Nat) (pk : Packet) (n : Nat) : Lock :=
  { s.lock node with isOpen := true, node := 10 * pk.sy + pk.sx, mid := pk.mid, count := n }

theorem openLock_of_free {s : State} {node : Nat} {pk : Packet} (hfree : (s.lock node).isOpen = false) (hm : mayLock pk = true) :
    s.openLock node pk = s.setLock node (s.lockOf node pk 0) := by
  rw [openLock, hfree, hm]
  rfl

theorem countLock_of_first {s s' : State} {node : Nat} {pk : Packet} (hl : s'.lock node = s.lockOf node pk 0) :
    s'.countLock node pk = s'.setLock node (s.lockOf node pk 1) := by
  have hholds : s'.holdsLock node pk = true := by simp [holdsLock, hl, lockOf]
  rw [countLock, if_pos hholds, hl]
  rfl

/-- What serves a request stands between the opening of its lock and its count, if it is a locked one. -/
theorem serveNow_locks {s : State} {node : Nat} {pk : Packet} (ecc : List EccAt)
    (h : isLocked pk → (s.lock node).isOpen = false ∧ mayLock pk = true ∧ s.findsBroken node pk = false)
    (hkeep : ∀ l, (({ s with locks := l } : State).nodeServe node pk ecc).locks = l) : ∃ l l',
    s.serveNow node pk ecc = { ({ s with locks := l } : State).nodeServe node pk ecc with locks := l' } ∧
      (isLocked pk → tget (fun _ => Lock.empty) l' node = s.lockOf node pk 1) := by
  by_cases hc : isLocked pk
  · obtain ⟨hfree, hm, hb⟩ := h hc
    refine ⟨(s.setLock node (s.lockOf node pk 0)).locks,
      (((s.setLock node (s.lockOf node pk 0)).nodeServe node pk ecc).setLock node (s.lockOf node pk 1)).locks, ?_,
      fun _ => lock_setLock _ node _⟩
    have hl : ((s.setLock node (s.lockOf node pk 0)).nodeServe node pk ecc).lock node = s.lockOf node pk 0 := by
      rw [lock, setLock, hkeep]
      exact tget_tput_same _ _ _ _
    rw [serveNow, if_pos hc, hb, if_neg Bool.false_ne_true, openLock_of_free hfree hm, countLock_of_first hl]
    rfl
  · refine ⟨s.locks, s.locks, ?_, fun h => absurd h hc⟩
    rw [serveNow, if_neg hc]
    have := hkeep s.locks
    generalize hv : ({ s with locks := s.locks } : State).nodeServe node pk ecc = v at this
    rw [← this]

/-! ### The request that is next (R215) -/

/-- The state in which request i has left the list of its node. -/
def takenOut (s : State) (node i : Nat) : State := s.setSrvAt node ((s.srvAt node).eraseIdx i)

theorem serveAt_of_next {s : State} {node i : Nat} {pk : Packet} {p : Packet → Bool} (f : State → Packet → State)
    (hi : (s.srvAt node)[i]? = some pk) (hp : p pk = true) (hn : s.servedAfter node i pk = false) (hspace : aSpace pk.addr = 1)
    (hr : isRemote node pk = false) (ha : s.admission node pk = 0) :
    s.serveAt node i p f = f (s.takenOut node i) pk := by
  have harr : s.arriving node pk = s := by rw [arriving, ha]; rfl
  unfold serveAt
  rw [hi]
  dsimp only
  rw [hp, hn, hspace, hr, harr, ha]
  rfl

/-- The state in which a bank serves request i of its tile, with the locks l: the request has left the list. -/
def serving (s : State) (t i : Nat) (l : Tab Lock) : State := { s.takenOut (tileNode t) i with locks := l }

section serving

variable {s : State} {t i : Nat} (l : Tab Lock)

theorem serving_reg (k : Nat) : (s.serving t i l).reg k = s.reg k := reg_of_regs rfl k

theorem serving_spWord (b w : Nat) : (s.serving t i l).spWord t b w = s.spWord t b w := rfl

theorem serving_nocOwns (b : Nat) (pk : Packet) : (s.serving t i l).nocOwns t b pk = s.nocOwns t b pk := rfl

end serving

/-- What the statement asks of a request, apart from its command. -/
structure ServedNext (s : State) (t i : Nat) (pk : Packet) : Prop where
  tile : t < 64
  next : (s.srvAt (tileNode t))[i]? = some pk
  order : s.servedAfter (tileNode t) i pk = false
  space : aSpace pk.addr = 1
  admitted : s.admission (tileNode t) pk = 0
  owns : s.nocOwns t (aBank pk.addr) pk = true
  unwatched : ∀ r, r < 8 → s.flag (Reg.dbgRuCtrl t r) 31 = false
  lock : isLocked pk → (s.lock (tileNode t)).isOpen = false ∧ mayLock pk = true ∧ s.findsBroken (tileNode t) pk = false

section next

variable {s : State} {t i : Nat} {pk : Packet} (h : s.ServedNext t i pk)
include h

theorem ServedNext.nodeServe (l : Tab Lock) (ecc : List EccAt) :
    (s.serving t i l).nodeServe (tileNode t) pk ecc = (s.serving t i l).scratchServe t pk ecc :=
  nodeServe_bank h.tile h.space (fun r hr => by rw [flag, serving_reg, ← flag, h.unwatched r hr]) ecc

theorem ServedNext.owns_serving (l : Tab Lock) : (s.serving t i l).nocOwns t (aBank pk.addr) pk = true :=
  (serving_nocOwns l _ _).trans h.owns

theorem ServedNext.locks (l : Tab Lock) (ecc : List EccAt) : ((s.serving t i l).scratchServe t pk ecc).locks = l := by
  cases hw : isWrite pk with
  | false =>
    obtain ⟨r, x, g, u, hread⟩ := ((s.serving t i l).wordsRead_readAside t (aBank pk.addr) (aWord pk.addr) ecc (4 * pk.len)).frame
    rw [scratchServe_read (h.owns_serving l) hw, hread]
    rfl
  | true =>
    obtain ⟨m, hm, -⟩ := (s.serving t i l).stored_frame t (aBank pk.addr) pk (aWord pk.addr)
    obtain ⟨r, hstore, -⟩ := scratchServe_write (h.owns_serving l) hw ecc
    rw [hstore, hm]
    rfl

end next

end State

theorem exec_scratchpadNocAccess (node i : Nat) (ecc : List EccAt) (s : State) : exec (.scratchpadNocAccess node i ecc) s =
    .next (s.serveAt node i (fun pk => aSpace pk.addr == 1 && pk.cmd != 6) fun s pk => s.serveNow node pk ecc) := rfl

/-- The request is served between what becomes of the locks. -/
theorem State.ServedNext.exec_eq {s : State} {t i : Nat} {pk : Packet} (h : s.ServedNext t i pk) (hc : pk.cmd ≠ 6) (ecc : List EccAt) :
    ∃ l l', exec (.scratchpadNocAccess (tileNode t) i ecc) s = .next { (s.serving t i l).scratchServe t pk ecc with locks := l' } ∧
      (State.isLocked pk → tget (fun _ => Lock.empty) l' (tileNode t) = s.lockOf (tileNode t) pk 1) := by
  have hremote : State.isRemote (tileNode t) pk = false := by rw [State.isRemote, nodeKind_tileNode h.tile]
  have hp : (aSpace pk.addr == 1 && pk.cmd != 6) = true := by simp [h.space, hc]
  have hserve : ∀ l, ({ s.takenOut (tileNode t) i with locks := l } : State).nodeServe (tileNode t) pk ecc =
      (s.serving t i l).scratchServe t pk ecc := fun l => h.nodeServe l ecc
  obtain ⟨l, l', he, hl⟩ := State.serveNow_locks (s := s.takenOut (tileNode t) i) ecc h.lock fun l => by rw [hserve, h.locks]
  refine ⟨l, l', ?_, hl⟩
  rw [exec_scratchpadNocAccess, State.serveAt_of_next _ h.next hp h.order h.space hremote h.admitted, he, hserve]

end Sys2Proof.Machine

open Sys2Proof Sys2Proof.Machine

/-- Settles O23: `State.ServedNext.exec_eq`, with `State.scratchServe_read` and `State.wordsRead_readAside` for a read, and
`State.scratchServe_write` and `State.stored_word` for a write. -/
theorem bankServesTheNetwork : Obligations.BankServesTheNetwork := by
  intro s t i pk ecc ht node b w n rest locked resp hnext horder hspace hadmit howns hunits hlock
  have h : s.ServedNext t i pk := ⟨ht, hnext, horder, hspace, hadmit, howns, hunits, hlock⟩
  refine ⟨fun hc => ?read, fun hc => ?write⟩
  case read =>
    have hr : State.isWrite pk = false := by rcases hc with hc | hc <;> simp [State.isWrite, hc]
    obtain ⟨l, l', he, hl⟩ := h.exec_eq (by omega) ecc
    obtain ⟨⟨r, x, g, u, hread⟩, msgs, hmsgs, hevt⟩ := (s.serving t i l).wordsRead_readAside t b w ecc n
    rw [he, State.scratchServe_read (h.owns_serving l) hr]
    refine ⟨_, rfl, ?_, ?_, fun hok => ?_, ⟨msgs, ?_, hevt⟩, hl⟩
    · rw [hread]; exact ⟨fun _ => rfl, fun _ => rfl⟩
    · rw [hread]; rfl
    · rw [hok, State.wordsRead_clean, State.anyUe_nil]
      rfl
    · rw [State.respond, hmsgs]
      rfl
  case write =>
    have hw : State.isWrite pk = true := by rcases hc with hc | hc <;> simp [State.isWrite, hc]
    obtain ⟨l, l', he, hl⟩ := h.exec_eq (by omega) ecc
    obtain ⟨r, hstore, hregs⟩ := State.scratchServe_write (h.owns_serving l) hw ecc
    obtain ⟨m, hm, hother⟩ := (s.serving t i l).stored_frame t b pk w
    have hword : ∀ j, j < n → ({ s with spad := m } : State).spWord t b (w + j) =
        if j / 4 + 1 < pk.len ∨ pk.be.getLsbD (j % 4) = true then State.flitWord (pk.data.getD (j / 4) 0) (j % 4)
        else s.spWord t b (w + j) := fun j hj => by
      have := (s.serving t i l).stored_word t b pk w hj
      rw [hm] at this
      exact this
    rw [he, hstore, hm]
    exact ⟨_, rfl, rfl, fun k hk => hregs k (by simpa using hk), hword, hother, hl⟩
end

section
/-! PROOFS. The canonical form of the memories and the register table (log 5), as an invariant: what each shape of definition (a table
with keys dropped, a branch, a fold, a check, an engine's run) passes on. In the sections that follow, `Canonical.f` says
that the model's function `f` keeps the form; each is proved from those of the functions that `f` calls. They are elaborated one
after the other (`Elab.async false`): hundreds of short proofs at once would each want a thread. -/

namespace Sys2Proof.Machine

/-- A table with every value changed, but for those that then are their key's default. -/
def reloaded {α : Type} [DecidableEq α] (d : Nat → α) (t : Tab α) (g : Nat → α → α) : Tab α :=
  (t.map fun e => (e.1, g e.1 e.2)).filter fun e => decide (e.2 ≠ d e.1)

theorem twf_reloaded {α : Type} [DecidableEq α] {d : Nat → α} {t : Tab α} {lo : Nat} (g : Nat → α → α)
    (w : twf d lo t = true) : twf d lo (reloaded d t g) = true := by
  induction t generalizing lo with
  | nil => rfl
  | cons e t ih =>
    obtain ⟨k, v⟩ := e
    simp only [twf, Bool.and_eq_true, decide_eq_true_eq] at w
    obtain ⟨⟨hk, -⟩, ht⟩ := w
    simp only [reloaded, List.map_cons, List.filter_cons] at ih ⊢
    by_cases hg : g k v = d k
    · rw [if_neg (by simp [hg])]
      exact twf_mono d (by omega) _ (ih ht)
    · rw [if_pos (by simp [hg])]
      simp only [twf, Bool.and_eq_true, decide_eq_true_eq]
      exact ⟨⟨hk, hg⟩, ih ht⟩

namespace State

variable {s : State}

/-! ### The shapes of a definition -/

theorem Canonical.spad (h : s.Canonical) : Memory.wf s.spad = true := h.1
theorem Canonical.hbm (h : s.Canonical) : Memory.wf s.hbm = true := h.2.1
theorem Canonical.regs (h : s.Canonical) : twf resetWord 0 s.regs = true := h.2.2

/-- What changes neither the memories nor the register table keeps the canonical form. -/
theorem Canonical.frame {t : State} (h : s.Canonical) (hs : t.spad = s.spad := by rfl) (hm : t.hbm = s.hbm := by rfl)
    (hr : t.regs = s.regs := by rfl) : t.Canonical := by
  rw [Canonical, hs, hm, hr]
  exact h

theorem Canonical.ite {c : Prop} [Decidable c] {a b : State} (h : s.Canonical) (ha : s.Canonical → a.Canonical)
    (hb : s.Canonical → b.Canonical) : (if c then a else b).Canonical := by
  split
  · exact ha h
  · exact hb h

theorem Canonical.ite_of {c : Prop} [Decidable c] {a b : State} (ha : a.Canonical) (hb : b.Canonical) :
    (if c then a else b).Canonical := by
  split
  · exact ha
  · exact hb

theorem Canonical.foldl {α : Type} {l : List α} {f : State → α → State} (h : s.Canonical)
    (hf : ∀ {s a}, s.Canonical → (f s a).Canonical) : (l.foldl f s).Canonical := by
  induction l generalizing s with
  | nil => exact h
  | cons a l ih => exact ih (hf h)

/-! ### Updates of one field

A chain of these is checked against the shape of an update field by field; `Canonical.frame` would have to guess the states between. -/

theorem Canonical.setReg {k v} (h : s.Canonical) : (s.setReg k v).Canonical := ⟨h.spad, h.hbm, s.setReg_wf k v h.regs⟩

theorem Canonical.dropKeys {p : Nat → Bool} (h : s.Canonical) : Canonical { s with regs := tdrop p s.regs } :=
  ⟨h.spad, h.hbm, twf_tdrop _ _ _ h.regs⟩

theorem Canonical.dropCells {p : Nat → Bool} (h : s.Canonical) : Canonical { s with spad := tdrop p s.spad } :=
  ⟨Memory.wf_tdrop _ _ h.spad, h.hbm, h.regs⟩

theorem Canonical.setLedger {l} (h : s.Canonical) : Canonical { s with ledger := l } := h

theorem Canonical.setLanes {v} (h : s.Canonical) : Canonical { s with lanes := v } := h

theorem Canonical.setSeq {v} (h : s.Canonical) : Canonical { s with seq := v } := h

theorem Canonical.setSs {v} (h : s.Canonical) : Canonical { s with ss := v } := h

theorem Canonical.setPm {v} (h : s.Canonical) : Canonical { s with pm := v } := h

theorem Canonical.setMasters {v} (h : s.Canonical) : Canonical { s with masters := v } := h

theorem Canonical.setLoad {v} (h : s.Canonical) : Canonical { s with load := v } := h

theorem Canonical.setImage {l v} (h : s.Canonical) : Canonical { s with load := l, image := v } := h

theorem Canonical.setTio {v} (h : s.Canonical) : Canonical { s with tio := v } := h

theorem Canonical.setFree {v} (h : s.Canonical) : Canonical { s with free := v } := h

theorem Canonical.setTt {v} (h : s.Canonical) : Canonical { s with tt := v } := h

theorem Canonical.setFab {v} (h : s.Canonical) : Canonical { s with fab := v } := h

theorem Canonical.setHbmBad {v} (h : s.Canonical) : Canonical { s with hbmBad := v } := h

/-! ### An engine's run -/

theorem Canonical.ite_s {c : Prop} [Decidable c] {x y : Eng} (hx : x.s.Canonical) (hy : y.s.Canonical) :
    (if c then x else y).s.Canonical := by
  split
  · exact hx
  · exact hy

theorem Canonical.withState {x : Eng} {t : State} (h : t.Canonical) : ({ x with s := t } : Eng).s.Canonical := h

theorem Canonical.onThen {x : Eng} {t : State} (h : x.s.Canonical) (ht : t.Canonical) :
    (if x.on then { x with s := t } else x).s.Canonical := .ite_s ht.withState h

theorem Canonical.engStart (h : s.Canonical) : (Eng.start s).s.Canonical := h

/-- Stated apart: compared under the projection to their states, the kernel would unfold both engines. -/
theorem Canonical.of_eng_eq {x y : Eng} (h : y.s.Canonical) (e : x = y) : x.s.Canonical := e ▸ h

theorem Canonical.foldl_s {α : Type} {l : List α} {f : Eng → α → Eng} {x : Eng} (h : x.s.Canonical)
    (hf : ∀ {y : Eng} {a}, y.s.Canonical → (f y a).s.Canonical) : (l.foldl f x).s.Canonical :=
  List.foldlRecOn (motive := fun y => y.s.Canonical) l f h fun _ h _ _ => hf h

/-! ### Checks -/

/-- What comes out of a check that passes is canonical. -/
def OkCanonical {ε : Type} (r : Except ε State) : Prop := ∀ t, r = .ok t → t.Canonical

section ok

variable {ε : Type}

theorem OkCanonical.error {e : ε} : OkCanonical (.error e) := fun _ h => nomatch h

theorem OkCanonical.ok (h : s.Canonical) : OkCanonical (.ok s : Except ε State) := fun t ht => by
  cases ht
  exact h

theorem OkCanonical.of_eq {r : Except ε State} (hr : OkCanonical r) {t : State} (ht : r = .ok t) : t.Canonical := hr t ht

theorem OkCanonical.ite {c : Prop} [Decidable c] {a b : Except ε State} (ha : OkCanonical a) (hb : OkCanonical b) :
    OkCanonical (if c then a else b) := by
  split
  · exact ha
  · exact hb

theorem OkCanonical.bind {r : Except ε State} {f : State → Except ε State} (hr : OkCanonical r)
    (hf : ∀ {u : State}, u.Canonical → OkCanonical (f u)) : OkCanonical (r >>= f) := by
  cases r with
  | error e => exact .error
  | ok u => exact hf (hr u rfl)

theorem Canonical.foldlM {α : Type} {l : List α} {f : State → α → Except ε State} (h : s.Canonical)
    (hf : ∀ {u : State} {a}, u.Canonical → OkCanonical (f u a)) : OkCanonical (l.foldlM f s) := by
  induction l generalizing s with
  | nil => exact .ok h
  | cons a l ih =>
    rw [List.foldlM_cons]
    exact (hf h).bind ih

end ok

end State

end Sys2Proof.Machine
end

section
/-! PROOFS. The canonical form (log 5) through the operations on registers, records, the run and the store's blocks. -/

namespace Sys2Proof.Machine.State

set_option Elab.async false

variable {s : State}

/-! ### Registers, errors and power calls -/

theorem Canonical.setFld {k hi lo v} (h : s.Canonical) : (s.setFld k hi lo v).Canonical := h.setReg

theorem Canonical.setFlag {k i b} (h : s.Canonical) : (s.setFlag k i b).Canonical := h.setFld

theorem Canonical.count {k hi lo n} (h : s.Canonical) : (s.count k hi lo n).Canonical := h.setFld

theorem Canonical.evtSend {node vec} (h : s.Canonical) : (s.evtSend node vec).Canonical := h.frame

theorem Canonical.irq {vec} (h : s.Canonical) : (s.irq vec).Canonical := h.evtSend

theorem Canonical.irqIf {b vec} (h : s.Canonical) : (s.irqIf b vec).Canonical := h.ite (·.irq) id

theorem Canonical.answer {v} (h : s.Canonical) : (s.answer v).Canonical := h.frame

theorem Canonical.record {sev cls code node det0 det1 det2} (h : s.Canonical) :
    (s.record sev cls code node det0 det1 det2).Canonical := by
  unfold State.record
  split
  · exact h.setLedger.setReg.irqIf
  · exact h.count

theorem Canonical.setClu {t c x} (h : s.Canonical) : (s.setClu t c x).Canonical := h.frame

theorem Canonical.setLane {l x} (h : s.Canonical) : (s.setLane l x).Canonical := h.frame

theorem Canonical.setBank {t b x} (h : s.Canonical) : (s.setBank t b x).Canonical := h.frame

theorem Canonical.setSpWord {t b w mask v} (h : s.Canonical) : (s.setSpWord t b w mask v).Canonical :=
  ⟨Memory.wf_putMask _ _ _ _ _ h.spad, h.hbm, h.regs⟩

theorem Canonical.setMaster {node mid m} (h : s.Canonical) : (s.setMaster node mid m).Canonical := h.frame

theorem Canonical.setTile {t x} (h : s.Canonical) : (s.setTile t x).Canonical := h.frame

theorem Canonical.setPort {p x} (h : s.Canonical) : (s.setPort p x).Canonical := h.frame

theorem Canonical.addSteps {t n} (h : s.Canonical) : (s.addSteps t n).Canonical := h.frame

/-! ### The run -/

theorem Canonical.nameTile {tile stored} (h : s.Canonical) : (s.nameTile tile stored).Canonical := by
  unfold State.nameTile
  split
  · exact h.ite (·.setFld) id
  · exact h

theorem Canonical.seqFaultBit {b} (h : s.Canonical) : (s.seqFaultBit b).Canonical := h.setFlag.irqIf

theorem Canonical.seqReport {b code node tile det0 det1 det2} (h : s.Canonical) :
    (s.seqReport b code node tile det0 det1 det2).Canonical :=
  h.record.seqFaultBit.nameTile

theorem Canonical.stopRun (h : s.Canonical) : s.stopRun.Canonical := h.frame

theorem Canonical.loss {b} (h : s.Canonical) : (s.loss b).Canonical := h.setFlag

theorem Canonical.memError {node tile det0 det1 det2} (h : s.Canonical) : (s.memError node tile det0 det1 det2).Canonical :=
  h.seqReport.ite (fun h => h.loss.ite (·.frame) id) id

theorem Canonical.clusterFault {t c x b low code sb det0 det1} (h : s.Canonical) :
    (s.clusterFault t c x b low code sb det0 det1).Canonical :=
  (h.ite (·.setFld) id).setFlag.setClu.seqReport.stopRun

theorem Canonical.tagFault {t c x orphan pos step expTag rcvTag} (h : s.Canonical) :
    (s.tagFault t c x orphan pos step expTag rcvTag).Canonical :=
  h.clusterFault

theorem Canonical.iparFault {t c x kind idx slot} (h : s.Canonical) : (s.iparFault t c x kind idx slot).Canonical := h.clusterFault

theorem Canonical.unbarIfHalted {t} (h : s.Canonical) : (s.unbarIfHalted t).Canonical := h.ite (·.loss) id

theorem Canonical.setPw {k x} (h : s.Canonical) : (s.setPw k x).Canonical := h.frame

theorem Canonical.cancelDown {k} (h : s.Canonical) : (s.cancelDown k).Canonical := h.setFld.count

theorem Canonical.domainCall {k} (h : s.Canonical) : (s.domainCall k).Canonical := by
  unfold State.domainCall
  split
  · exact h.cancelDown
  · exact h
  · exact h
  · exact h.setPw

theorem Canonical.ctrlSend {p r} (h : s.Canonical) : (s.ctrlSend p r).Canonical := h.setPort

theorem Canonical.ctrlFlood {but r} (h : s.Canonical) : (s.ctrlFlood but r).Canonical := h.foldl fun h => h.ite (·.ctrlSend) id

theorem Canonical.floodStart {kind cyc} (h : s.Canonical) : (s.floodStart kind cyc).Canonical := h.frame.ctrlFlood

theorem Canonical.armAt {cause cyc step keep} (h : s.Canonical) : (s.armAt cause cyc step keep).Canonical :=
  (h.ite (·.setFlag) id).frame

theorem Canonical.armPoint {cause cyc step asked keep} (h : s.Canonical) : (s.armPoint cause cyc step asked keep).Canonical :=
  (h.ite (·.floodStart.setFlag) id).armAt

/-! ### Blocks of the store -/

theorem Canonical.dirWrite {f} (h : s.Canonical) : (s.dirWrite f).Canonical := h.frame

theorem Canonical.recordWrite {id} (h : s.Canonical) : (s.recordWrite id).Canonical := h.frame

theorem Canonical.moveBlock {x} (h : s.Canonical) : (s.moveBlock x).Canonical := by
  unfold State.moveBlock
  split
  · exact h.frame
  · exact h

theorem Canonical.putPage {region n w} (h : s.Canonical) : (s.putPage region n w).Canonical := h.frame

theorem Canonical.relocate {x} (h : s.Canonical) : (s.relocate x).Canonical := h.moveBlock.count

theorem Canonical.countRead {x} (h : s.Canonical) : (s.countRead x).Canonical := (h.ite (·.relocate) id).frame

theorem Canonical.countReads {slot n} (h : s.Canonical) : (s.countReads slot n).Canonical := h.foldl (·.countRead)

theorem Canonical.retireBlock {q} (h : s.Canonical) : (s.retireBlock q).Canonical := by
  unfold State.retireBlock
  split
  · exact h
  · refine (Canonical.dirWrite ?_).record.ite (·.record) id
    split
    · exact h.moveBlock
    · exact h

theorem Canonical.retire {l} (h : s.Canonical) : (s.retire l).Canonical := h.foldl (·.retireBlock)

theorem Canonical.copyLost {c} (h : s.Canonical) : (s.copyLost c).Canonical := by
  unfold State.copyLost
  dsimp only
  split
  · exact h.frame
  · split
    · exact h.frame
    · exact h
  · exact h.frame
  · split
    · exact h.frame
    · exact h
  · exact h.frame
  · split
    · exact h.frame
    · exact h.frame

theorem Canonical.readCopies {lost} (h : s.Canonical) : (s.readCopies lost).Canonical :=
  (h.foldl (·.copyLost)).foldl (·.countRead)

/-! ### Probes -/

theorem Canonical.probeTake {t c x p} (h : s.Canonical) : (s.probeTake t c x p).Canonical := h.foldl fun h => h.ite (·.setTile) id

theorem Canonical.probeStep {t c x st} (h : s.Canonical) : (s.probeStep t c x st).Canonical := h.probeTake

theorem Canonical.probeCommit {t c x} (h : s.Canonical) : (s.probeCommit t c x).Canonical := h.probeTake

end Sys2Proof.Machine.State
end

section
/-! PROOFS. The canonical form (log 5) through the steps of clusters and the bytes of lanes. -/

namespace Sys2Proof.Machine.State

set_option Elab.async false

variable {s : State}

/-! ### Clusters -/

theorem Canonical.compareHeads {t c} (h : s.Canonical) : (s.compareHeads t c).Canonical := by
  unfold State.compareHeads
  dsimp only
  split
  · exact h.tagFault
  · exact h

theorem Canonical.sramError {t c store unit entry} (h : s.Canonical) : (s.sramError t c store unit entry).Canonical := h.memError

theorem Canonical.sramErrors {t c ue} (h : s.Canonical) : (s.sramErrors t c ue).Canonical := h.foldl fun h => h.ite (·.sramError) id

theorem Canonical.turn {t c ue} (h : s.Canonical) : (s.turn t c ue).Canonical := by
  unfold State.turn
  dsimp only
  split
  · split
    · exact h.sramErrors.iparFault
    · split
      · exact h.sramErrors.iparFault
      · exact h.sramErrors.setClu.compareHeads
  · exact h

theorem Canonical.sendLanes {t c x e} (h : s.Canonical) : (s.sendLanes t c x e).Canonical := h.foldl fun h => h.ite (·.setLane) id

theorem Canonical.pushHbm {t c x} (h : s.Canonical) : (s.pushHbm t c x).Canonical :=
  h.foldl fun h => by
    dsimp only
    split
    · exact h.ite (fun h => h.ite (·.setMaster) (·.setFlag)) id
    · exact h

theorem Canonical.countWaits {t c x} (h : s.Canonical) : (s.countWaits t c x).Canonical := h.ite (·.count) fun h => h.ite (·.count) id

theorem Canonical.countStep {t c x} (h : s.Canonical) : (s.countStep t c x).Canonical := h.ite (·.addSteps) id

theorem Canonical.advanceCluster {t c x e} (h : s.Canonical) : (s.advanceCluster t c x e).Canonical := by
  unfold State.advanceCluster
  dsimp only
  split
  · split
    · exact h.probeStep.probeCommit.setClu.tagFault
    · exact h.probeStep.probeCommit.setClu
  · exact h.probeStep.setClu

theorem Canonical.cmpHit {t c i pst st} (h : s.Canonical) : (s.cmpHit t c i pst st).Canonical := by
  unfold State.cmpHit
  dsimp only
  split
  · exact (h.ite id (·.setFld.setFlag.setReg)).armPoint
  · exact (h.ite id (·.setFld.setFlag.setReg)).armPoint
  · exact h.ite id (·.setFld.setFlag.setReg)

theorem Canonical.stepCmps {t c st} (h : s.Canonical) : (s.stepCmps t c st).Canonical := h.foldl fun h => h.ite (·.cmpHit) id

theorem Canonical.spCmps {t c x} (h : s.Canonical) : (s.spCmps t c x).Canonical :=
  h.foldl fun h => by
    split
    · exact h.foldl fun h => h.ite (·.cmpHit) id
    · exact h

theorem Canonical.beginStep {t c x ue} (h : s.Canonical) : (s.beginStep t c x ue).Canonical := by
  unfold State.beginStep
  dsimp only
  split
  · exact h.sramErrors.iparFault
  · exact h.sramErrors.countWaits.spCmps.sendLanes.pushHbm.countStep.advanceCluster

theorem Canonical.cluStep {t c ue} (h : s.Canonical) : (s.cluStep t c ue).Canonical := by
  unfold State.cluStep
  dsimp only
  split
  · split
    · exact h.tagFault
    · exact (h.ite id (·.stepCmps)).ite (·.setClu) (·.beginStep)
  · exact h.ite (fun h => h.setClu.ite (·.compareHeads) id) id

theorem Canonical.arrive {t c j err} (h : s.Canonical) : (s.arrive t c j err).Canonical := by
  unfold State.arrive
  dsimp only
  split
  · exact h.ite (fun h => h.setLane.setClu.ite (·.compareHeads) id) id
  · exact h

theorem Canonical.cluAccStart {who t c v} (h : s.Canonical) : (s.cluAccStart who t c v).Canonical :=
  h.setReg.ite (fun h => h.ite (fun h => h.setClu.setFlag.ite (·.loss) id) (·.setFlag)) id

theorem Canonical.cluAccDone {t c} (h : s.Canonical) : (s.cluAccDone t c).Canonical := by
  unfold State.cluAccDone
  dsimp only
  split
  · exact h
  · exact h.setFlag.ite (·.setClu) fun h => h.setClu.setReg.ite (·.setReg.setReg) id

theorem Canonical.cluAccess {who t c cmd} (h : s.Canonical) : (s.cluAccess who t c cmd).Canonical := h.cluAccStart.cluAccDone

theorem Canonical.wuAccStart {who t c pw v} (h : s.Canonical) : (s.wuAccStart who t c pw v).Canonical :=
  h.setReg.ite (fun h => h.ite (fun h => h.setClu.setFlag.ite (·.loss) id) (·.setFlag)) id

theorem Canonical.wuAccDone {t c pw} (h : s.Canonical) : (s.wuAccDone t c pw).Canonical := by
  unfold State.wuAccDone
  dsimp only
  split
  · exact h
  · exact h.setFlag.ite (·.setClu) fun h => ((h.setClu.setReg.ite id (·.setReg)).ite (·.setReg) id).ite (·.setReg) id

theorem Canonical.wuAccess {who t c pw cmd} (h : s.Canonical) : (s.wuAccess who t c pw cmd).Canonical := h.wuAccStart.wuAccDone

theorem Canonical.flopPut {who t c p k v} (h : s.Canonical) : (s.flopPut who t c p k v).Canonical := h.setReg.cluAccess

theorem Canonical.wuRegPut {who t c pw r v} (h : s.Canonical) : (s.wuRegPut who t c pw r v).Canonical := h.setReg.setReg.wuAccess

theorem Canonical.wuCarryPut {who t c pw b} (h : s.Canonical) : (s.wuCarryPut who t c pw b).Canonical := h.setReg.wuAccess

/-! ### Lanes -/

theorem Canonical.laneFault {l place kind rtag} (h : s.Canonical) : (s.laneFault l place kind rtag).Canonical :=
  (h.ite id (·.setReg.setReg)).setLane.record.seqFaultBit.nameTile.stopRun

theorem Canonical.countHeld {l i x} (h : s.Canonical) : (s.countHeld l i x).Canonical :=
  h.ite (fun h => h.setLane.ite (·.count) (fun h => h.ite (·.count) id)) id

theorem Canonical.stagePass {l i err} (h : s.Canonical) : (s.stagePass l i err).Canonical := by
  unfold State.stagePass
  dsimp only
  split
  · exact h
  · split
    · split
      · exact h.setLane
      · exact h.laneFault
    · exact h.countHeld

theorem Canonical.setWelt {t i w} (h : s.Canonical) : (s.setWelt t i w).Canonical := h.setTile

theorem Canonical.weltPass {t i inbound b} (h : s.Canonical) : (s.weltPass t i inbound b).Canonical := by
  unfold State.weltPass
  split
  · exact h
  · exact h.ite (·.setWelt) fun h => h.ite (·.setWelt) id

theorem Canonical.headTaken {u} (h : s.Canonical) : (s.headTaken u).Canonical := by
  unfold State.headTaken
  dsimp only
  split
  · exact h.setLane.ctrlSend
  · exact h.setLane

theorem Canonical.mergeTake {l err flip} (h : s.Canonical) : (s.mergeTake l err flip).Canonical := by
  unfold State.mergeTake
  dsimp only
  split
  · split
    · exact h.laneFault
    · split
      · exact h
      · split
        · exact h
        · split
          · split
            · exact h.laneFault
            · exact h.headTaken.setLane.weltPass
          · exact h
  · exact h

theorem Canonical.portDeliver {p lane} (h : s.Canonical) : (s.portDeliver p lane).Canonical := by
  unfold State.portDeliver
  dsimp only
  split
  · exact h
  · exact h.ite (·.setPort.setLane) id

theorem Canonical.raccStart {who t v} (h : s.Canonical) : (s.raccStart who t v).Canonical :=
  h.setReg.ite (fun h => h.ite (fun h => h.setTile.setFlag.ite (·.unbarIfHalted) id) (·.setFlag)) id

theorem Canonical.raccDone {t} (h : s.Canonical) : (s.raccDone t).Canonical := by
  unfold State.raccDone
  split
  · exact h
  · dsimp only
    split
    · exact h.setTile.setFlag
    · exact h.setTile.setFlag.ite (fun h => h.ite (·.setLane) (·.setLane)) (·.setReg)

end Sys2Proof.Machine.State
end

section
/-! PROOFS. The canonical form (log 5) through the network, the banks of the scratchpads and the HBM controllers. Bytes are written by
`setSpWord` and `hbmFlatPut`, and dropped from a table. -/

namespace Sys2Proof.Machine.State

set_option Elab.async false

variable {s : State}

/-! ### The network -/

theorem Canonical.recordViolation {node mid pk cause tgt} (h : s.Canonical) : (s.recordViolation node mid pk cause tgt).Canonical :=
  h.record.ite id (·.setReg.setReg.setReg)

theorem Canonical.wuErr {t c pw code} (h : s.Canonical) : (s.wuErr t c pw code).Canonical :=
  h.ite id fun h => h.setFld.count.ite id (·.loss)

theorem Canonical.wuRespond {t c pw rsp} (h : s.Canonical) : (s.wuRespond t c pw rsp).Canonical := h.setClu.foldl (·.wuErr)

theorem Canonical.handOver {node mid rsp} (h : s.Canonical) : (s.handOver node mid rsp).Canonical := by
  unfold State.handOver
  split
  · exact h.wuRespond
  · dsimp only
    split
    · exact h.setMaster.setPort
    · exact h.setMaster
  · exact h.frame
  · exact h.setMaster

theorem Canonical.endLocal {node mid pk code} (h : s.Canonical) : (s.endLocal node mid pk code).Canonical := h.handOver

theorem Canonical.violate {node mid pk cause} (h : s.Canonical) : (s.violate node mid pk cause).Canonical :=
  h.recordViolation.ite (·.endLocal) (·.setMaster)

theorem Canonical.launch {node mid pk dest slot} (h : s.Canonical) : (s.launch node mid pk dest slot).Canonical := by
  unfold State.launch
  dsimp only
  split
  · split
    · exact h.frame
    · exact h.frame
  · exact h.frame

theorem Canonical.wuLocal {t c pw pk code} (h : s.Canonical) : (s.wuLocal t c pw pk code).Canonical := by
  unfold State.wuLocal
  dsimp only
  split
  · exact h.setClu.wuRespond
  · exact h

theorem Canonical.endUnsent {node mid pk code} (h : s.Canonical) : (s.endUnsent node mid pk code).Canonical := by
  unfold State.endUnsent
  split
  · exact h.wuLocal
  · exact h.endLocal

theorem Canonical.rangeAct {t r pk record act} (h : s.Canonical) : (s.rangeAct t r pk record act).Canonical := by
  unfold State.rangeAct
  dsimp only
  split
  · split
    · exact ((h.ite (·.setTile) id).ite (·.setFlag.setReg.setReg.setReg) id).irq
    · exact ((h.ite (·.setTile) id).ite (·.setFlag.setReg.setReg.setReg) id).armPoint
    · exact ((h.ite (·.setTile) id).ite (·.setFlag.setReg.setReg.setReg) id).ite (·.armPoint) (·.frame)
    · exact (h.ite (·.setTile) id).ite (·.setFlag.setReg.setReg.setReg) id
  · exact (h.ite (·.setTile) id).ite (·.setFlag.setReg.setReg.setReg) id

theorem Canonical.rangeUnits {t pk fromWu} (h : s.Canonical) : (s.rangeUnits t pk fromWu).Canonical :=
  h.foldl fun h => h.ite (fun h => h.ite (fun h => h.ite (·.rangeAct)
    (fun h => h.ite (fun h => h.rangeAct.ite (·.rangeAct) id) (·.rangeAct)))
    (fun h => h.ite (fun h => h.ite (·.rangeAct) id) (fun h => h.ite (·.rangeAct) (·.rangeAct)))) id

theorem Canonical.request {node mid pk0} (h : s.Canonical) : (s.request node mid pk0).Canonical := by
  unfold State.request
  refine h.ite (·.setMaster) fun h => h.ite (·.violate) fun h => h.ite (·.violate) fun h => h.ite (·.endUnsent) fun h => ?_
  split
  · exact h.endUnsent
  · refine h.ite (·.frame) fun h => ?_
    split
    · refine Canonical.launch ?_
      split
      · exact h.rangeUnits
      · exact h
    · exact h.setMaster

theorem Canonical.handIn {node mid pk} (h : s.Canonical) : (s.handIn node mid pk).Canonical := h.ite (·.request) (·.setMaster)

theorem Canonical.nocSend {node mid req} (h : s.Canonical) : (s.nocSend node mid req).Canonical := by
  unfold State.nocSend
  split
  · exact h
  · split
    · split
      · exact h.handIn
      · exact h
    · dsimp only
      split
      · exact h.ite id (·.setMaster.request)
      · exact h

theorem Canonical.setLock {node l} (h : s.Canonical) : (s.setLock node l).Canonical := h.frame

theorem Canonical.setQueueAt {node l} (h : s.Canonical) : (s.setQueueAt node l).Canonical := h.frame

theorem Canonical.setSrvAt {node l} (h : s.Canonical) : (s.setSrvAt node l).Canonical := h.frame

theorem Canonical.respond {node pk code data} (h : s.Canonical) : (s.respond node pk code data).Canonical := h.frame

theorem Canonical.violateAt {node pk cause} (h : s.Canonical) : (s.violateAt node pk cause).Canonical :=
  h.recordViolation.ite (·.respond) (·.setMaster)

theorem Canonical.take {node pk} (h : s.Canonical) : (s.take node pk).Canonical := by
  unfold State.take
  dsimp only
  split
  · exact Canonical.ite_of h.rangeUnits.violateAt h.setSrvAt
  · exact h.setSrvAt

theorem Canonical.hold {node pk} (h : s.Canonical) : (s.hold node pk).Canonical := h.ite (·.setQueueAt) (·.respond.count)

theorem Canonical.arriving {node pk} (h : s.Canonical) : (s.arriving node pk).Canonical := by
  unfold State.arriving
  split
  · exact h.cancelDown
  · exact h

theorem Canonical.letIn {node pk} (h : s.Canonical) : (s.letIn node pk).Canonical := by
  unfold State.letIn
  dsimp only
  split
  · exact h.arriving.take
  · exact h.arriving.respond
  · exact h.arriving.respond
  · exact h.arriving.hold

theorem Canonical.drainQueue {node} (h : s.Canonical) : (s.drainQueue node).Canonical := h.setQueueAt.foldl (·.letIn)

theorem Canonical.depart {i f} (h : s.Canonical) : (s.depart i f).Canonical := h.frame

theorem Canonical.forward {i err} (h : s.Canonical) : (s.forward i err).Canonical := by
  have hcount : ∀ {u : State} {c : Prop} [Decidable c], u.Canonical → (if c then u.count Reg.nocLink 31 16 1 else u).Canonical :=
    fun h => h.ite (·.count) id
  unfold State.forward
  split
  · exact h
  · refine h.ite id fun h => ?_
    split
    · exact h.depart.count.record
    · refine h.ite (fun h => h.ite hcount fun h => h.ite ?_ ?_) ?_
      · exact fun h => (hcount h.depart).frame
      · exact fun h => (hcount h.depart).letIn
      · exact fun h => (hcount h.depart).frame

theorem Canonical.countLate {node mid} (h : s.Canonical) : (s.countLate node mid).Canonical := by
  unfold State.countLate
  dsimp only
  split
  · exact h.count.count
  · exact h.count

theorem Canonical.deliver {node rsp} (h : s.Canonical) : (s.deliver node rsp).Canonical :=
  h.ite (fun h => h.ite (·.setMaster) (·.setMaster.handOver)) (·.setMaster.countLate)

theorem Canonical.respArrive {i wu} (h : s.Canonical) : (s.respArrive i wu).Canonical := by
  unfold State.respArrive
  split
  · exact h
  · exact h.ite (fun h => h.depart.ite (·.countLate) (·.deliver)) id

theorem Canonical.timeout {node mid k} (h : s.Canonical) : (s.timeout node mid k).Canonical := by
  unfold State.timeout
  dsimp only
  split
  · split
    · exact h.ite (·.setMaster) (·.setMaster.handOver)
    · exact h
  · exact h.setMaster

theorem Canonical.slotReuse {node mid k} (h : s.Canonical) : (s.slotReuse node mid k).Canonical := h.setMaster

theorem Canonical.endBankViol {node mid} (h : s.Canonical) : (s.endBankViol node mid).Canonical := by
  unfold State.endBankViol
  split
  · dsimp only
    split
    · exact h.ite (·.setClu.wuErr) id
    · exact h
  · exact h

theorem Canonical.endBad {node mid r} (h : s.Canonical) : (s.endBad node mid r).Canonical := by
  unfold State.endBad
  split
  · exact h.wuLocal
  · exact h.handOver

theorem Canonical.unfreeze {node mid} (h : s.Canonical) : (s.unfreeze node mid).Canonical := by
  unfold State.unfreeze
  refine h.ite (fun h => ?_) id
  refine (Canonical.endBankViol ?_).foldl fun h => h.ite (·.endUnsent) (·.handIn)
  split
  · exact ((h.setMaster.foldl (·.handOver)).foldl (·.deliver)).endBad
  · exact (h.setMaster.foldl (·.handOver)).foldl (·.deliver)

theorem Canonical.breakLock {node} (h : s.Canonical) : (s.breakLock node).Canonical := h.ite (·.setLock.drainQueue) id

theorem Canonical.answerBroken {node pk} (h : s.Canonical) : (s.answerBroken node pk).Canonical := h.setLock.respond

theorem Canonical.openLock {node pk} (h : s.Canonical) : (s.openLock node pk).Canonical := h.ite id (·.setLock)

theorem Canonical.countLock {node pk} (h : s.Canonical) : (s.countLock node pk).Canonical :=
  h.ite (fun h => h.setLock.ite (·.breakLock) id) id

theorem Canonical.releaseLock {node} (h : s.Canonical) : (s.releaseLock node).Canonical := h.setLock.drainQueue

theorem Canonical.regAccess {who key wr peek v f} (h : s.Canonical) (hf : ∀ {u : State}, u.Canonical → (f u).Canonical) :
    (s.regAccess who key wr peek v f).Canonical :=
  h.ite id fun h => h.ite hf fun h => h.ite (fun h => hf h.arriving) (·.handIn)

theorem Canonical.regWrite {who key v f} (h : s.Canonical) (hf : ∀ {u : State}, u.Canonical → (f u v).Canonical) :
    (s.regWrite who key v f).Canonical := h.regAccess hf

theorem Canonical.unfreezeWrite {v} (h : s.Canonical) : (s.unfreezeWrite v).Canonical :=
  h.setReg.ite (fun h => h.foldl (·.unfreeze)) fun h => h.ite (·.unfreeze) id

/-! ### Banks -/

theorem Canonical.bankUe {t b w src} (h : s.Canonical) : (s.bankUe t b w src).Canonical :=
  (h.count.ite id (·.setReg.setReg.irqIf)).ite (·.memError) id

theorem Canonical.bankRead {t b w src e} (h : s.Canonical) : (s.bankRead t b w src e).Canonical := by
  unfold State.bankRead
  split
  · exact h
  · exact h
  · exact h.count
  · exact h.bankUe

theorem Canonical.wuViolation {t c pw r} (h : s.Canonical) : (s.wuViolation t c pw r).Canonical :=
  h.frame.setClu.recordViolation.setMaster

theorem Canonical.bankAccess {t b c pw r e} (h : s.Canonical) : (s.bankAccess t b c pw r e).Canonical := by
  unfold State.bankAccess
  dsimp only
  split
  · exact h.setClu.ite id fun h => h.ite (·.setSpWord) (·.bankRead.setSpWord)
  · split
    · exact h.setClu.bankRead.wuErr
    · exact h.setClu.bankRead

theorem Canonical.countGrant {t b st} (h : s.Canonical) : (s.countGrant t b st).Canonical := h.setBank.ite (·.count) id

theorem Canonical.bankGrant {t b e} (h : s.Canonical) : (s.bankGrant t b e).Canonical := by
  unfold State.bankGrant
  split
  · exact h
  · split
    · exact h
    · exact h.ite (·.wuViolation) fun h => h.ite (·.bankAccess.countGrant) id

theorem Canonical.scratchServe {t pk ecc} (h : s.Canonical) : (s.scratchServe t pk ecc).Canonical :=
  h.ite (·.violateAt) fun h => h.ite (fun h => ((h.foldl (·.setSpWord)).ite (·.loss) id).respond)
    fun h => (h.foldl (·.bankRead)).respond

theorem Canonical.bankSwitch {t b} (h : s.Canonical) : (s.bankSwitch t b).Canonical := h.setFld.setFld.setFld.setFlag.irqIf

theorem Canonical.bankDrained {t b} (h : s.Canonical) : (s.bankDrained t b).Canonical := h.ite (·.setFld) (·.bankSwitch)

theorem Canonical.bankFence {t b} (h : s.Canonical) : (s.bankFence t b).Canonical := h.ite (·.bankDrained) (·.setFld)

theorem Canonical.ownerWrite {who t b v} (h : s.Canonical) : (s.ownerWrite who t b v).Canonical :=
  h.ite (fun h => h.ite (·.setFlag) (fun h => h.setReg.setBank.ite (·.setBank.setFld) (·.bankFence))) (·.setReg)

theorem Canonical.bankScrub {t b e} (h : s.Canonical) : (s.bankScrub t b e).Canonical := h.ite id (·.bankRead.setBank)

/-! ### HBM -/

theorem Canonical.setMc {m x} (h : s.Canonical) : (s.setMc m x).Canonical := h.frame

theorem Canonical.hbmFlatPut {f l} (h : s.Canonical) : (s.hbmFlatPut f l).Canonical :=
  ⟨h.spad, Memory.wf_putN _ _ _ h.hbm, h.regs⟩

theorem Canonical.hbmPut {a l} (h : s.Canonical) : (s.hbmPut a l).Canonical := by
  unfold State.hbmPut
  dsimp only
  split
  · exact h.hbmFlatPut.hbmFlatPut
  · exact h.hbmFlatPut

theorem Canonical.hbmUe {m a src report} (h : s.Canonical) : (s.hbmUe m a src report).Canonical :=
  (h.count.ite id (·.setReg.setReg.setReg.irqIf)).ite (·.memError) id

theorem Canonical.hbmRead {m a src e} (h : s.Canonical) : (s.hbmRead m a src e).Canonical := by
  unfold State.hbmRead
  split
  · exact h
  · exact h.count
  · exact h.count
  · exact h.hbmUe

theorem Canonical.migBit {m b} (h : s.Canonical) : (s.migBit m b).Canonical := h.setFlag.irqIf

theorem Canonical.migAbort {m} (h : s.Canonical) : (s.migAbort m).Canonical := by
  unfold State.migAbort
  split
  · exact h.setMc.setFlag.migBit
  · exact h

theorem Canonical.mcFail {m cause} (h : s.Canonical) : (s.mcFail m cause).Canonical := h.migAbort.setMc.setFld.record.foldl (·.respond)

theorem Canonical.setMcQueue {m pch l} (h : s.Canonical) : (s.setMcQueue m pch l).Canonical := h.setMc

theorem Canonical.hbmAccept {m i dt} (h : s.Canonical) : (s.hbmAccept m i dt).Canonical := by
  unfold State.hbmAccept
  dsimp only
  split
  · exact h
  · split
    · exact h
    · split
      · exact h
      · exact Canonical.ite_of h (h.setSrvAt.ite (·.respond) (fun h => h.ite (·.violateAt) (·.setMcQueue)))
      · exact h.setSrvAt.respond
      · exact h.setSrvAt.respond

theorem Canonical.setRow {m pch bank n} (h : s.Canonical) : (s.setRow m pch bank n).Canonical := h.setMc

theorem Canonical.activate {m pch bank row} (h : s.Canonical) : (s.activate m pch bank row).Canonical :=
  h.setRow.ite (·.setMc.count) (·.setMc)

theorem Canonical.neighbourRefresh {m e} (h : s.Canonical) : (s.neighbourRefresh m e).Canonical := h.setMc.ite (·.count) id

theorem Canonical.refreshBank {m k} (h : s.Canonical) : (s.refreshBank m k).Canonical := h.setMc.count

theorem Canonical.selectReq {m pch i} (h : s.Canonical) : (s.selectReq m pch i).Canonical := by
  unfold State.selectReq
  dsimp only
  split
  · exact h
  · exact h.ite (fun h => h.setMcQueue.setMc.ite (·.setRow) id) (·.activate)

theorem Canonical.commandSelect {m pch} (h : s.Canonical) : (s.commandSelect m pch).Canonical := by
  unfold State.commandSelect
  split
  · exact h.refreshBank
  · split
    · exact h.neighbourRefresh
    · split
      · exact h.selectReq
      · split
        · exact h.selectReq
        · split
          · exact h.refreshBank
          · split
            · exact h.selectReq
            · exact h

theorem Canonical.ageReqs {m pch dt} (h : s.Canonical) : (s.ageReqs m pch dt).Canonical := h.setMcQueue

theorem Canonical.hbmCheck {m a n src ecc} (h : s.Canonical) : (s.hbmCheck m a n src ecc).Canonical := h.foldl (·.hbmRead)

theorem Canonical.hbmMerge {m pk ecc} (h : s.Canonical) : (s.hbmMerge m pk ecc).Canonical := h.hbmCheck.hbmPut

theorem Canonical.hbmServe {m pk ecc} (h : s.Canonical) : (s.hbmServe m pk ecc).Canonical := by
  unfold State.hbmServe
  dsimp only
  split
  · exact h.hbmCheck.respond
  · exact h.hbmCheck.respond
  · exact h.hbmPut.respond
  · exact h.ite (·.respond) (·.hbmMerge.respond)

theorem Canonical.hbmTake {m i} (h : s.Canonical) : (s.hbmTake m i).Canonical := h.setMc

theorem Canonical.parityRetry {m i} (h : s.Canonical) : (s.parityRetry m i).Canonical := by
  unfold State.parityRetry
  split
  · exact h.count
  · exact h.ite (·.setMc.count) (·.hbmTake.count.irqIf.respond)

theorem Canonical.opened {m pch o} (h : s.Canonical) : (s.opened m pch o).Canonical := h.ite id (·.activate)

theorem Canonical.rowDone {m pch o} (h : s.Canonical) : (s.rowDone m pch o).Canonical := h.ite (·.setRow) id

theorem Canonical.clearNbr {m pch bank} (h : s.Canonical) : (s.clearNbr m pch bank).Canonical := h.foldl (·.neighbourRefresh)

theorem Canonical.hbmTouch {a n} (h : s.Canonical) : (s.hbmTouch a n).Canonical := h.foldl (·.clearNbr.opened.rowDone)

theorem Canonical.hbmReadNow {a n src ecc} (h : s.Canonical) : (s.hbmReadNow a n src ecc).1.Canonical := h.hbmTouch.hbmCheck

theorem Canonical.hbmReadBlocks {a n src ecc} (h : s.Canonical) : (s.hbmReadBlocks a n src ecc).1.Canonical :=
  List.foldlRecOn (motive := fun r : State × List (BitVec 64) × Bool => r.1.Canonical) _ _ h fun _ h _ _ => h.hbmReadNow

theorem Canonical.hbmWriteNow {a l ecc} (h : s.Canonical) : (s.hbmWriteNow a l ecc).Canonical :=
  h.hbmTouch.ite (·.hbmPut) (·.hbmCheck.hbmPut)

theorem Canonical.hbmScrub {m k ecc} (h : s.Canonical) : (s.hbmScrub m k ecc).Canonical :=
  h.ite id fun h => (h.opened.rowDone.foldl (·.hbmRead)).setMc

theorem Canonical.migWrite {m v} (h : s.Canonical) : (s.migWrite m v).Canonical :=
  (h.ite (·.migAbort) id).ite (fun h => h.ite (·.migBit) (·.setReg.setMc.setFlag.setFld)) (·.setReg)

theorem Canonical.mapWrite {d} (h : s.Canonical) : (s.mapWrite d).Canonical := h.frame

theorem Canonical.migSwitch {m g} (h : s.Canonical) : (s.migSwitch m g).Canonical := h.setMc.setFld.setFlag.mapWrite.migBit

theorem Canonical.migCopy {m ecc} (h : s.Canonical) : (s.migCopy m ecc).Canonical := by
  unfold State.migCopy
  split
  · exact h
  · refine h.ite id fun h => Canonical.ite (Canonical.setFld (Canonical.setMc (Canonical.setHbmBad (Canonical.hbmFlatPut
      (Canonical.ite (Canonical.foldl h.opened.rowDone.opened.rowDone fun h => ?_) (·.hbmUe) id))))) (·.migSwitch) id
    split
    · exact h
    · exact h.hbmRead

theorem Canonical.wipeHbm {p : Nat → Bool} {v} (h : s.Canonical) : Canonical { s with hbm := tdrop p s.hbm, hbmBad := v } :=
  ⟨h.spad, Memory.wf_tdrop _ _ h.hbm, h.regs⟩

theorem Canonical.mcInitDone {m geom ok lrep} (h : s.Canonical) : (s.mcInitDone m geom ok lrep).Canonical :=
  h.ite id fun h => h.setReg.setFld.ite (·.mcFail) fun h => h.ite (·.mcFail) (·.wipeHbm.setFld)

end Sys2Proof.Machine.State
end

section
/-! PROOFS. The canonical form (log 5) through halts, the links between devices and midnight. -/

namespace Sys2Proof.Machine.State

set_option Elab.async false

variable {s : State}

/-! ### Halts -/

theorem Canonical.drainAll (h : s.Canonical) : s.drainAll.Canonical := h.foldl (·.drainQueue)

theorem Canonical.haltReached (h : s.Canonical) : s.haltReached.Canonical := by
  unfold State.haltReached
  split
  · exact h
  · split
    · exact h
    · exact h.frame.setFlag.setFld.setFlag

theorem Canonical.haltBreak (h : s.Canonical) : s.haltBreak.Canonical := h.ite (fun h => h.foldl (·.breakLock.count)) id

theorem Canonical.haltDone (h : s.Canonical) : s.haltDone.Canonical := by
  unfold State.haltDone
  split
  · exact h
  · exact h.ite (·.frame.setReg.setReg.setFlag.setFlag.setFld.setFlag.irqIf.drainAll) id

theorem Canonical.unturn (h : s.Canonical) : s.unturn.Canonical := h.frame

theorem Canonical.stallRestart (h : s.Canonical) : s.stallRestart.Canonical := h.setReg.frame

theorem Canonical.haltEnd (h : s.Canonical) : s.haltEnd.Canonical :=
  h.frame.setFlag.setFlag.setFlag.setFlag.setFlag.unturn.stallRestart

theorem Canonical.heartResume (h : s.Canonical) : s.heartResume.Canonical := h.setFlag.ite (·.count) id

theorem Canonical.resume (h : s.Canonical) : s.resume.Canonical := h.haltEnd.heartResume

theorem Canonical.haltDrop (h : s.Canonical) : s.haltDrop.Canonical :=
  h.ite id fun h => h.frame.setFlag.setFlag.setFlag.ite (·.unturn.drainAll) id

theorem Canonical.cancelPoints (h : s.Canonical) : s.cancelPoints.Canonical :=
  h.frame.setFld.haltDrop.ite (·.stallRestart.heartResume) id

theorem Canonical.dbgErr (h : s.Canonical) : s.dbgErr.Canonical := h.setFlag.irqIf

theorem Canonical.runTo {k steps} (h : s.Canonical) : (s.runTo k steps).Canonical := h.haltEnd.setFld.frame

theorem Canonical.dbgCommand {cmd count fab} (h : s.Canonical) : (s.dbgCommand cmd count fab).Canonical := by
  unfold State.dbgCommand
  split
  · exact h.armPoint
  · exact h.ite (fun h => (h.ite (·.floodStart) id).resume) (·.dbgErr)
  · exact h.ite (·.runTo) (·.dbgErr)
  · exact h.ite (·.runTo) (·.dbgErr)
  · exact h.ite (·.armPoint) (·.frame)
  · exact h.cancelPoints
  · exact h.dbgErr

theorem Canonical.dbgRunWrite {v} (h : s.Canonical) : (s.dbgRunWrite v).Canonical := h.setReg.ite (·.dbgCommand) id

theorem Canonical.fabricHalt {cyc} (h : s.Canonical) : (s.fabricHalt cyc).Canonical := h.armAt.setFlag

theorem Canonical.fabricResume (h : s.Canonical) : s.fabricResume.Canonical := h.ite (fun h => h.ite id (·.resume)) (·.frame.setFlag)

/-! ### Links and fabric -/

theorem Canonical.linkErr {p kind lane det1 det2} (h : s.Canonical) : (s.linkErr p kind lane det1 det2).Canonical :=
  (h.ite id (·.setReg.irqIf)).record

theorem Canonical.bridgeFault {p kind lane det1 det2} (h : s.Canonical) : (s.bridgeFault p kind lane det1 det2).Canonical :=
  h.linkErr.seqFaultBit.stopRun

theorem Canonical.setLnk {p st} (h : s.Canonical) : (s.setLnk p st).Canonical := h.setFld

theorem Canonical.ctrlTrim {p n} (h : s.Canonical) : (ctrlTrim p n s).Canonical := by
  induction n generalizing s with
  | zero => exact h
  | succ n ih =>
    unfold State.ctrlTrim
    split
    · exact h
    · exact h.ite (fun h => ih h.setPort) fun h => h.ite (fun h => ih h.setPort.linkErr) id

theorem Canonical.ctrlDrop {p n} (h : s.Canonical) : (s.ctrlDrop p n).Canonical := h.setPort.ctrlTrim

theorem Canonical.ctrlSend2 {p a b} (h : s.Canonical) : (s.ctrlSend2 p a b).Canonical := h.setPort

theorem Canonical.setRoute0 {a out} (h : s.Canonical) : (s.setRoute0 a out).Canonical := h.setReg

theorem Canonical.tokenDrop {e dst src reason cyc} (h : s.Canonical) : (s.tokenDrop e dst src reason cyc).Canonical :=
  h.record.setFlag.irqIf

theorem Canonical.tokenTake {e dst src cyc} (h : s.Canonical) : (s.tokenTake e dst src cyc).Canonical :=
  h.ite (·.tokenDrop) fun h => h.ite (·.frame) (·.tokenDrop)

theorem Canonical.tokenRoute {e dst src cyc} (h : s.Canonical) : (s.tokenRoute e dst src cyc).Canonical :=
  h.ite (·.tokenTake) fun h => h.ite (·.ctrlSend) (·.tokenDrop)

theorem Canonical.tokensOut (h : s.Canonical) : s.tokensOut.Canonical := h.ite (fun h => h.frame.foldl (·.tokenRoute)) id

theorem Canonical.preply {p} (h : s.Canonical) : (s.preply p).Canonical := h.ctrlSend2

theorem Canonical.announce (h : s.Canonical) : s.announce.Canonical := (h.foldl (fun h => h.ite (·.preply) id)).tokensOut

theorem Canonical.fabClear (h : s.Canonical) : s.fabClear.Canonical := h.dropKeys.setFld.setReg.setFab

theorem Canonical.setTopo {a x} (h : s.Canonical) : (s.setTopo a x).Canonical := h.frame

theorem Canonical.claim {e k n} (h : s.Canonical) : (s.claim e k n).Canonical := h.setRoute0.ctrlSend

theorem Canonical.discoveryEnd {st} (h : s.Canonical) : (s.discoveryEnd st).Canonical := h.frame.setFld.irqIf

theorem Canonical.exploreNext (h : s.Canonical) : s.exploreNext.Canonical := by
  unfold State.exploreNext
  split
  · exact h.discoveryEnd
  · exact h.frame.ctrlSend

theorem Canonical.rootReport {e k res fa fp id} (h : s.Canonical) : (s.rootReport e k res fa fp id).Canonical := by
  unfold State.rootReport
  refine h.ite (fun h => h) fun h => h.ite (·.setTopo.discoveryEnd) fun h => Canonical.ite ?_ (·.exploreNext) fun h => h
  refine h.ite (fun h => ?_) (·.setTopo)
  split
  · exact h.setTopo
  · exact h.ite (·.setTopo.setTopo.claim.frame.setFld) (·.setTopo.setFlag)

theorem Canonical.report {k res fa fp id} (h : s.Canonical) : (s.report k res fa fp id).Canonical := h.ite (·.rootReport) (·.ctrlSend2)

theorem Canonical.probeFrom {n k} (h : s.Canonical) : (probeFrom n k s).Canonical := by
  induction n generalizing s k with
  | zero => exact h.frame
  | succ n ih => exact h.ite (·.frame.ctrlSend) fun h => ih h.report

theorem Canonical.probed {k res fa fp id} (h : s.Canonical) : (s.probed k res fa fp id).Canonical := h.report.probeFrom

theorem Canonical.discover (h : s.Canonical) : s.discover.Canonical :=
  h.floodStart.fabClear.frame.setTopo.setFld.setReg.announce.probeFrom

theorem Canonical.fabCtrlWrite {v} (h : s.Canonical) : (s.fabCtrlWrite v).Canonical :=
  Canonical.ite_of (Canonical.ite_of h.setFlag h.setReg.discover) h.setReg

theorem Canonical.claimed {p n} (h : s.Canonical) : (s.claimed p n).Canonical := (h.setFld.setReg.foldl (·.setRoute0)).announce

theorem Canonical.returnCredits {f} (h : s.Canonical) : (s.returnCredits f).Canonical := h.ite (·.ctrlSend) id

theorem Canonical.setClassQ {p bulk l n} (h : s.Canonical) : (s.setClassQ p bulk l n).Canonical := h.setPort

theorem Canonical.classTake {p bulk n} (h : s.Canonical) : (s.classTake p bulk n).Canonical := h.setClassQ.foldl (·.returnCredits)

theorem Canonical.sendOn {q f} (h : s.Canonical) : (s.sendOn q f).Canonical := h.setClassQ

theorem Canonical.answerRemote {p f code} (h : s.Canonical) : (s.answerRemote p f code).Canonical :=
  h.ite id fun h => h.ite (·.respond) (·.setPort)

theorem Canonical.holdAt {q f} (h : s.Canonical) : (s.holdAt q f).Canonical := h.setPort.count

theorem Canonical.forwardOn {p q f} (h : s.Canonical) : (s.forwardOn p q f).Canonical := h.ite (·.sendOn) (·.returnCredits.linkErr)

theorem Canonical.packetRoute {p f} (h : s.Canonical) : (s.packetRoute p f).Canonical := by
  unfold State.packetRoute
  dsimp only
  split
  · split
    · exact h.forwardOn
    · exact h.holdAt
  · exact h.returnCredits.answerRemote

theorem Canonical.heldRoute {p} (h : s.Canonical) : (s.heldRoute p).Canonical :=
  h.setPort.foldl fun h => h.ite (·.setPort) (·.packetRoute)

theorem Canonical.fabricRoute {p i} (h : s.Canonical) : (s.fabricRoute p i).Canonical := by
  unfold State.fabricRoute
  dsimp only
  split
  · exact h
  · exact Canonical.ite_of h (Canonical.ite_of (Canonical.ite_of h.setPort.returnCredits.frame h)
        (h.setPort.ite (fun h => h.frame.ite (·.holdAt) (·.packetRoute)) (·.packetRoute)))

theorem Canonical.holdNack {p i} (h : s.Canonical) : (s.holdNack p i).Canonical := by
  unfold State.holdNack
  dsimp only
  split
  · exact h
  · exact h.setPort.count.returnCredits.answerRemote

theorem Canonical.remoteRequest {p i} (h : s.Canonical) : (s.remoteRequest p i).Canonical := by
  unfold State.remoteRequest
  dsimp only
  split
  · exact h
  · exact h.ite id fun h => h.setSrvAt.ite (·.setPort) (·.respond)

theorem Canonical.remoteArrive {p} (h : s.Canonical) : (s.remoteArrive p).Canonical := by
  unfold State.remoteArrive
  dsimp only
  split
  · exact h
  · split
    · exact h.ite id (·.setPort.returnCredits.request)
    · exact h

theorem Canonical.rtCtrlWrite {v} (h : s.Canonical) : (s.rtCtrlWrite v).Canonical :=
  (h.ite (·.setFlag) id).ite (fun h => h.setFlag.foldl (·.setPort.heldRoute)) id

theorem Canonical.spill {p bulk} (h : s.Canonical) : (s.spill p bulk).Canonical :=
  h.setClassQ.foldl fun h => by
    dsimp only
    split
    · exact h.sendOn
    · exact h.holdAt

theorem Canonical.leaveUp {p st} (h : s.Canonical) : (s.leaveUp p st).Canonical := h.setFlag.setLnk.spill.spill

theorem Canonical.retrain {p} (h : s.Canonical) : (s.retrain p).Canonical := h.leaveUp.count.irqIf

theorem Canonical.episode {p} (h : s.Canonical) : (s.episode p).Canonical := h.setPort.ite (·.setPort.retrain) id

theorem Canonical.episodeCount {p} (h : s.Canonical) : (s.episodeCount p).Canonical := h.count.episode

theorem Canonical.flooded {p w t} (h : s.Canonical) (ht : s.flooded p w = some t) : t.Canonical := by
  unfold State.flooded at ht
  split at ht
  · cases ht
  · cases ht
    exact h.frame.ctrlFlood

theorem Canonical.peerKnown {p a fp} (h : s.Canonical) : (s.peerKnown p a fp).Canonical := by
  unfold State.peerKnown
  dsimp only
  split
  · exact h.setReg.setPort.ite id (·.bridgeFault)
  · exact h.setReg

theorem Canonical.ctrlAct {p l} (h : s.Canonical) : (s.ctrlAct p l).Canonical := by
  unfold State.ctrlAct
  dsimp only
  split
  · exact h.tokenRoute
  · split
    · next he => exact (h.flooded he).fabricHalt
    · exact h
  · split
    · next he => exact (h.flooded he).fabricResume
    · exact h
  · split
    · exact h.setPort
    · exact h.setPort
    · exact h.setPort
    · exact h
  · exact h.ite (·.setPort.episode) id
  · exact h.ite id fun h => (h.ite id (·.frame)).preply
  · exact (h.ite (·.peerKnown) id).ite (·.probed) id
  · exact h.ite (·.claimed) (·.setRoute0.ctrlSend)
  · exact h.ite (·.probeFrom) (·.ctrlSend)
  · exact h.ite (·.rootReport) (·.ctrlSend2)
  · split
    · next he => exact (h.flooded he).fabClear
    · exact h
  · exact h

theorem Canonical.ctrlTake {p kind words} (h : s.Canonical) : (s.ctrlTake p kind words).Canonical := by
  unfold State.ctrlTake
  split
  · exact h.ctrlDrop.ctrlAct
  · exact h

theorem Canonical.portFail {p} (h : s.Canonical) : (s.portFail p).Canonical :=
  ((h.linkErr.setLnk.foldl (·.returnCredits)).setPort.foldl (·.holdNack)).record.irqIf

theorem Canonical.portUp {p} (h : s.Canonical) : (s.portUp p).Canonical := h.setPort.setLnk.preply.foldl (·.heldRoute)

theorem Canonical.trained {p pass inTime} (h : s.Canonical) : (s.trained p pass inTime).Canonical :=
  h.ite (fun h => h.setFld.ite (·.portUp) (·.portFail)) id

theorem Canonical.lnkCtrlWrite {p v} (h : s.Canonical) : (s.lnkCtrlWrite p v).Canonical :=
  h.setReg.ite (·.leaveUp.setFld) fun h => h.ite (fun h => h.ite (·.retrain) (fun h => h.ite (·.setLnk) id)) id

theorem Canonical.bridgeCheck {p g} (h : s.Canonical) : (s.bridgeCheck p g).Canonical := h.foldl fun h => h.ite id (·.laneFault)

theorem Canonical.linkTake {p j} (h : s.Canonical) : (s.linkTake p j).Canonical := by
  unfold State.linkTake
  dsimp only
  split
  · exact h.setPort.ctrlSend
  · exact h.setPort.setLane

theorem Canonical.formSlices {p n} (h : s.Canonical) : (formSlices p n s).Canonical := by
  induction n generalizing s with
  | zero => exact h
  | succ n ih =>
    unfold State.formSlices
    refine h.ite id fun h => ?_
    split
    · exact h
    · dsimp only
      split
      · exact ih h.bridgeCheck
      · exact ih (h.bridgeCheck.foldl (·.linkTake)).setPort

theorem Canonical.schedPayload {p} (h : s.Canonical) : (s.schedPayload p).2.Canonical := h.formSlices.setPort

theorem Canonical.flitOut {p cls pay} (h : s.Canonical) : (s.flitOut p cls pay).Canonical := h.setPort

theorem Canonical.flitSend {p} (h : s.Canonical) : (s.flitSend p).Canonical := by
  unfold State.flitSend
  refine h.ite id fun h => ?_
  split
  · exact h.ite (·.setPort) (·.setPort)
  · dsimp only
    split
    · exact h.schedPayload.flitOut
    · exact h.setPort.classTake.flitOut
    · exact h.setPort.classTake.flitOut
    · exact h.setPort.flitOut
    · exact h.setPort

theorem Canonical.flitDrop {p} (h : s.Canonical) : (s.flitDrop p).Canonical := h.ite id (·.setPort.ctrlSend.episodeCount)

theorem Canonical.flitAck {p a} (h : s.Canonical) : (s.flitAck p a).Canonical := h.ite (·.setPort) id

theorem Canonical.sliceByte {p j tag d} (h : s.Canonical) : (s.sliceByte p j tag d).Canonical :=
  h.ite (·.setPort) fun h => h.ite (·.setPort) (·.bridgeFault)

theorem Canonical.takeSlices {p n} (h : s.Canonical) : (takeSlices p n s).Canonical := by
  induction n generalizing s with
  | zero => exact h
  | succ n ih =>
    exact h.ite id fun h => h.ite id fun h => ih (h.setPort.ite (·.bridgeFault) fun h => h.foldl (·.sliceByte))

theorem Canonical.flitAccept {p f} (h : s.Canonical) : (s.flitAccept p f).Canonical := by
  unfold State.flitAccept
  dsimp only
  split
  · exact h.setPort.takeSlices
  · exact h.setPort
  · exact h.setPort
  · exact h.setPort.ctrlTrim

theorem Canonical.flitReceive {p f ok} (h : s.Canonical) : (s.flitReceive p f ok).Canonical :=
  h.ite (·.count.flitDrop) fun h => (h.ite (·.flitAck) id).ite id fun h => h.ite (·.flitDrop) (·.setPort.flitAccept)

theorem Canonical.codeword {p o flits} (h : s.Canonical) : (s.codeword p o flits).Canonical := by
  unfold State.codeword
  refine h.ite (fun h => Canonical.foldl ?_ (·.flitReceive)) id
  split
  · exact h
  · exact h.count
  · exact h.count

theorem Canonical.schedDiscard {p} (h : s.Canonical) : (s.schedDiscard p).Canonical := h.setPort.foldl (·.ctrlSend)

/-! ### Midnight -/

theorem Canonical.watchTick {n} (h : s.Canonical) : (s.watchTick n).Canonical :=
  (h.ite (·.setFld) id).ite (·.stallRestart) fun h => h.ite (·.setReg) id

theorem Canonical.passSamples (h : s.Canonical) : s.passSamples.Canonical := h.frame.ite (·.frame) id

theorem Canonical.pairTick (h : s.Canonical) : s.pairTick.Canonical := h.ite (·.setFlag.frame) id

theorem Canonical.localMidnight (h : s.Canonical) : s.localMidnight.Canonical :=
  h.ite (·.frame.passSamples.pairTick.setSeq.tokensOut) id

theorem Canonical.weltsNext (h : s.Canonical) : s.weltsNext.Canonical := h.frame

theorem Canonical.clustersNext (h : s.Canonical) : s.clustersNext.Canonical := h.frame

theorem Canonical.phaseSteps (h : s.Canonical) : s.phaseSteps.Canonical := h.foldl fun h => h.ite (·.addSteps) id

theorem Canonical.rateWindow {whole} (h : s.Canonical) : (s.rateWindow whole).Canonical := (h.ite (·.setReg) id).frame

theorem Canonical.midnightRelease {waitNs due} (h : s.Canonical) (hd : ∀ {u : State} {l}, u.Canonical → (due u l).Canonical) :
    (s.midnightRelease waitNs due).Canonical :=
  h.ite (fun h => hd h.setReg.frame.weltsNext.clustersNext.phaseSteps) id

theorem Canonical.seqFaultWrite {v} (h : s.Canonical) : (s.seqFaultWrite v).Canonical := (h.setReg.ite (·.setReg) id).ite (·.frame) id

theorem Canonical.cycleLoRead {peek} (h : s.Canonical) : (s.cycleLoRead peek).Canonical := (h.ite id (·.setReg)).answer

end Sys2Proof.Machine.State
end

section
/-! PROOFS. The canonical form (log 5) through tasks, regions and the loader's records. A check that fails leaves no state
(`OkCanonical`); a record or a frame leaves one in each of its outcomes (`LoadCanonical`, `FrameCanonical`). -/

namespace Sys2Proof.Machine.State

set_option Elab.async false

variable {s : State}

/-! ### Tasks -/

theorem Canonical.setSsQueue {l q} (h : s.Canonical) : (s.setSsQueue l q).Canonical := h.frame

theorem Canonical.setDState {d st} (h : s.Canonical) : (s.setDState d st).Canonical := h.setFld

theorem Canonical.ssRefuse {op d} (h : s.Canonical) : (s.ssRefuse op d).Canonical := h.ite id (·.setReg.irqIf)

theorem Canonical.ckTaskEnd {d code} (h : s.Canonical) : (s.ckTaskEnd d code).Canonical := by
  unfold State.ckTaskEnd
  split
  · exact h
  · exact h.ite (fun h => (h.ite id (·.setFlag)).ite (fun h => h.frame.ite (·.setReg.setReg) id) (·.frame)) id

theorem Canonical.taskEnd {d code} (h : s.Canonical) : (s.taskEnd d code).Canonical :=
  (h.ckTaskEnd.setDState.setFld.ite (·.count) (·.count.irqIf)).ite (fun h => h.setFlag.ite id (·.loss)) id

theorem Canonical.setSlot {e d} (h : s.Canonical) : (s.setSlot e d).Canonical := by
  unfold State.setSlot
  split
  · exact h.setFlag.setFld
  · exact h.setFlag.setFld

theorem Canonical.fillSlot {e} (h : s.Canonical) : (s.fillSlot e).Canonical := by
  unfold State.fillSlot
  split
  · exact h
  · dsimp only
    split
    · exact h.setSsQueue.setSlot
    · exact h.ite (·.setSsQueue.setSlot.setSsQueue) id

theorem Canonical.fillSlots (h : s.Canonical) : s.fillSlots.Canonical := h.foldl (·.fillSlot)

theorem Canonical.enqueue {d} (h : s.Canonical) : (s.enqueue d).Canonical := h.setDState.setSsQueue

theorem Canonical.makeDue {l} (h : s.Canonical) : (s.makeDue l).Canonical := (h.foldl (·.enqueue)).fillSlots

theorem Canonical.unqueue {d} (h : s.Canonical) : (s.unqueue d).Canonical := h.setSsQueue.foldl fun h => h.ite (·.setSlot) id

theorem Canonical.submit {d op} (h : s.Canonical) : (s.submit d op).Canonical :=
  h.ite (·.ssRefuse) fun h => h.ite (·.taskEnd) fun h => h.ite (fun h => h.ite (·.taskEnd) (fun h => h.ite (·.makeDue) (·.setDState)))
    fun h => h.ite (·.taskEnd) fun h => h.ite (·.makeDue) (·.setDState)

theorem Canonical.taskDone {d code} (h : s.Canonical) : (s.taskDone d code).Canonical := h.taskEnd.ite (·.submit) id

theorem Canonical.ssCommand {k v} (h : s.Canonical) : (s.ssCommand k v).Canonical := h.setReg

theorem Canonical.submitWrite {v} (h : s.Canonical) : (s.submitWrite v).Canonical := h.ssCommand.ite (·.submit) id

theorem Canonical.cancelWrite {v} (h : s.Canonical) : (s.cancelWrite v).Canonical :=
  h.ssCommand.ite (fun h => h.ite (·.unqueue.taskEnd.fillSlots) (·.ssRefuse)) id

theorem Canonical.ackWrite {v} (h : s.Canonical) : (s.ackWrite v).Canonical :=
  h.ssCommand.ite (fun h => h.ite (fun h => h.ite (·.frame) (·.taskDone)) (·.ssRefuse)) id

theorem Canonical.tickBy {n} (h : s.Canonical) : (s.tickBy n).Canonical := h.frame.watchTick.ite (·.frame.makeDue) id

theorem Canonical.barrierDue (h : s.Canonical) : s.barrierDue.Canonical := h.ite (·.frame.makeDue) id

theorem Canonical.taskStart {e} (h : s.Canonical) : (s.taskStart e).Canonical := by
  unfold State.taskStart
  refine h.barrierDue.fillSlots.ite id fun h => ?_
  split
  · exact h
  · exact h.setSlot.setFlag.setFld.setDState.setFld.setSs.fillSlots

theorem Canonical.setResult {e code} (h : s.Canonical) : (s.setResult e code).Canonical := h.frame

theorem Canonical.engFree {e} (h : s.Canonical) : (s.engFree e).Canonical := h.setFlag.setFld.setSs

theorem Canonical.abortTasks (h : s.Canonical) : s.abortTasks.Canonical := (h.setSs.foldl (·.setSlot.engFree)).foldl (·.taskEnd)

/-! ### Checkpoints that are due -/

theorem Canonical.ckError (h : s.Canonical) : s.ckError.Canonical := h.setFlag

theorem Canonical.ckSubmit {cyc} (h : s.Canonical) : (s.ckSubmit cyc).Canonical :=
  h.ite id fun h => ((h.ite id (·.ckError)).setPm.foldl (·.foldl (·.setReg))).foldl (·.submit)

theorem Canonical.ckDue (h : s.Canonical) : s.ckDue.Canonical := by
  unfold State.ckDue
  split
  · split
    · exact h.ckSubmit
    · exact h.cancelDown.ckSubmit
    · exact h.frame
  · exact h

theorem Canonical.ckOwed (h : s.Canonical) : s.ckOwed.Canonical := by
  unfold State.ckOwed
  split
  · exact h.frame.ckSubmit
  · exact h

/-! ### Regions -/

theorem Canonical.rgnRecord {t code leave join} (h : s.Canonical) : (s.rgnRecord t code leave join).Canonical := h.record

theorem Canonical.rgnFail {t code} (h : s.Canonical) : (s.rgnFail t code).Canonical := h.setFlag.setFld

theorem Canonical.rgnPark {t} (h : s.Canonical) : (s.rgnPark t).Canonical := h.setFld.count

theorem Canonical.rgnLoadFail {t code} (h : s.Canonical) : (s.rgnLoadFail t code).Canonical := by
  unfold State.rgnLoadFail
  split
  · exact h
  · exact h.rgnRecord.setTile.rgnFail.setFlag.rgnPark.taskDone

theorem Canonical.rgnRefuse {t d code leave join} (h : s.Canonical) : (s.rgnRefuse t d code leave join).Canonical :=
  h.rgnRecord.rgnFail.taskDone

theorem Canonical.rgnLeave {t} (h : s.Canonical) : (s.rgnLeave t).Canonical := h.setTile.setFlag.setReg

theorem Canonical.rgnAccept {t d src base join} (h : s.Canonical) : (s.rgnAccept t d src base join).Canonical :=
  h.ite (·.rgnRefuse) fun h => h.ite (·.rgnRefuse) fun h => h.ite (·.rgnRefuse) fun h =>
    (h.ite (·.rgnLeave) id).ite (fun h => (h.ite (·.rgnPark) id).taskDone) (·.setFld.setReg.setTile)

theorem Canonical.rgnDrained {t} (h : s.Canonical) : (s.rgnDrained t).Canonical := by
  unfold State.rgnDrained
  refine h.ite (fun h => ?_) id
  dsimp only
  split
  · exact (h.foldl (·.setClu)).setMasters.setFlag.setTile
  · exact (h.foldl (·.setClu)).setMasters.setFlag

theorem Canonical.weltEmit {t i} (h : s.Canonical) : (s.weltEmit t i).Canonical := h.ite (·.setWelt.setLane) id

theorem Canonical.weltDiscard {t i} (h : s.Canonical) : (s.weltDiscard t i).Canonical := h.ite (·.setLane.setWelt.count) id

theorem Canonical.weltRead {t v} (h : s.Canonical) : (s.weltRead t v).Canonical := by
  unfold State.weltRead
  dsimp only
  split
  · split
    · exact h.setReg.setReg
    · exact h.setReg.setReg
  · exact h.setReg

/-- The cells of a bank, as they stand in its stash, put over the bytes that are left (R206). -/
theorem wf_putCells {p : Nat → Bool} {base} {cells : List (Nat × BitVec 8)} {m : Tab (BitVec 8)} (hm : Memory.wf m = true) :
    Memory.wf (cells.foldl (fun m c => if p c.1 then m else Memory.put m (base + c.1) c.2) m) = true :=
  List.foldlRecOn (motive := fun m => Memory.wf m = true) _ _ hm fun m hm c _ => by
    split
    · exact hm
    · exact Memory.wf_put _ _ _ hm

theorem Canonical.setCells {m : Tab (BitVec 8)} {p : Nat → Bool} (h : s.Canonical) (hm : Memory.wf m = true) :
    Canonical { s with spad := m, regs := tdrop p s.regs } := ⟨hm, h.hbm, twf_tdrop _ _ _ h.regs⟩

theorem Canonical.applyStash {t b} (h : s.Canonical) : (s.applyStash t b).Canonical := by
  refine Canonical.foldl (h.setCells ?_) fun h => ?_
  · exact wf_putCells (p := fun a => b.keep.getLsbD (a / 2 ^ 18)) (Memory.wf_tdrop _ _ h.spad)
  · split
    · exact h
    · exact h.ite (·.setFld.setFld) (·.setReg)

theorem Canonical.joinClusters {t} (h : s.Canonical) : (s.joinClusters t).Canonical := h.foldl fun h => h.ite (·.setClu) id

theorem Canonical.rgnSwap {t} (h : s.Canonical) : (s.rgnSwap t).Canonical := by
  unfold State.rgnSwap
  split
  · exact h
  · refine h.ite (fun h => (Canonical.joinClusters (Canonical.count
        (Canonical.setFlag (Canonical.setFld (Canonical.setTile ?_))))).taskDone) id
    split
    · exact h.applyStash
    · exact h

/-! ### Placement of an image -/

theorem Canonical.loadLane {l e} (h : s.Canonical) : (s.loadLane l e).Canonical := h.setLane

theorem Canonical.placeTile {t m} (h : s.Canonical) : (s.placeTile t m).Canonical := h.frame.foldl (·.loadLane)

theorem Canonical.placeGateway {t out lane e} (h : s.Canonical) : (s.placeGateway t out lane e).Canonical := h.ite (·.loadLane) id

theorem Canonical.passFused (h : s.Canonical) : s.passFused.Canonical :=
  h.foldl fun h => h.ite (fun h => h.foldl fun h => h.foldl fun h => by
    split
    · exact h.ite (·.loadLane) id
    · exact h) id

theorem Canonical.addEye {l k n} (h : s.Canonical) : (s.addEye l k n).Canonical := h.setLane.ite (·.count) (·.count)

theorem Canonical.padLeg {l k} (h : s.Canonical) : OkCanonical (s.padLeg l k) := by
  unfold State.padLeg
  split
  · exact .error
  · split
    · exact .error
    · refine .ite .error ?_
      split
      · exact .error
      · exact .ok h
      · exact .ite .error (.ok h.addEye)

theorem Canonical.placeDeficit {l n} (h : s.Canonical) : (placeDeficit l n s).1.Canonical := by
  induction l generalizing s n with
  | nil => exact h
  | cons e l ih => exact ih (h.ite id (·.addEye))

theorem Canonical.padRoute {img l k} (h : s.Canonical) : OkCanonical (s.padRoute img l k) := by
  unfold State.padRoute
  split
  · exact .error
  · split
    · exact .error
    · dsimp only
      split
      · refine .ite .error (.ite .error ?_)
        split
        · next he => exact .ok (he ▸ h.placeDeficit :)
        · exact .error
      · exact .error

theorem Canonical.overEntries {p f l} (h : s.Canonical) (hf : ∀ {u : State} {x k}, u.Canonical → OkCanonical (f u x k)) :
    OkCanonical (s.overEntries p f l) :=
  h.foldlM fun h => .ite (h.foldlM hf) (.ok h)

theorem Canonical.firstBad {f l} (h : s.Canonical) : OkCanonical (s.firstBad f l) := by
  unfold State.firstBad
  split
  · exact .error
  · exact .ok h

theorem Canonical.padTile {rx t} (h : s.Canonical) : OkCanonical (s.padTile rx t) :=
  h.firstBad.bind fun h => h.firstBad.bind fun h => h.firstBad.bind fun h => h.overEntries (·.padLeg)

theorem Canonical.padGateway {rx img t} (h : s.Canonical) : OkCanonical (s.padGateway rx img t) :=
  h.firstBad.bind fun h => h.firstBad.bind fun h => h.firstBad.bind fun h => h.overEntries (·.padRoute)

theorem Canonical.padAll {rx img misuse} (h : s.Canonical) : OkCanonical (s.padAll rx img misuse) := by
  refine OkCanonical.bind (h.foldlM fun h => ?_) fun h => h.foldlM (·.padGateway)
  split
  · exact .error
  · exact h.padTile

theorem Canonical.padBorder {t} (h : s.Canonical) : OkCanonical (s.padBorder t) := h.firstBad.bind fun h => h.firstBad

/-! ### The loader -/

theorem Canonical.ceState {st} (h : s.Canonical) : (s.ceState st).Canonical := h.setFld

theorem Canonical.applyClusterMap {p} (h : s.Canonical) : (s.applyClusterMap p).Canonical :=
  (h.foldl (fun h => h.ite (·.setFld.setFld.setFld.setFld) id)).foldl fun h => h.ite (·.setFld) id

theorem Canonical.applyRepairMap (h : s.Canonical) : s.applyRepairMap.Canonical :=
  (h.foldl (·.setFld)).applyClusterMap.foldl fun h => by
    split
    · exact h.foldl (·.setFld)
    · exact h.ite id (·.mcFail)

theorem Canonical.setTiles {v} (h : s.Canonical) : Canonical { s with tiles := v } := h

theorem Canonical.discardRun (h : s.Canonical) : s.discardRun.Canonical := by
  have hd : ((List.range 8).foldl (fun s p => s.schedDiscard p) s.abortTasks).Canonical := h.abortTasks.foldl (·.schedDiscard)
  unfold State.discardRun
  generalize (List.range 8).foldl (fun s p => s.schedDiscard p) s.abortTasks = u at hd ⊢
  refine Canonical.setFld (Canonical.setReg (Canonical.setFlag (Canonical.setFlag (Canonical.setFld (Canonical.setFlag
    (Canonical.setFlag (Canonical.setFlag (Canonical.setFlag (Canonical.foldl (Canonical.setTiles ?_) (·.setFld))))))))))
  exact ⟨hd.spad, hd.hbm, twf_reloaded _ (twf_tdrop _ _ _ hd.regs)⟩

theorem Canonical.slotsFound (h : s.Canonical) : s.slotsFound.Canonical := h.ite id (·.dirWrite)

theorem Canonical.loadStart {src} (h : s.Canonical) : (s.loadStart src).Canonical :=
  h.slotsFound.frame.frame.setFld.setFld.setFlag.applyRepairMap.ceState.setFld.setFlag.setReg

theorem Canonical.cleanRegs (h : s.Canonical) : s.cleanRegs.Canonical := ⟨h.spad, h.hbm, twf_reloaded _ h.regs⟩

theorem Canonical.ceFailure {src code frame region} (h : s.Canonical) : (s.ceFailure src code frame region).Canonical :=
  h.ite id (·.setReg.setReg.irqIf)

theorem Canonical.retryEnd (h : s.Canonical) : s.retryEnd.Canonical := h.setFlag

theorem Canonical.recordSkips {ld} (h : s.Canonical) : (s.recordSkips ld).Canonical := h.foldl (·.record)

theorem Canonical.loadFail {ld code frame bad} (h : s.Canonical) : (s.loadFail ld code frame bad).Canonical := by
  unfold State.loadFail
  split
  · exact (h.retryEnd.recordSkips.ceFailure.setFlag.ite (·.ceState) id).setLoad.rgnLoadFail
  · exact h.retryEnd.recordSkips.record.ceFailure.cleanRegs.ceState.setImage

theorem Canonical.loadRetry {ld} (h : s.Canonical) : (s.loadRetry ld).Canonical := h.setReg.setFld.count.irqIf.ceState.frame

theorem Canonical.loadPass {ld} (h : s.Canonical) : (s.loadPass ld).Canonical := h.retryEnd.ceState.setLoad

theorem Canonical.ceCtrlWrite {v lost} (h : s.Canonical) : (s.ceCtrlWrite v lost).Canonical := by
  unfold State.ceCtrlWrite
  refine Canonical.ite (h.setReg.ite (fun h => ?_) id) (·.setLoad.discardRun.readCopies.loadStart) id
  split
  · exact h.ite (·.loadFail) id
  · exact h

theorem Canonical.readFrame {ld ecc} (h : s.Canonical) : (s.readFrame ld ecc).1.Canonical := by
  unfold State.readFrame
  split
  · dsimp only
    split
    · exact h
    · exact h.hbmReadBlocks
  · exact h.countRead

theorem Canonical.placeFields {img t tx ty} (h : s.Canonical) : (s.placeFields img t tx ty).Canonical := h.setFld.setFlag.setFld

theorem Canonical.placeClusters {img t} (h : s.Canonical) : (s.placeClusters img t).Canonical :=
  h.foldl fun h => h.setFlag.setFld.setFld.foldl (·.setFld)

theorem Canonical.acceptHeader {ld} (h : s.Canonical) : (s.acceptHeader ld).Canonical := h.frame.setReg.setReg

theorem Canonical.loadHeader {err ecc} (h : s.Canonical) : (s.loadHeader err ecc).Canonical := by
  unfold State.loadHeader
  extract_lets u
  have hu : u.Canonical := by
    simp only [u]
    split
    · exact h.setFlag.applyClusterMap.setLoad
    · exact h
  split
  · exact hu
  · refine hu.ite id fun hu => ?_
    dsimp only
    split
    · exact (hu.ite (·.setFld) id).readFrame.ite (·.loadFail) (·.loadRetry)
    · refine (hu.ite (·.setFld) id).readFrame.ite (·.loadRetry) fun h => ?_
      split
      · exact h.loadFail
      · exact (h.ite (·.acceptHeader) id).loadPass

theorem Canonical.onClu {t c f} (h : s.Canonical) : (s.onClu t c f).Canonical := h.setClu

theorem Canonical.writeTileRec {t r} (h : s.Canonical) : (s.writeTileRec t r).Canonical := by
  unfold State.writeTileRec
  dsimp only
  split
  · exact h.onClu
  · exact h.onClu
  · exact h.onClu
  · exact h.onClu
  · exact h.onClu
  · exact h

theorem Canonical.writeBankRec {t region r} (h : s.Canonical) : (s.writeBankRec t region r).Canonical :=
  h.ite (·.setTile) fun h => h.foldl (·.setSpWord)

theorem Canonical.idleBeyond {t} (h : s.Canonical) : (s.idleBeyond t).Canonical := h.frame

theorem Canonical.wipeTile {t x} {p : Nat → Bool} (h : s.Canonical) : Canonical { s.setTile t x with spad := tdrop p s.spad } :=
  ⟨Memory.wf_tdrop _ _ h.spad, h.hbm, h.regs⟩

theorem Canonical.writeTile {t tx ty ld} (h : s.Canonical) : (s.writeTile t tx ty ld).Canonical := by
  unfold State.writeTile
  refine Canonical.placeTile (Canonical.foldl ?_ fun h => h.ite id fun h => h.ite (·.writeBankRec) (·.writeTileRec))
  exact ((h.ite id (·.placeFields)).placeClusters.foldl (·.setClu)).ite (·.setTile) (·.wipeTile)

/-- Whatever a record comes to, the state it leaves is canonical. -/
def LoadCanonical : LoadOut → Prop
  | .ok t _ => t.Canonical
  | .fail t _ _ => t.Canonical
  | .wait _ => True

theorem LoadCanonical.ite {c : Prop} [Decidable c] {a b : LoadOut} (ha : LoadCanonical a) (hb : LoadCanonical b) :
    LoadCanonical (if c then a else b) := by
  split
  · exact ha
  · exact hb

theorem Canonical.writeHbmRec {ld a l} (h : s.Canonical) : LoadCanonical (s.writeHbmRec ld a l) :=
  .ite h (.ite trivial (h.foldl fun h => h.ite id (·.hbmWriteNow)))

theorem Canonical.writeFill {ld w n} (h : s.Canonical) : LoadCanonical (s.writeFill ld w n) := by
  unfold State.writeFill
  refine .ite (.ite h h.writeHbmRec) (.ite ?_ h)
  dsimp only
  split
  · exact .ite h h.dropCells
  · exact h

theorem Canonical.regionPair {wr t k v} (h : s.Canonical) (hw : ∀ {u : State} {k v}, u.Canonical → (wr u k v).Canonical) :
    (s.regionPair wr t k v).Canonical :=
  h.ite id fun h => h.ite (·.setTile) hw

theorem Canonical.writePairs {wr ld l} (h : s.Canonical) (hw : ∀ {u : State} {k v}, u.Canonical → (wr u k v).Canonical) :
    LoadCanonical (writePairs wr ld l s) := by
  induction l generalizing s with
  | nil => exact h
  | cons p rest ih =>
    have hgo : ∀ {u : State} {k v}, u.Canonical →
        LoadCanonical (State.writePairs wr ld rest (match ld.region with
          | some t => u.regionPair wr t k v
          | none => wr u k v)) := fun h => ih (by
      split
      · exact h.regionPair hw
      · exact hw h)
    unfold State.writePairs
    split
    · exact h
    · dsimp only
      split
      · exact hgo h
      · split
        · exact hgo h
        · exact h
        · exact .ite h (hgo h.cancelDown)
        · exact .ite h trivial

theorem Canonical.placePort {port r} (h : s.Canonical) : (s.placePort port r).Canonical := (h.foldl (·.loadLane)).frame

theorem Canonical.doRecord {wr ld r} (h : s.Canonical) (hw : ∀ {u : State} {k v}, u.Canonical → (wr u k v).Canonical) :
    LoadCanonical (s.doRecord wr ld r) := by
  unfold State.doRecord
  dsimp only
  refine .ite ?_ (.ite ?_ (.ite ?_ (.ite h (.ite (.ite (h.writePairs hw) h) (.ite h (.ite h (.ite ?_ (.ite (.ite h.writeHbmRec h)
    (.ite (.ite h.writeFill h) (.ite h.placePort h))))))))))
  · split
    · exact .ite h h
    · exact h
  · split
    · exact .ite h h
    · exact h
  · split
    · exact .ite h (.ite h h.writeTile)
    · exact h
  · split
    · exact .ite h.placeGateway h
    · exact h

theorem Canonical.doStream {wr n ld} (h : s.Canonical) (hw : ∀ {u : State} {k v}, u.Canonical → (wr u k v).Canonical) :
    LoadCanonical (doStream wr n s ld) := by
  induction n generalizing s ld with
  | zero => exact h
  | succ n ih =>
    unfold State.doStream
    refine .ite h (.ite h (.ite h ?_))
    dsimp only
    split
    · next hr => exact ih (hr ▸ h.doRecord hw : LoadCanonical (.ok _ _))
    · exact h.doRecord hw

theorem Canonical.writeRest {ld} (h : s.Canonical) : (s.writeRest ld).Canonical := by
  unfold State.writeRest
  split
  · exact (h.ite id (·.writeTile)).idleBeyond
  · exact (h.foldl fun h => (h.ite id (·.writeTile)).idleBeyond).dropCells.ite (·.setLanes.foldl fun h => h.ite (·.setFld) id) id

theorem Canonical.endChecks {ld ports} (h : s.Canonical) : OkCanonical (s.endChecks ld ports) := by
  unfold State.endChecks
  refine .ite .error (.ite .error (.ite .error ?_))
  have hw := h.writeRest (ld := ld)
  dsimp only
  split
  · split
    · exact .error
    · next he =>
      refine .ok (Canonical.setFld (OkCanonical.of_eq ?_ he))
      split
      · exact .error
      · exact hw.setFld.setFld.padTile.bind fun h => h.padBorder
  · split
    · exact .error
    · next he =>
      refine .ite .error (.ok (OkCanonical.of_eq ?_ he))
      refine .ite ?_ (.ok hw)
      split
      · exact .error
      · next he => exact .ok (OkCanonical.of_eq hw.passFused.passFused.passFused.passFused.padAll he)

/-- Whatever a frame comes to, the state it leaves is canonical. -/
def FrameCanonical : FrameOut → Prop
  | .ok t _ _ => t.Canonical
  | .fail t _ _ _ _ => t.Canonical
  | .wait _ => True

theorem Canonical.doFrame {wr ld l ports} (h : s.Canonical) (hw : ∀ {u : State} {k v}, u.Canonical → (wr u k v).Canonical) :
    FrameCanonical (s.doFrame wr ld l ports) := by
  unfold State.doFrame
  split
  · exact h
  · next ld _ =>
    have hs := h.doStream (wr := wr) (n := ld.stream.length + 1) (ld := ld) hw
    split
    · exact trivial
    · next hr => exact (hr ▸ hs : LoadCanonical (.fail _ _ _))
    · next hr =>
      have hu : LoadCanonical (.ok _ _) := hr ▸ hs
      split
      · exact hu
      · split
        · exact hu
        · next he => exact OkCanonical.of_eq (Canonical.endChecks hu) he

end Sys2Proof.Machine.State
end

section
/-! PROOFS. The canonical form (log 5) through the service engines, pins, the dawn and the trace. -/

namespace Sys2Proof.Machine.State

set_option Elab.async false

variable {s : State}

/-! ### Service engines -/

theorem Canonical.engViolate {e pk cause tgt} (h : s.Canonical) : (s.engViolate e pk cause tgt).Canonical :=
  h.recordViolation.setMaster

theorem Canonical.masterViolates {node mid pk m} (h : s.Canonical) : (s.masterViolates node mid pk m).Canonical :=
  h.ite id (·.recordViolation.setMaster)

theorem Canonical.engAccess {x : Eng} {e pk stop serve} (h : x.s.Canonical) (hv : ∀ {u : State}, u.Canonical → (serve u).1.Canonical) :
    (x.access e pk stop serve).s.Canonical := by
  unfold Eng.access
  refine .ite_s h (.ite_s h ?_)
  split
  · refine hv ?_
    split
    · exact h.rangeUnits
    · exact h
  · exact h
  · split
    · exact hv h.cancelDown
    · exact h
  · exact .ite_s h (.ite_s h.engViolate h.engViolate)

theorem Canonical.engFetch {a ecc} (h : s.Canonical) : (s.engFetch a ecc).1.Canonical := by
  unfold State.engFetch
  split
  · exact h.hbmReadNow
  · split
    · exact h.foldl (·.bankRead)
    · exact h

theorem Canonical.engPut {a w} (h : s.Canonical) : (s.engPut a w).Canonical := by
  unfold State.engPut
  split
  · exact h.hbmWriteNow
  · split
    · exact h.foldl (·.setSpWord)
    · exact h

theorem Canonical.engRead {x : Eng} {e d a ecc stop} (h : x.s.Canonical) : (x.read e d a ecc stop).1.s.Canonical :=
  h.engAccess (·.engFetch)

theorem Canonical.engWrite {x : Eng} {e d a w stop} (h : x.s.Canonical) : (x.write e d a w stop).s.Canonical :=
  h.engAccess (·.engPut)

theorem Canonical.engStrict {x : Eng} (h : x.s.Canonical) : x.strict.s.Canonical := .ite_s h h

theorem Canonical.engCopy {x : Eng} {e d src dst ecc stop n} (h : x.s.Canonical) : (x.copy e d src dst ecc stop n).s.Canonical :=
  .foldl_s h fun h => .ite_s h.engRead.engWrite h

theorem Canonical.engDone {e} {x : Eng} (h : s.Canonical) (hx : x.s.Canonical) : (s.engDone e x).Canonical :=
  .ite_of h hx.setResult

theorem Canonical.statePeek {e t c w} (h : s.Canonical) : (s.statePeek e t c w).1.Canonical := by
  unfold State.statePeek
  dsimp only
  split
  · exact h.cluAccess.cluAccess
  · exact h.wuAccess
  · exact h.wuAccess

theorem Canonical.stateForce {e t c w v m} (h : s.Canonical) : (s.stateForce e t c w v m).Canonical := by
  unfold State.stateForce
  dsimp only
  split
  · exact h.flopPut.flopPut
  · exact h.wuRegPut
  · exact h.wuCarryPut

theorem Canonical.doForce {e d stop} (h : s.Canonical) : (s.doForce e d stop).Canonical := by
  unfold State.doForce
  dsimp only
  split
  · exact h.ite (·.setResult) fun h => h.ite id fun h => h.engDone (h.engStart.engAccess fun h => h.stateForce.ite id (·.loss))
  · exact h.setResult

theorem Canonical.doPeek {e d stop} (h : s.Canonical) : (s.doPeek e d stop).Canonical := by
  unfold State.doPeek
  split
  · exact h.ite (·.setResult) fun h => h.ite id fun h => h.engDone (h.engStart.engAccess (·.statePeek)).engWrite
  · exact h.setResult

theorem Canonical.ckReadRegs {e t} (h : s.Canonical) : (s.ckReadRegs e t).Canonical := h.foldl fun h => h.cluAccess.foldl (·.wuAccess)

theorem Canonical.ckSection {e d a tx ty t banks ecc stop} {x : Eng} (h : x.s.Canonical) :
    (ckSection e d a tx ty t banks ecc stop x).s.Canonical := by
  unfold State.ckSection
  refine .foldl_s ?_ fun h => .ite_s (.foldl_s h fun h => .ite_s h.engRead.engStrict.engWrite h) h
  refine .ite_s (.withState (.ckReadRegs ?_)) ?_
  · exact .foldl_s h fun h => .ite_s h.engWrite h
  · exact .foldl_s h fun h => .ite_s h.engWrite h

theorem Canonical.doCheckpoint {e d ecc stop} (h : s.Canonical) : (s.doCheckpoint e d ecc stop).Canonical := by
  unfold State.doCheckpoint
  extract_lets mask banks base head x y
  have hhead : ∀ {l} {x : Eng}, x.s.Canonical → (head l x).s.Canonical := fun h => .foldl_s h fun h => .ite_s h.engWrite h
  clear_value head
  refine h.ite (·.setResult) fun h => h.ite id fun h => h.engDone (hhead (.foldl_s (hhead h.engStart) fun h => ?_))
  split
  · exact (h.engAccess id).ckSection.of_eng_eq rfl
  · exact h

theorem Canonical.engReadN {e d a ecc stop n} {x : Eng} (h : x.s.Canonical) : (Eng.readN e d a ecc stop n x).1.s.Canonical := by
  induction n generalizing a x with
  | zero => exact h
  | succ n ih =>
    unfold Eng.readN
    split
    · exact ih h.engRead.engStrict
    · exact h

theorem Canonical.ckRestore {e t c l} (h : s.Canonical) : (s.ckRestore e t c l).Canonical :=
  h.setClu.flopPut.foldl (·.wuRegPut.wuCarryPut)

theorem Canonical.ckTile {e d a t saved ecc stop} {x : Eng} (h : x.s.Canonical) : (ckTile e d a t saved ecc stop x).s.Canonical := by
  unfold State.ckTile
  refine .foldl_s (.foldl_s h fun h => ?_) fun h => .ite_s (.foldl_s h fun h => ?_) h
  · exact .onThen h.engReadN h.engReadN.ckRestore
  · exact .onThen h.engReadN (h.engReadN.foldl (·.setSpWord))

theorem Canonical.ckCount {bar c} (h : s.Canonical) : (s.ckCount bar c).Canonical := by
  unfold State.ckCount
  dsimp only
  split
  · exact h.frame
  · exact h.frame

theorem Canonical.doRestore {e d ecc stop} (h : s.Canonical) : (s.doRestore e d ecc stop).Canonical := by
  unfold State.doRestore
  extract_lets mask banks base
  refine h.ite (·.setResult) fun h => h.ite id fun h => ?_
  split
  next x w hr =>
  have hx : x.s.Canonical := by
    have := h.engStart.engReadN (e := e) (d := d) (a := base) (ecc := ecc) (stop := stop) (n := 128)
    rwa [hr] at this
  refine .ite_of (h.engDone hx) (.ite_of hx.setResult ?_)
  extract_lets hm at_ heads
  have hh : heads.1.s.Canonical := by
    refine List.foldlRecOn (motive := fun r : Eng × List (Nat × Nat × Nat) × Bool => r.1.s.Canonical) _ _ hx fun q hq p _ => ?_
    split
    · exact hq.engReadN
    · exact hq
  refine .ite_of hh.setResult ?_
  have ht : (heads.2.1.foldl (fun x p => State.ckTile e d p.2.1 p.1 p.2.2 ecc stop x) heads.1).s.Canonical := .foldl_s hh (·.ckTile)
  exact .ite_of (h.engDone ht) (h.engDone ht.ckCount)

theorem Canonical.doRegionLoad {e d} (h : s.Canonical) : (s.doRegionLoad e d).Canonical := by
  unfold State.doRegionLoad
  dsimp only
  split
  · exact h.ite (·.engFree.rgnAccept.fillSlots) (·.setResult)
  · exact h.setResult

theorem Canonical.doNotify {e d} (h : s.Canonical) : (s.doNotify e d).Canonical :=
  h.evtSend.ite (fun h => h.engFree.fillSlots.ite (·.setSs.taskDone) id) (·.setResult)

theorem Canonical.endTask {e} (h : s.Canonical) : (s.endTask e).Canonical := by
  unfold State.endTask
  split
  · exact h.ite id (·.engFree.taskDone.fillSlots)
  · exact h

theorem Canonical.work {e ty f} (h : s.Canonical) (hf : ∀ d, (f d).Canonical) : (s.work e ty f).Canonical := by
  unfold State.work
  split
  · exact hf _
  · exact h

/-! ### Pins -/

theorem Canonical.vccoMeasure {b v} (h : s.Canonical) : (s.vccoMeasure b v).Canonical :=
  h.ite (fun h => h.setFld.ite (·.setFlag.record.irqIf) id) id

theorem Canonical.pinsInit (h : s.Canonical) : s.pinsInit.Canonical := h.setTio

theorem Canonical.recWrite {cyc levels} (h : s.Canonical) : (s.recWrite cyc levels).Canonical :=
  (h.ite (·.hbmWriteNow) (·.masterViolates)).setReg.count

theorem Canonical.recRead {ecc} (h : s.Canonical) : (s.recRead ecc).1.Canonical := .ite_of h.hbmReadNow h.masterViolates

theorem Canonical.convert {now samp replay} (h : s.Canonical) : (s.convert now samp replay).Canonical :=
  h.foldl fun h => h.ite (fun h => h.ite (·.setReg) (·.setReg)) id

theorem Canonical.deliverPins {samp} (h : s.Canonical) : (s.deliverPins samp).Canonical :=
  h.foldl fun h => h.ite (fun h => by
    split
    · exact h.ite (·.setClu) id
    · exact h) id

theorem Canonical.moveOutputs (h : s.Canonical) : s.moveOutputs.Canonical := h.setTio

theorem Canonical.replayWrong {k w} (h : s.Canonical) : (s.replayWrong k w).Canonical := h.setFlag.record.setTio.irqIf

theorem Canonical.sampleTake {now k running replay samp} (h : s.Canonical) : (s.sampleTake now k running replay samp).Canonical :=
  ((h.setFree.ite (·.loss) id).convert.ite (·.recWrite) fun h => h.ite (·.setReg.count) id).setTio.deliverPins.ite (·.moveOutputs) id

theorem Canonical.sampleAt {now k running ecc} (h : s.Canonical) : (s.sampleAt now k running ecc).Canonical :=
  (Canonical.ite_of h.recRead h).ite (·.setFree.replayWrong) fun h => h.ite (·.frame) (·.sampleTake)

theorem Canonical.firstStep (h : s.Canonical) : s.firstStep.Canonical := h.frame.setFld.setReg.stallRestart.ckDue

theorem Canonical.sampleInstant {now ecc} (h : s.Canonical) : (s.sampleInstant now ecc).Canonical :=
  h.ite (fun h => h.ite (·.setFlag) (fun h => h.ite id (fun h => h.setFlag.sampleAt.ite (·.firstStep) id))) id

theorem Canonical.clockPins {b} (h : s.Canonical) : (s.clockPins b).Canonical := h.setTio

theorem Canonical.tickCadence (h : s.Canonical) : s.tickCadence.Canonical :=
  h.ite id fun h => (h.ite id (·.clockPins)).ite (·.frame) fun h => h.ite id fun h => h.ite (·.frame) fun h => h.ite (·.count)
    (·.setFlag)

theorem Canonical.cadenceLoss (h : s.Canonical) : s.cadenceLoss.Canonical := h.setFlag.ite (·.record.irqIf) id

theorem Canonical.recDirWrite {v} (h : s.Canonical) : (s.recDirWrite v).Canonical := h.ite (·.setReg) (·.setFlag)

theorem Canonical.inputEdge {p level time} (h : s.Canonical) : (s.inputEdge p level time).Canonical :=
  h.ite (fun h => h.ite id (·.frame)) id

/-! ### The dawn -/

theorem Canonical.setDawn {st} (h : s.Canonical) : (s.setDawn st).Canonical := h.setFld

theorem Canonical.lockWait (h : s.Canonical) : s.lockWait.Canonical := h.setDawn.frame

theorem Canonical.withDawn {v} (h : s.Canonical) : Canonical { s with dawn := v } := h

theorem Canonical.dawnBegin (h : s.Canonical) : s.dawnBegin.Canonical := h.setReg.withDawn.lockWait

theorem Canonical.release (h : s.Canonical) : s.release.Canonical := (h.frame.ite (·.pinsInit) id).setFlag.setDawn

theorem Canonical.dawnLast (h : s.Canonical) : s.dawnLast.Canonical := h.ite (·.frame) (·.firstStep)

theorem Canonical.afterGo (h : s.Canonical) : s.afterGo.Canonical := h.ite (·.setDawn) (·.dawnLast)

theorem Canonical.afterGaps (h : s.Canonical) : s.afterGaps.Canonical := h.ite (·.setDawn) (·.afterGo)

theorem Canonical.lockEnd {pcie ports} (h : s.Canonical) : (s.lockEnd pcie ports).Canonical :=
  ((h.frame.setFld.setFld.setFlag.setFlag.setFlag.ite (·.setDawn) id).ite (·.record) id).ite id (·.setFlag.release)

theorem Canonical.dawnWrite {v} (h : s.Canonical) : (s.dawnWrite v).Canonical :=
  (h.setReg.ite (·.setFld.lockWait) id).ite (fun h => h.ite (·.afterGo) (·.frame)) id

theorem Canonical.gapEnd (h : s.Canonical) : s.gapEnd.Canonical := h.ite (·.release) fun h => h.ite (·.afterGaps) id

/-! ### Trace -/

theorem Canonical.setStream {n x} (h : s.Canonical) : (s.setStream n x).Canonical := h.frame

theorem Canonical.ttErr {op} (h : s.Canonical) : (s.ttErr op).Canonical := h.count.ite id (·.setFld.irqIf)

theorem Canonical.unitStep {c u} (h : s.Canonical) : (s.unitStep c u).Canonical :=
  h.ite (fun h => h.count.ite (·.setFlag.setReg.setReg) id) id

theorem Canonical.armUnits {mask arm} (h : s.Canonical) : (s.armUnits mask arm).Canonical :=
  h.foldl fun h => h.ite (fun h => h.ite (fun h => h.setFld.setFld.foldl (fun h => h.ite (·.setFlag) id)) (·.setFlag)) id

theorem Canonical.overflow {n keep seqno cyc} (h : s.Canonical) : (s.overflow n keep seqno cyc).Canonical :=
  h.setStream.setFlag.irqIf.loss

theorem Canonical.stage {n ptype sub info cyc ws} (h : s.Canonical) : (s.stage n ptype sub info cyc ws).Canonical :=
  h.ite (fun h => h.ite (·.overflow) (·.setStream)) id

theorem Canonical.streamStart {c n} (h : s.Canonical) : (s.streamStart c n).Canonical := by
  unfold State.streamStart
  dsimp only
  split
  · exact h.ite (·.setStream.stage) (·.setStream)
  · exact h.setStream

theorem Canonical.streamOpen {eqs n} (h : s.Canonical) : (s.streamOpen eqs n).Canonical := h.ite (·.setStream) id

theorem Canonical.streamSample {c n} (h : s.Canonical) : (s.streamSample c n).Canonical :=
  h.ite (fun h => h.ite id (·.stage.setStream)) id

theorem Canonical.stimPackets {c p} (h : s.Canonical) : (s.stimPackets c p).Canonical :=
  ((h.ite (fun h => h.ite (·.stage) id) id).foldl fun h => h.ite (·.stage) id).setTt

theorem Canonical.eqAct {c fires word g} (h : s.Canonical) : (s.eqAct c fires word g).Canonical :=
  (h.foldl (fun h => h.ite (·.stage) id)).irqIf.ite (·.armPoint) id

theorem Canonical.eqFired {c g} (h : s.Canonical) : (s.eqFired c g).Canonical := h.setFlag.setReg.setReg

theorem Canonical.streamEnd {c n} (h : s.Canonical) : (s.streamEnd c n).Canonical := h.setStream

theorem Canonical.ttTake {c} (h : s.Canonical) : (s.ttTake c).Canonical :=
  (((((((((h.foldl (·.unitStep)).foldl (·.eqFired)).foldl (·.streamStart)).foldl (·.streamOpen)).foldl (·.streamSample)).foldl
    (·.stimPackets)).foldl (·.eqAct)).foldl fun h => h.ite (·.armUnits.setFlag) id).foldl (·.streamEnd)).setTt.foldl (·.armUnits)

theorem Canonical.ttEvaluate (h : s.Canonical) : s.ttEvaluate.Canonical := by
  unfold State.ttEvaluate
  split
  · exact h
  · dsimp only
    split
    · exact h.frame.ttTake
    · exact h.foldl fun h => h.ite id (·.count.setStream)

theorem Canonical.triggerArm {e d} (h : s.Canonical) : (s.triggerArm e d).Canonical :=
  h.ite (·.setResult) fun h => h.engDone (h.engStart.engAccess fun h => h.ite (·.setTt) (·.armUnits))

theorem Canonical.stimWrite {who v} (h : s.Canonical) : (s.stimWrite who v).Canonical :=
  Canonical.ite_of (Canonical.ite_of h.ttErr h.setReg.frame) h.setReg

theorem Canonical.ttViolates {pk m} (h : s.Canonical) : (s.ttViolates pk m).Canonical := h.masterViolates

theorem Canonical.stimDeliver {p ecc} (h : s.Canonical) : (s.stimDeliver p ecc).Canonical := by
  unfold State.stimDeliver
  dsimp only
  split
  · split
    · exact h
    · exact h.ite id fun h => h.frame.ite (·.hbmWriteNow) (·.ttViolates.loss.ttErr)
  · exact h

theorem Canonical.streamCmd {n v host} (h : s.Canonical) : (s.streamCmd n v host).Canonical :=
  Canonical.ite_of h.ttErr (Canonical.ite_of (Canonical.ite_of h.ttErr
    (Canonical.ite_of (Canonical.ite_of h.ttErr h.setReg.setStream) h.setReg.setStream)) h.setReg)

theorem Canonical.ringFetch {n o k ecc} (h : s.Canonical) : (s.ringFetch n o k ecc).1.Canonical :=
  List.foldlRecOn (motive := fun r : State × List (BitVec 64) => r.1.Canonical) _ _ h fun _ h _ _ => h.engFetch

theorem Canonical.ringPut {n p} (h : s.Canonical) : (s.ringPut n p).Canonical := (h.foldl (·.engPut)).setReg.count

/-- An access that finds the domain of its node powering down stops that, when it finds the domain (R287). -/
theorem Canonical.cancelled {c : Prop} [Decidable c] {o : Option Nat} (h : s.Canonical) :
    (if c then o.elim s s.cancelDown else s).Canonical :=
  h.ite (fun h => by
    cases o with
    | none => exact h
    | some k => exact h.cancelDown) id

theorem Canonical.ringWritePacket {n p rest ok} (h : s.Canonical) : (s.ringWritePacket n p rest ok).Canonical := by
  unfold State.ringWritePacket
  split
  · exact h
  · exact h.cancelled.ite (·.setStream.ringPut) (·.setStream.ttViolates)

theorem Canonical.farStep {n k} (h : s.Canonical) : (s.farStep n k).Canonical :=
  h.setReg.ite (·.setReg.setStream) fun h => (h.ite (·.setReg) id).setStream

theorem Canonical.remoteDone {n t} (h : s.Canonical) (ht : s.remoteDone n = some t) : t.Canonical := by
  unfold State.remoteDone at ht
  split at ht
  · cases ht
  · split at ht
    · cases ht
    · cases ht
      exact h.frame.ite (·.farStep) (·.setStream)

theorem Canonical.remoteSend {n ecc} (h : s.Canonical) : (s.remoteSend n ecc).Canonical := by
  unfold State.remoteSend
  dsimp only
  split
  · refine h.ite id fun h => ?_
    split
    · exact h
    · exact h.cancelled.ite (·.ringFetch.setStream.request) (·.setStream.ttViolates)
  · exact h

theorem Canonical.ringWrite {n ok ecc} (h : s.Canonical) : (s.ringWrite n ok ecc).Canonical := by
  unfold State.ringWrite
  dsimp only
  split
  · next he => exact h.remoteDone he
  · refine h.ite id fun h => ?_
    split
    · exact h.ite (·.ringWritePacket) fun h => h.ite (·.overflow.ringWritePacket) fun h => h.ite (·.remoteSend) id
    · exact h.ite (·.remoteSend) id

theorem Canonical.ringRepeat {n} (h : s.Canonical) : (s.ringRepeat n).Canonical := h.ite (·.setStream.ttErr) id

theorem Canonical.fifoRead {n peek ecc} (h : s.Canonical) : (s.fifoRead n peek ecc).Canonical := by
  unfold State.fifoRead
  dsimp only
  split
  · exact h
  · exact h.cancelled.ite (fun h => h.ringFetch.answer.ite id fun h => h.setStream.ite (·.setReg) id) (·.frame.ttViolates.answer)

theorem Canonical.rdWrite {n v} (h : s.Canonical) : (s.rdWrite n v).Canonical := h.ite id fun h => h.ite (·.ttErr) (·.setReg.setStream)

/-! ### Watchdogs -/

theorem Canonical.stallExpiry (h : s.Canonical) : s.stallExpiry.Canonical :=
  h.ite (fun h => (h.ite (·.seqReport) (fun h => h.foldl (·.seqReport))).stopRun.frame) id

theorem Canonical.heartRestart (h : s.Canonical) : s.heartRestart.Canonical := h.setFld

theorem Canonical.heartExpiry (h : s.Canonical) : s.heartExpiry.Canonical :=
  h.ite (fun h => ((h.setFlag.record.irq.ite (·.armPoint) id).ite (·.frame) id).heartRestart) id

end Sys2Proof.Machine.State
end

section
/-! PROOFS. The canonical form (log 5) through power, resets, which keep a memory or empty it, the store and debug. -/

namespace Sys2Proof.Machine.State

set_option Elab.async false

variable {s : State}

/-! ### Power domains -/

theorem Canonical.setDomState {k st} (h : s.Canonical) : (s.setDomState k st).Canonical := h.setFld

theorem Canonical.domErr {k} (h : s.Canonical) : (s.domErr k).Canonical := h.setFlag.irqIf

theorem Canonical.powerDown {who k} (h : s.Canonical) : (s.powerDown who k).Canonical :=
  h.ite id fun h => h.ite (·.domErr) (·.setFlag.setPw.setDomState)

theorem Canonical.powerOn {who k} (h : s.Canonical) : (s.powerOn who k).Canonical := by
  unfold State.powerOn
  split
  · exact h
  · split
    · exact h.domErr
    · dsimp only
      split
      · exact h.setFlag.setDomState
      · exact h.setFlag.setPw
      · exact h.setFlag.setPw
      · exact h.setFlag.setPw
      · exact h.setFlag

theorem Canonical.pwrDomWrite {who k v} (h : s.Canonical) : (s.pwrDomWrite who k v).Canonical :=
  h.ite id fun h => (h.ite (·.setFlag) id).ite (fun h => h.ite (·.powerDown) (·.powerOn)) (·.setFlag)

theorem Canonical.dropMasters {node} (h : s.Canonical) : (s.dropMasters node).Canonical := h.frame

theorem Canonical.dropRegs {node lo hi} (h : s.Canonical) : (s.dropRegs node lo hi).Canonical := h.dropKeys

theorem Canonical.tileLost {t} (h : s.Canonical) : (s.tileLost t).Canonical := by
  unfold State.tileLost
  refine Canonical.dropMasters (Canonical.setFld (Canonical.dropRegs (Canonical.dropRegs ?_)))
  split
  · exact Canonical.ite (s := { s with clus := _, lanes := _ }) h.frame id (·.setTile.setFlag)
  · exact h.frame

theorem Canonical.domainLost {k} (h : s.Canonical) : (s.domainLost k).Canonical := by
  unfold State.domainLost
  split
  · exact h.tileLost
  · split
    · exact h.migAbort.setMc
    · split
      · exact h.setPort.setFlag.dropMasters
      · split
        · exact h.frame.dropRegs.dropMasters
        · exact h.frame.dropRegs.dropMasters
        · exact h.frame.dropRegs.dropMasters

theorem Canonical.pointOfNoReturn {k} (h : s.Canonical) : (s.pointOfNoReturn k).Canonical := h.ite (·.setDomState) id

theorem Canonical.domainOff {k} (h : s.Canonical) : (s.domainOff k).Canonical := h.ite (·.setDomState.domainLost) id

theorem Canonical.domainWake {k} (h : s.Canonical) : (s.domainWake k).Canonical :=
  h.ite (fun h => h.ite (·.setPw.setDomState) (fun h => h.ite (·.setPw.setDomState.count) id)) id

theorem Canonical.fidelityStreams (h : s.Canonical) : s.fidelityStreams.Canonical :=
  (h.foldl (·.setReg.setReg.setReg.setReg.setReg.setStream)).foldl (·.setFlag)

theorem Canonical.domainOn {k} (h : s.Canonical) : (s.domainOn k).Canonical :=
  h.ite (fun h => (h.setDomState.ite (·.setReg) id).drainQueue.ite (·.ckOwed) fun h => h.ite (·.fidelityStreams.setPm) id) id

theorem Canonical.domainFailed {k} (h : s.Canonical) : (s.domainFailed k).Canonical := h.ite (·.setDomState.record.irqIf.drainQueue) id

theorem Canonical.duskFence {k} (h : s.Canonical) : (s.duskFence k).Canonical := by
  unfold State.duskFence
  split
  · dsimp only
    split
    · split
      · exact h
      · exact h.setPw.migAbort.setFld
      · exact h.setPw.migAbort
    · exact h.setPw
  · exact h

theorem Canonical.duskDrained {k} (h : s.Canonical) : (s.duskDrained k).Canonical := h.ite (fun h => h.ite id (·.setPw)) id

theorem Canonical.selfRefresh {m} (h : s.Canonical) : (s.selfRefresh m).Canonical :=
  h.ite (fun h => h.setMc.setPw.ite (·.setFld) id) id

theorem Canonical.duskOff {k} (h : s.Canonical) : (s.duskOff k).Canonical :=
  h.ite (fun h => h.setDomState.domainLost.setPw.ite (fun h => h.ite (·.setFld) id) (·.setReg)) id

theorem Canonical.mcWake {m} (h : s.Canonical) : (s.mcWake m).Canonical := h.ite (·.setPw.setDomState) id

theorem Canonical.mcWakeReady {m} (h : s.Canonical) : (s.mcWakeReady m).Canonical :=
  h.ite (fun h => (h.setDomState.ite (·.setFld) id).drainQueue) id

theorem Canonical.mcWakeTimeout {m} (h : s.Canonical) : (s.mcWakeTimeout m).Canonical :=
  h.ite (fun h => (h.setDomState.ite id (·.mcFail)).drainQueue) id

/-! ### Power manager and repair -/

theorem Canonical.modeErr (h : s.Canonical) : s.modeErr.Canonical := h.setFlag

theorem Canonical.vcoreRequest {v} (h : s.Canonical) : (s.vcoreRequest v).Canonical := h.ite id (·.setFld.frame)

theorem Canonical.presetApply {p} (h : s.Canonical) : (s.presetApply p).Canonical :=
  h.setFld.vcoreRequest.ite (fun h => h.foldl (fun h => h.ite (·.setPw.powerOn) id)) id

theorem Canonical.fidelityOn (h : s.Canonical) : s.fidelityOn.Canonical := by
  unfold State.fidelityOn
  dsimp only
  split
  · exact h.domainCall.setFlag.fidelityStreams
  · exact h.domainCall.setFlag
  · exact h.domainCall.setFlag.frame

theorem Canonical.modeCtrlWrite {v} (h : s.Canonical) : (s.modeCtrlWrite v).Canonical :=
  h.ite (·.modeErr) fun h => h.setReg.ite (fun h => h.presetApply.ite (·.fidelityOn) (fun h => h.ite (·.setFlag.frame) id)) id

theorem Canonical.speedCheck (h : s.Canonical) : s.speedCheck.Canonical := h.ite (·.presetApply.modeErr) id

theorem Canonical.nacks {acks} (h : s.Canonical) : (s.nacks acks).Canonical := h.foldl fun h => h.ite id (·.record)

theorem Canonical.limitCheck {power temp acks} (h : s.Canonical) : (s.limitCheck power temp acks).Canonical :=
  (h.ite (·.vcoreRequest) (fun h => h.ite (·.vcoreRequest) id)).nacks

theorem Canonical.economyCheck (h : s.Canonical) : s.economyCheck.Canonical :=
  h.ite (fun h => h.foldl (fun h => h.ite (fun h => h.powerDown.ite (·.setPw) id) id)) id

theorem Canonical.addUnits {l byHost} (h : s.Canonical) : (s.addUnits l byHost).Canonical :=
  h.ite id fun h => (h.mapWrite.foldl (·.record)).setFlag.irqIf

theorem Canonical.markWrite {v} (h : s.Canonical) : (s.markWrite v).Canonical := h.setReg.ite (·.addUnits) id

theorem Canonical.passStart {st} (h : s.Canonical) : (s.passStart st).Canonical := h.frame.setFld.setFld

theorem Canonical.idlePass (h : s.Canonical) : s.idlePass.Canonical := h.ite id (·.passStart)

theorem Canonical.sprCtrlWrite {v} (h : s.Canonical) : (s.sprCtrlWrite v).Canonical := h.setReg.ite (·.passStart) id

theorem Canonical.ageSet {t loss} (h : s.Canonical) : (s.ageSet t loss).Canonical := h.ite (fun h => h.setReg.ite (·.record) id) id

theorem Canonical.setDevIn {v} (h : s.Canonical) : Canonical { s with devIn := v } := h

theorem Canonical.passDone {failing ages blocks rows} (h : s.Canonical) : (s.passDone failing ages blocks rows).Canonical := by
  refine h.ite id fun h => ?_
  exact ((h.frame.setFld.setFld.foldl (·.ageSet)).retire.ite id (·.mapWrite)).addUnits.ite (·.setDevIn.applyRepairMap) id

theorem Canonical.ledgerMark {v} (h : s.Canonical) : (s.ledgerMark v).Canonical := h.ite (·.setReg) id

/-! ### Resets and supplies -/

theorem Canonical.keepReg {old k} (h : s.Canonical) : (s.keepReg old k).Canonical := h.setReg

theorem Canonical.keepRegs {old log awl} (h : s.Canonical) : (s.keepRegs old log awl).Canonical :=
  ((h.foldl (·.keepReg)).ite (·.keepReg.keepReg.keepReg) id).ite (fun h => h.setFld.foldl (·.keepReg.setFld.setFlag)) id

theorem Canonical.deviceReset {log awl} (h : s.Canonical) : (s.deviceReset log awl).Canonical :=
  Canonical.keepRegs ⟨h.spad, h.hbm, rfl⟩

theorem Canonical.cutBurst {pk j} (h : s.Canonical) : (s.cutBurst pk j).Canonical := by
  unfold State.cutBurst
  dsimp only
  split
  · exact h.frame
  · exact h.frame.hbmPut
  · exact h.frame.hbmPut.foldl (·.frame)

theorem Canonical.cutWrites (h : s.Canonical) : s.cutWrites.Canonical := h.foldl fun h => h.foldl fun h => h.foldl (·.cutBurst)

theorem Canonical.setPkg {v} (h : s.Canonical) : Canonical { s with pkg := v } := h

theorem Canonical.cutHbm {b m o} (h : s.Canonical) : Canonical { s with hbm := [], hbmBad := b, mcs := m, overt := o } :=
  ⟨h.spad, rfl, h.regs⟩

theorem Canonical.cutVaon (h : s.Canonical) : Canonical { s with spad := [], regs := [] } := ⟨rfl, h.hbm, rfl⟩

theorem Canonical.porBegin {cause pwrgd} (h : s.Canonical) : (s.porBegin cause pwrgd).Canonical := h.cutHbm.deviceReset.setPkg

theorem Canonical.setFabId {v} (h : s.Canonical) : Canonical { s with fabId := v } := h

theorem Canonical.resetEnd {awl lost} (h : s.Canonical) : (s.resetEnd awl lost).Canonical :=
  h.deviceReset.setPkg.readCopies.setFabId.loadStart

theorem Canonical.awlBegin (h : s.Canonical) : s.awlBegin.Canonical := h.ite id (·.cutWrites.deviceReset.setPkg)

theorem Canonical.awlEnd {lost} (h : s.Canonical) : (s.awlEnd lost).Canonical :=
  h.ite (fun h => h.resetEnd.foldl (fun h => h.ite (·.setFld) id)) id

theorem Canonical.porEnd {acks lost} (h : s.Canonical) : (s.porEnd acks lost).Canonical := h.ite (·.resetEnd.nacks) id

theorem Canonical.vaonLoss (h : s.Canonical) : s.vaonLoss.Canonical := h.ite (·.porBegin.cutVaon.setPkg) id

theorem Canonical.vaonRise {straps} (h : s.Canonical) : (s.vaonRise straps).Canonical := h.ite id (·.frame)

theorem Canonical.overTemp {sensor reading} (h : s.Canonical) : (s.overTemp sensor reading).Canonical := h.ite id (·.frame.record)

theorem Canonical.stackLoss {m} (h : s.Canonical) : (s.stackLoss m).Canonical := h.ite (·.wipeHbm.ite id (·.mcFail)) id

theorem Canonical.perst (h : s.Canonical) : s.perst.Canonical := h.frame

theorem Canonical.smbAnswer {known v} (h : s.Canonical) : (s.smbAnswer known v).Canonical := h.frame

/-! ### The store -/

theorem Canonical.putSlot {k st} (h : s.Canonical) : (s.putSlot k st).Canonical := h.dirWrite

theorem Canonical.pgmWrite {v} (h : s.Canonical) : (s.pgmWrite v).Canonical :=
  h.ite (·.setFlag) fun h => h.setReg.ite (fun h => h.frame.setFlag.ite (·.putSlot) id) id

theorem Canonical.pgmEnd {err} (h : s.Canonical) : (s.pgmEnd err).Canonical := h.frame.setFlag.setFlag

theorem Canonical.bootWrite {v} (h : s.Canonical) : (s.bootWrite v).Canonical := h.ite id (·.dirWrite)

theorem Canonical.copyFrames {o ecc n i} (h : s.Canonical) : (copyFrames o ecc n i s).1.Canonical := by
  induction n generalizing i s with
  | zero => exact h
  | succ n ih =>
    unfold State.copyFrames
    dsimp only
    split
    · exact h
    · split
      · exact h.hbmReadBlocks
      · exact ih h.hbmReadBlocks.putPage

theorem Canonical.writeDone {o ok ecc} (h : s.Canonical) : (s.writeDone o ok ecc).Canonical :=
  h.ite id fun h => h.ite (·.copyFrames.pgmEnd) (·.setFree.copyFrames.pgmEnd)

theorem Canonical.setStore {f v} (h : s.Canonical) : Canonical { s with free := f, store := v } := h

theorem Canonical.eraseDone {o} (h : s.Canonical) : (s.eraseDone o).Canonical := h.dirWrite.setStore.pgmEnd

theorem Canonical.commitDone {o} (h : s.Canonical) : (s.commitDone o).Canonical := h.dirWrite.pgmEnd

theorem Canonical.verifyEnd {o code} (h : s.Canonical) : (s.verifyEnd o code).Canonical := h.putSlot.setFld.pgmEnd

theorem Canonical.verifyAbort {o} (h : s.Canonical) : (s.verifyAbort o).Canonical := h.frame.countReads.retryEnd.verifyEnd

theorem Canonical.ceWrite {v lost} (h : s.Canonical) : (s.ceWrite v lost).Canonical := by
  unfold State.ceWrite
  refine Canonical.ceCtrlWrite ?_
  split
  · exact h.ite (·.verifyAbort) id
  · exact h

theorem Canonical.patrol {region block reloc} (h : s.Canonical) : (s.patrol region block reloc).Canonical :=
  h.ite id fun h => (h.countRead.ite (·.relocate) id).ite (·.frame.dirWrite) (·.frame)

/-! ### Debug -/

theorem Canonical.setDbg {v} (h : s.Canonical) : Canonical { s with dbg := v } := h

theorem Canonical.newChallenge {rnd} (h : s.Canonical) : (s.newChallenge rnd).Canonical := (h.foldl (·.setReg)).setDbg

theorem Canonical.authCheck (h : s.Canonical) : s.authCheck.Canonical := h.ite id fun h => h.frame.ite (·.setFlag) (·.setFld)

theorem Canonical.authWrite {v} (h : s.Canonical) : (s.authWrite v).Canonical := (h.ite (·.authCheck) id).ite (·.frame.newChallenge) id

theorem Canonical.fuseWrite {who v} (h : s.Canonical) : (s.fuseWrite who v).Canonical :=
  (h.ite (·.setFlag) id).setReg.ite (fun h => h.setFlag.ite (·.setFlag) (·.frame)) id

theorem Canonical.fuseDone (h : s.Canonical) : s.fuseDone.Canonical := by
  unfold State.fuseDone
  split
  · exact h.frame
  · exact h

theorem Canonical.dbgCtrlWrite {v} (h : s.Canonical) : (s.dbgCtrlWrite v).Canonical := h.setReg.ite (·.unfreeze) id

end Sys2Proof.Machine.State
end

section
/-! PROOFS. The canonical form (log 5) through register writes, the steps of a load, the requests that nodes serve and the awl wire. -/

namespace Sys2Proof.Machine.State

set_option Elab.async false

variable {s : State}

/-! ### Register accesses -/

theorem Canonical.plainWrite {k v} (h : s.Canonical) : (s.plainWrite k v).Canonical := by
  unfold State.plainWrite
  split
  · exact h
  · exact h.setReg

theorem Canonical.writeCe {o k v} (h : s.Canonical) : (s.writeCe o k v).Canonical := by
  unfold State.writeCe
  split
  · exact h.ceWrite
  · exact h.bootWrite
  · exact h.pgmWrite
  · exact h.seqFaultWrite
  · exact h.unfreezeWrite
  · exact h
  · exact h
  · exact h.fabCtrlWrite
  · exact h.rtCtrlWrite
  · exact h.dawnWrite
  · exact h.ite (fun h => h.ite (·.setFlag) (·.plainWrite)) (·.plainWrite)

theorem Canonical.writeTileReg {who t o k v} (h : s.Canonical) : (s.writeTileReg who t o k v).Canonical :=
  h.ite (fun h => h.ite (·.cluAccStart) (fun h => h.ite (·.wuAccStart) (·.plainWrite))) fun h => h.ite (·.raccStart)
    fun h => h.ite (·.ownerWrite) fun h => h.ite (·.weltRead) fun h => h.ite (fun h => h.ite (·.ttErr) (·.plainWrite))
    fun h => h.ite (fun h => h.plainWrite.ite (·.setTile) id) (·.plainWrite)

theorem Canonical.writeSs {o k v} (h : s.Canonical) : (s.writeSs o k v).Canonical :=
  h.ite (·.plainWrite.fillSlots) fun h => h.ite (·.submitWrite) fun h => h.ite (·.cancelWrite) fun h => h.ite (·.ackWrite)
    fun h => h.ite (fun h => h.ite (·.ssRefuse) (·.plainWrite)) (·.plainWrite)

theorem Canonical.writeTt {who o k v} (h : s.Canonical) : (s.writeTt who o k v).Canonical :=
  h.ite (·.stimWrite) fun h => h.ite (·.rdWrite) fun h => h.ite (·.streamCmd) fun h => h.ite (·.ttErr) (·.plainWrite)

theorem Canonical.writeDm {who o k v} (h : s.Canonical) : (s.writeDm who o k v).Canonical := by
  unfold State.writeDm
  split
  · exact h.dbgCtrlWrite
  · exact h.dbgRunWrite
  · exact h.authWrite
  · exact h.fuseWrite
  · exact h.plainWrite.ite (·.heartRestart) id
  · exact h.ite (·.heartRestart) id
  · exact h.plainWrite

theorem Canonical.writePm {who o k v} (h : s.Canonical) : (s.writePm who o k v).Canonical := by
  unfold State.writePm
  split
  · exact h.modeCtrlWrite
  · exact h.sprCtrlWrite
  · exact h.markWrite
  · exact h.ledgerMark
  · exact h.ite (·.pwrDomWrite) (·.plainWrite)

theorem Canonical.writeTio {o k v} (h : s.Canonical) : (s.writeTio o k v).Canonical := by
  unfold State.writeTio
  dsimp only
  split
  · exact h.recDirWrite
  · exact h.ite (·.setReg) id
  · exact h.ite id (·.setReg)
  · exact h.plainWrite

theorem Canonical.writeReg {who k0 v} (h : s.Canonical) : (s.writeReg who k0 v).Canonical := by
  unfold State.writeReg
  dsimp only
  split
  · exact h
  · split
    · exact h.writeCe
    · exact h.writeTileReg
    · exact h.ite (·.migWrite) (·.plainWrite)
    · exact h.ite (·.lnkCtrlWrite) (·.plainWrite)
    · exact h.writeSs
    · exact h.writeTt
    · exact h.writeDm
    · exact h.writePm
    · exact h.writeTio
    · exact h.plainWrite

theorem Canonical.readEffect {k0 peek} (h : s.Canonical) : (s.readEffect k0 peek).Canonical := by
  unfold State.readEffect
  dsimp only
  split
  · exact h
  · split
    · exact h.cycleLoRead.frame
    · split
      · exact h.setReg
      · split
        · exact h.fifoRead.frame
        · split
          · exact h.ite id (·.setReg)
          · exact h

theorem Canonical.readReg {k peek} (h : s.Canonical) : (s.readReg k peek).Canonical := h.readEffect.answer

theorem Canonical.loadWrite {k v} (h : s.Canonical) : (s.loadWrite k v).Canonical := by
  unfold State.loadWrite
  dsimp only
  split
  · exact h
  · split
    · exact h.ite (·.setFld.setFld) (·.writeReg.setReg)
    · exact h.writeReg.ite (·.armUnits) id
    · exact h.writeReg.setReg

/-! ### Steps of a load -/

theorem Canonical.loadedFull {ld} (h : s.Canonical) : (s.loadedFull ld).Canonical :=
  (h.recordSkips.ceState.frame.irqIf.foldl (fun h => h.ite (·.setFld) id)).ite id (·.speedCheck.dawnBegin)

theorem Canonical.loadedRegion {ld t} (h : s.Canonical) : (s.loadedRegion ld t).Canonical := h.recordSkips.setFlag.frame.setFlag

theorem FrameCanonical.of_fail {o : FrameOut} {t ld c f b} (ho : FrameCanonical o) (hr : o = .fail t ld c f b) : t.Canonical := by
  cases hr
  exact ho

theorem FrameCanonical.of_ok {o : FrameOut} {t ld d} (ho : FrameCanonical o) (hr : o = .ok t ld d) : t.Canonical := by
  cases hr
  exact ho

theorem Canonical.frameRead {err ecc} (h : s.Canonical) : (s.frameRead err ecc).Canonical := by
  unfold State.frameRead
  split
  · exact h
  · next ld _ =>
    refine h.ite id fun h => ?_
    dsimp only
    split
    · exact h.readFrame.ite (·.loadRetry) (·.loadFail)
    · next l _ =>
      refine h.readFrame.ite (·.loadRetry) fun hr => ?_
      have hf := hr.doFrame (wr := State.loadWrite) (ld := ld) (l := l) (ports := true) (·.loadWrite)
      split
      · next d _ =>
        cases d with
        | none => exact h
        | some k => exact h.domainCall
      · next he => exact (hf.of_fail he).loadFail
      · next he =>
        refine ((hf.of_ok he).loadPass.ite (·.setReg) id).ite (fun h => ?_) id
        split
        · exact h.loadedRegion
        · exact h.loadedFull

theorem Canonical.cleanDone (h : s.Canonical) : s.cleanDone.Canonical := by
  unfold State.cleanDone
  split
  · exact h.ite id fun h => h.ite (·.ceState.setReg.setLoad.setReg.irqIf) (·.ceState.setFlag.setReg)
  · exact h

theorem Canonical.verifyRetry {frame n active} (h : s.Canonical) : (s.verifyRetry frame n active).Canonical :=
  h.ite id (·.setReg.setFld.count.irqIf)

theorem Canonical.verifyDone {o retries} (h : s.Canonical) : (s.verifyDone o retries).Canonical := by
  unfold State.verifyDone
  split
  · exact (h.foldl (·.verifyRetry)).countReads.retryEnd.verifyEnd
  · exact h.setReg.setFld.count.irqIf.countRead

theorem Canonical.storeDone {ok bad retries ecc} (h : s.Canonical) : (s.storeDone ok bad retries ecc).Canonical := by
  unfold State.storeDone
  split
  · exact h
  · split
    · exact h.retire.eraseDone
    · exact h.retire.writeDone
    · exact h.countReads.commitDone
    · exact h.verifyDone
    · exact h.recordWrite.pgmEnd

/-! ### Requests served -/

theorem Canonical.readRegs {k peek n} (h : s.Canonical) : (readRegs k peek n s).2.Canonical := by
  induction n generalizing k s with
  | zero => exact h
  | succ n ih => exact ih h.readEffect

theorem Canonical.readNamed {k pk} (h : s.Canonical) : (s.readNamed k pk).2.Canonical := by
  refine List.foldlRecOn (motive := fun r : List (BitVec 32) × State => r.2.Canonical) _ _ h fun r hr i _ => ?_
  split
  · exact hr.readEffect
  · exact hr

theorem Canonical.controlServe {node pk} (h : s.Canonical) : (s.controlServe node pk).Canonical :=
  h.ite (·.readNamed.respond) fun h => (h.foldl (·.writeReg)).respond

theorem Canonical.nodeServe {node pk ecc} (h : s.Canonical) : (s.nodeServe node pk ecc).Canonical := by
  unfold State.nodeServe
  split
  · exact h.rangeUnits.ite (·.scratchServe) (·.controlServe)
  · exact h.controlServe

theorem Canonical.serveNow {node pk ecc} (h : s.Canonical) : (s.serveNow node pk ecc).Canonical :=
  h.ite (fun h => h.ite (·.answerBroken) (·.openLock.nodeServe.countLock)) (·.nodeServe)

theorem Canonical.serveAt {node i p f} (h : s.Canonical) (hf : ∀ {u : State} {pk}, u.Canonical → (f u pk).Canonical) :
    (s.serveAt node i p f).Canonical := by
  unfold State.serveAt
  split
  · exact h
  · refine h.ite id fun h => ?_
    dsimp only
    split
    · exact hf h.arriving.setSrvAt
    · exact h.arriving.setSrvAt.respond
    · exact h.arriving.setSrvAt.respond
    · exact h.arriving

theorem Canonical.hbmAt {m i cmd ecc} (h : s.Canonical) : (s.hbmAt m i cmd ecc).Canonical := by
  unfold State.hbmAt
  split
  · exact h.ite (·.hbmTake.hbmServe) id
  · exact h

theorem Canonical.serveCmd {node i cmd ecc} (h : s.Canonical) : (s.serveCmd node i cmd ecc).Canonical := by
  unfold State.serveCmd
  dsimp only
  split
  · exact h.ite (·.hbmAt) fun h => h.serveAt (·.serveNow)
  · exact h.serveAt (·.serveNow)

theorem Canonical.unlk {node pk} (h : s.Canonical) : (s.unlk node pk).Canonical :=
  h.ite (·.answerBroken) fun h => h.ite (·.releaseLock.respond) (·.respond)

/-! ### The awl wire -/

theorem Canonical.dmServe {wr peek a v l} (h : s.Canonical) : (s.dmServe wr peek a v l).1.Canonical := by
  unfold State.dmServe
  dsimp only
  split
  · split
    · split
      · exact h.writeReg
      · exact h.readEffect
    · exact h
  · split
    · split
      · exact h.setSpWord.ite (·.loss) id
      · exact h.bankRead
    · exact h
  · split
    · exact h.hbmWriteNow
    · exact h.hbmReadNow

theorem Canonical.dmRemote {pk k} (h : s.Canonical) : (s.dmRemote pk k).Canonical := h.setMaster.request

theorem Canonical.ite_run {c : Prop} [Decidable c] {x y : AwlRun} (hx : x.s.Canonical) (hy : y.s.Canonical) :
    (if c then x else y).s.Canonical := by
  split
  · exact hx
  · exact hy

theorem Canonical.awlRemote {x : AwlRun} {pk key} (h : x.s.Canonical) : (x.remote pk key).s.Canonical := by
  unfold AwlRun.remote
  split
  · exact h
  · split
    · exact h.dmRemote
    · exact h

theorem Canonical.awlAccess {x : AwlRun} {wr peek stop a v e} (h : x.s.Canonical) : (x.access wr peek stop a v e).s.Canonical := by
  unfold AwlRun.access
  extract_lets pk hit serve key
  have hserve : ∀ {u : State}, u.Canonical → (serve u).s.Canonical := fun h => by
    refine Canonical.dmServe ?_
    split
    · exact h.ite id (·.rangeUnits)
    · exact h
  clear_value serve
  refine .ite_run h (.ite_run h.awlRemote (.ite_run h (.ite_run h (.ite_run h.awlRemote ?_))))
  split
  · exact hserve h
  · exact h
  · split
    · exact hserve h.cancelDown
    · exact h
  · exact .ite_run h (.ite_run h.violate h.recordViolation.setMaster)

theorem Canonical.dmInside {r} (h : s.Canonical) : (s.dmInside r).1.Canonical := by
  unfold State.dmInside
  dsimp only
  split
  · exact h.foldl (·.writeReg)
  · exact h.readRegs

theorem Canonical.dmAccesses {r ecc stop} {x : AwlRun} (h : x.s.Canonical) : (dmAccesses r ecc stop x).s.Canonical :=
  List.foldlRecOn (motive := fun x : AwlRun => x.s.Canonical) _ _ h fun _ h _ _ => h.awlAccess

theorem Canonical.awlStart {frame} (h : s.Canonical) : (s.awlStart frame).s.Canonical := by
  unfold State.awlStart
  dsimp only
  split
  · refine .ite_run h (.ite_run h ?_)
    split
    · exact .ite_run h h
    · exact h
  · exact h

theorem Canonical.awlAnswer {rate code data} (h : s.Canonical) : (s.awlAnswer rate code data).Canonical := h.setFld.frame

theorem Canonical.awlServe {wr frame rate ecc stop} (h : s.Canonical) : (s.awlServe wr frame rate ecc stop).Canonical := by
  unfold State.awlServe
  refine h.ite id fun h => ?_
  split
  · exact h.count.awlAnswer
  · next r _ =>
    refine h.ite id fun h => h.ite (·.awlAnswer) fun h => h.ite (·.dmInside.awlAnswer) fun h => ?_
    have hx := h.awlStart (frame := frame) |>.dmAccesses (r := r) (ecc := ecc) (stop := stop)
    dsimp only
    split
    · exact hx.setPkg
    · exact .ite_of h.setPkg (.ite_of hx.setFree.awlAnswer hx.awlAnswer)

end Sys2Proof.Machine.State
end

section
/-! PROOFS. Every command, and so every step, keeps the canonical form (log 5). -/

namespace Sys2Proof.Machine.State

set_option Elab.async false

variable {s : State}

/-- The next state, where there is one, is canonical. -/
def NextCanonical : Out → Prop
  | .next t => t.Canonical
  | _ => True

theorem Canonical.evt {idx} (h : s.Canonical) : NextCanonical (execEvt idx s) := by
  unfold execEvt
  split
  · exact h
  · exact h

theorem Canonical.exec {c} (h : s.Canonical) : NextCanonical (exec c s) :=
  match c with
  | .clusterStep .. => h.cluStep
  | .turnToStep .. => h.turn
  | .laneByteArrival .. => h.arrive
  | .laneStagePass .. => h.stagePass
  | .mergeTake .. => h.mergeTake
  | .localMidnight => h.localMidnight
  | .midnightRelease .. => h.midnightRelease (·.makeDue.ckDue)
  | .seqFaultWrite .. => h.regWrite (·.seqFaultWrite)
  | .seqRateWindow .. => h.rateWindow
  | .seqCycleLoRead .. => h.regAccess (·.cycleLoRead)
  | .rcFieldRead .. => h.regAccess (·.readReg)
  | .registerWrite .. => h.regWrite (·.writeReg)
  | .cluAccessStart .. => h.regWrite (·.cluAccStart)
  | .cluAccessComplete .. => h.cluAccDone
  | .wuAccessStart .. => h.regWrite (·.wuAccStart)
  | .wuAccessComplete .. => h.wuAccDone
  | .bankGrant .. => h.bankGrant
  | .hbmResponseArrival .. => h.respArrive
  | .portSideDeliver .. => h.portDeliver
  | .mergeAccessStart .. => h.regWrite (·.raccStart)
  | .mergeAccessComplete .. => h.raccDone
  | .bankHandoverStart .. => h.regWrite (·.ownerWrite)
  | .bankHandoverFence .. => h.ite (·.bankFence) id
  | .bankHandoverDrained .. => h.ite (·.bankDrained) id
  | .bankHandoverCleared .. => h.ite (·.dropCells.bankSwitch) id
  | .scratchpadNocAccess .. => h.serveAt (·.serveNow)
  | .bankScrubRead .. => h.bankScrub
  | .hbmRequestArrival .. => h.hbmAccept
  | .hbmCommandSelect .. => h.ite (·.ageReqs.commandSelect) id
  | .pageIdleExpiry .. => h.setRow
  | .perBankRefreshDue .. => h.ite (·.setMc.setFld) id
  | .refreshWindowEnd .. => h.setMc
  | .hbmParityRetry .. => h.parityRetry
  | .hbmScrubRead .. => h.hbmScrub
  | .migrationStart .. => h.regWrite (·.migWrite)
  | .migrationAbort .. => h.regWrite (·.migWrite)
  | .migrationBlockCopy .. => h.migCopy
  | .mcInitDone .. => h.mcInitDone
  | .mcWake .. => h.mcWake
  | .mcWakeReady .. => h.mcWakeReady
  | .mcWakeTimeout .. => h.mcWakeTimeout
  | .routerForward .. => h.forward
  | .nocRequestSend .. => h.nocSend
  | .rd .. => h.serveCmd
  | .wr .. => h.serveCmd
  | .rdw .. => h.serveCmd
  | .wrw .. => h.serveCmd
  | .lrd .. => h.serveCmd
  | .lwr .. => h.serveCmd
  | .unlk .. => h.serveAt (·.unlk)
  | .resp .. => h.respArrive
  | .evt .. => h.evt
  | .nocRequestTimeout .. => h.timeout
  | .slotReuseTimeout .. => h.slotReuse
  | .lockIdleExpiry .. => h.breakLock
  | .nocUnfreezeMaster .. => h.regWrite (·.unfreezeWrite)
  | .nocUnfreezeAll .. => h.regWrite (·.unfreezeWrite)
  | .pwrDownRequest .. => h.regWrite (·.pwrDomWrite)
  | .pwrOnRequest .. => h.regWrite (·.pwrDomWrite)
  | .pointOfNoReturn .. => h.pointOfNoReturn
  | .domainOff .. => h.domainOff
  | .domainWake .. => h.domainWake
  | .domainOn .. => h.domainOn
  | .domainWakeTimeout .. => h.domainFailed
  | .duskFence .. => h.duskFence
  | .duskDrainComplete .. => h.duskDrained
  | .selfRefreshEntry .. => h.selfRefresh
  | .duskOff .. => h.duskOff
  | .portSignalDetect .. => h.ite (·.setLnk) id
  | .portTrainComplete .. => h.trained
  | .portTrainTimeout .. => h.trained
  | .laneLossOfLock .. => h.ite (·.linkErr.retrain) id
  | .farEndRetrain .. => h.ite (fun h => h.ite (·.leaveUp) (·.retrain)) id
  | .lnkRetrain .. => h.regWrite (·.lnkCtrlWrite)
  | .codewordReceive .. => h.codeword
  | .flitSend .. => h.flitSend
  | .replayTimeout .. => h.ite id (·.setPort.episodeCount)
  | .token .. => h.ctrlTake
  | .halt .. => h.ctrlTake
  | .resume .. => h.ctrlTake
  | .credit .. => h.ctrlTake
  | .nak .. => h.ctrlTake
  | .probe .. => h.ctrlTake
  | .preply .. => h.ctrlTake
  | .claim .. => h.ctrlTake
  | .explore .. => h.ctrlTake
  | .report .. => h.ctrlTake
  | .unclaim .. => h.ctrlTake
  | .probeTimeout .. => h.ite (·.probed) id
  | .discoveryStart .. => h.regWrite (·.fabCtrlWrite)
  | .epochSwitch .. => h.regWrite (·.rtCtrlWrite)
  | .fabricPacketRoute .. => h.fabricRoute
  | .holdNack .. => h.holdNack
  | .remoteRequest .. => h.remoteRequest
  | .remoteRequestArrive .. => h.remoteArrive
  | .loadStart .. => h.regWrite (·.ceWrite)
  | .loadHeader .. => h.loadHeader
  | .frameRead .. => h.frameRead
  | .loadCleanDone => h.cleanDone
  | .loadAbort .. => h.regWrite (·.ceWrite)
  | .erase .. => h.regWrite (·.pgmWrite)
  | .write .. => h.regWrite (·.pgmWrite)
  | .commit .. => h.regWrite (·.pgmWrite)
  | .verify .. => h.regWrite (·.pgmWrite)
  | .ident .. => h.regWrite (·.pgmWrite)
  | .storeOperationDone .. => h.storeDone
  | .bootSelectWrite .. => h.regWrite (·.bootWrite)
  | .storePatrolRead .. => h.patrol
  | .dawnLockWaitEnd => h.ite (·.lockEnd) id
  | .dawnLockTimeout .. => h.ite (·.lockEnd) id
  | .dawnRelease => h.gapEnd
  | .dawnGo .. => h.regWrite (·.dawnWrite)
  | .dawnRetry .. => h.regWrite (·.dawnWrite)
  | .regionDrainDone .. => h.rgnDrained
  | .regionSwap .. => h.rgnSwap
  | .weltEmit .. => h.weltEmit
  | .weltDiscard .. => h.weltDiscard
  | .weltRecordRead .. => h.regWrite (·.weltRead)
  | .taskSubmit .. => h.regWrite (·.submitWrite)
  | .taskCancel .. => h.regWrite (·.cancelWrite)
  | .taskAck .. => h.regWrite (·.ackWrite)
  | .taskDueTick .. => h.tickBy
  | .taskStart .. => h.ite (·.taskStart) id
  | .copy .. => h.work fun _ => h.engDone h.engStart.engCopy
  | .fill .. => h.work fun _ => h.engDone (.foldl_s h.engStart fun h => .ite_s h.engWrite h)
  | .force .. => h.work fun _ => h.doForce
  | .peek .. => h.work fun _ => h.doPeek
  | .checkpoint .. => h.work fun _ => h.doCheckpoint
  | .restore .. => h.work fun _ => h.doRestore
  | .regionLoad .. => h.work fun _ => h.doRegionLoad
  | .triggerArm .. => h.work fun _ => h.triggerArm
  | .hostNotify .. => h.work fun _ => h.doNotify
  | .taskEnd .. => h.endTask
  | .ttCycleEvaluate => h.ite (·.ttEvaluate) id
  | .stimulusWrite .. => h.regWrite (·.stimWrite)
  | .stimulusDelivery .. => h.stimDeliver
  | .streamEnable .. => h.ite (fun h => h.regWrite (·.streamCmd)) id
  | .streamDisable .. => h.ite (fun h => h.regWrite (·.streamCmd)) id
  | .ringWrite .. => h.ite (·.ringWrite) id
  | .ringWriteRepeat .. => h.ite (·.ringRepeat) id
  | .traceFifoRead .. => h.ite (fun h => h.regAccess (·.fifoRead)) id
  | .traceRdWrite .. => h.ite (fun h => h.regWrite (·.rdWrite)) id
  | .awlReset => h.awlBegin
  | .awlRead .. => h.awlServe
  | .awlWrite .. => h.awlServe
  | .authNewChallenge .. => h.newChallenge
  | .authCheck => h.authCheck
  | .fuseProgram .. => h.regWrite (·.fuseWrite)
  | .fuseProgramDone => h.fuseDone
  | .dmUnfreeze .. => h.regWrite (·.dbgCtrlWrite)
  | .dbgHalt .. => h.regWrite (·.dbgRunWrite)
  | .dbgHaltnow .. => h.regWrite (·.dbgRunWrite)
  | .dbgResume .. => h.regWrite (·.dbgRunWrite)
  | .dbgStep .. => h.regWrite (·.dbgRunWrite)
  | .dbgCycle .. => h.regWrite (·.dbgRunWrite)
  | .dbgCancel .. => h.regWrite (·.dbgRunWrite)
  | .haltPointReached => h.haltReached
  | .haltLockBreak => h.haltBreak
  | .haltComplete => h.haltDone
  | .stallWatchdogExpiry => h.stallExpiry
  | .wdgKick .. => h.regWrite (·.setFld)
  | .heartbeatExpiry => h.heartExpiry
  | .sampleInstant .. => h.sampleInstant
  | .cadenceTick => h.tickCadence
  | .cadenceLockLoss => h.cadenceLoss
  | .cadenceRelock => h.setFlag
  | .vccoOutOfWindow .. => h.vccoMeasure
  | .vccoReturn .. => h.vccoMeasure
  | .recDirWrite .. => h.regWrite (·.recDirWrite)
  | .modeApply .. => h.regWrite fun h => h.modeCtrlWrite.ite id (·.nacks)
  | .pmLimitCheck .. => h.limitCheck
  | .economyCheck => h.economyCheck
  | .idlePassDue => h.idlePass
  | .hostPass .. => h.regWrite (·.sprCtrlWrite)
  | .cobblerPassDone .. => h.passDone
  | .sprMark .. => h.regWrite (·.markWrite)
  | .ledgerReadMark .. => h.regWrite (·.ledgerMark)
  | .powerOnReset => h.porBegin
  | .powerOnResetEnd .. => h.porEnd
  | .undervoltage .. => h.ite (·.porBegin) id
  | .overTemperature .. => h.overTemp
  | .perst => h.perst
  | .smbStatus .. => h.smbAnswer
  | .smbResetCause => h.smbAnswer.setFree
  | .smbFuses => h.smbAnswer
  | .smbGrade => h.smbAnswer
  | .smbVcoreVoltage .. => h.smbAnswer
  | .smbVcoreCurrent .. => h.smbAnswer
  | .smbDieTemp .. => h.smbAnswer
  | .smbHbmTemp .. => h.smbAnswer
  | .smbPower .. => h.smbAnswer
  | .awlResetEnd => h.ite (·.setFree.awlEnd) id
  | .ssTickLoRead .. => h.regAccess (·.readReg)
  | .stackRailLoss .. => h.stackLoss
  | .inputEdge .. => h.inputEdge
  | .cadenceClockFall => h.clockPins
  | .vcoreRampDone .. => h.setPm
  | .vaonRise .. => h.vaonRise
  | .vaonLoss => h.vaonLoss

theorem Canonical.step (h : s.Canonical) : NextCanonical (step s) := by
  unfold Machine.step
  split
  · exact h
  · exact Canonical.exec (Canonical.frame h)

end Sys2Proof.Machine.State

open Sys2Proof Sys2Proof.Machine Sys2Proof.Machine.State

/-- Settles O4: each command is put together from functions that keep the canonical form. -/
theorem everyStepKeepsTheCanonicalForm : Obligations.EveryStepKeepsTheCanonicalForm := by
  intro s t h ht
  have hn := h.step
  rwa [ht] at hn

end
